-- ==== Sys2Proof/Word.lean ====
section
/-! DEFINITION. The plain number types of the ZJ-6432: bytes, keys, window addresses, bank and line numbers, and the
sixteen bytes of a flash line. Sequences, epochs, generations, erase counts and line counts are `Nat`: the manual counts
and compares them and never shifts or masks them. -/
namespace Sys2Proof

/-- Eight bits, as the serial port moves them. -/
abbrev Byte := BitVec 8

/-- The 16-bit name of a record (R24). -/
abbrev Key := BitVec 16

/-- A window address, 0x00 to 0x7F (R189). -/
abbrev Addr := BitVec 7

/-- A bank number, 0 to 31 (section 1.1). -/
abbrev BankId := Fin 32

/-- A line number within its bank, 0 to 127 (section 1.1). -/
abbrev LineId := Fin 128

/-- The sixteen bytes of a line whose contents carry no field the manual names. -/
abbrev RawLine := Vector Byte 16

/-- A line of sixteen 0xFF bytes: what an erased line reads (R1). -/
def erasedBytes : RawLine := Vector.replicate 16 0xFF

end Sys2Proof
end

