-- ==== Sys2Proof/Syntax.lean ====
section
/-! DEFINITION. The commands of the ZJ-6432: one constructor of `Instr` for each row of spec/opcode_table.json. A row's
operands are what comes from outside with the event: bytes the host sends, pin levels, and what the flash medium reads. -/
namespace Sys2Proof

/-- An edge of SCK while CS# is LOW (R188): SDI is sampled at each rising edge, SDO changes at each falling edge. -/
inductive SckEdge where
  | rises (sdi : Bool)
  | falls
deriving DecidableEq, Repr

/-- What a line reads after a program of it ended or was cut short (R6, R7, R20). -/
inductive LineRead where
  /-- The line reads exactly as requested. -/
  | asIntended
  /-- Every field, mark and check reads as requested, but a byte outside them differs (the manual does not give the byte
  positions, R6); `spare` = 0 is as requested. -/
  | fieldsGood (spare : Byte)
  /-- A commit line reads with its mark and sequence and a payload check that does not agree (R30); any other line reads
  these bytes and passes no check. -/
  | checkWrong (bytes : RawLine)
  /-- The line reads these bytes, which pass no check and carry no mark; sixteen 0xFF bytes are an erased line. -/
  | other (bytes : RawLine)
deriving DecidableEq, Repr

/-- What one line of a bank reads after an erase that failed or stopped (R2, R8, R16, R20). -/
inductive LineRemains where
  /-- The line reads as it did before the erase. -/
  | earlier
  /-- The line reads these bytes. -/
  | other (bytes : RawLine)
deriving DecidableEq, Repr

/-- The lines of a bank that do not read erased after an erase; an unlisted line reads erased. -/
abbrev EraseRemains := List (LineId × LineRemains)

/-- What a reset leaves of the flash operations it abandons (R20). -/
structure CutShort where
  line : LineRead
  erase : EraseRemains
deriving DecidableEq, Repr

/-- The source that asserts the power warning (R179). `between`: an entry to WARNING comes between the taking of the head of the queue and
that command's step (R182, R184; log entry 40). -/
inductive WarningSource where
  /-- PFW# goes LOW. -/
  | pfw (between : Bool)
  /-- The supply falls to this many millivolts. -/
  | supply (millivolts : Nat) (between : Bool)
deriving DecidableEq, Repr

/-- What comes from outside with an entry to WARNING: what it leaves of a bank under erase (R16), and whether it comes between the taking of
the head of the queue and that command's step (R182, R184; log entry 40). -/
structure WarningEntry where
  erase : EraseRemains
  between : Bool
deriving DecidableEq, Repr

/-- The supply after an event, and what a brown-out at that level leaves of the flash operations in progress (R20, R181). -/
structure SupplyAfter where
  millivolts : Nat
  cut : CutShort
deriving DecidableEq, Repr

/-- What RST# does (R198; log entry 27). -/
inductive ResetPin where
  /-- RST# goes LOW for this long and rises. -/
  | pulse (lowNanoseconds : Nat)
  /-- RST# has been LOW for 1 µs and stays LOW. -/
  | low
  /-- RST# rises after `low`. -/
  | rises
deriving DecidableEq, Repr

/-- The commands, in the order of spec/opcode_table.json. -/
inductive Instr where
  /-- CS# falls, with SCK idle HIGH or LOW, and the SCK edges of the header bytes that complete (R188, R189). -/
  | frame (idleHigh : Bool) (edges : List SckEdge)
  /-- CS# rises after these SCK edges of a byte that did not complete (R192). -/
  | frameEnd (edges : List SckEdge)
  /-- `value` is written to GO while the code register names READ (R88). -/
  | read (value : Byte)
  /-- `value` is written to GO while the code register names WRITE (R90). -/
  | write (value : Byte)
  /-- `value` is written to GO while the code register names DELETE (R93). -/
  | delete (value : Byte)
  /-- `value` is written to GO while the code register names ADD (R94). -/
  | add (value : Byte)
  /-- `value` is written to GO while the code register names LIST (R96). -/
  | list (value : Byte)
  /-- `value` is written to GO while the code register names OPEN_GROUP (R110). -/
  | openGroup (value : Byte)
  /-- `value` is written to GO while the code register names COMMIT_GROUP (R115). -/
  | commitGroup (value : Byte)
  /-- `value` is written to GO while the code register names DROP_GROUP (R119). -/
  | dropGroup (value : Byte)
  /-- `value` is written to GO while the code register names RECLAIM (R136). -/
  | reclaim (value : Byte)
  /-- `value` is written to GO while the code register names FORMAT (R161). -/
  | format (value : Byte)
  /-- `value` is written to GO while the code register names RAISE_LOCK (R171). -/
  | raiseLock (value : Byte)
  /-- `value` is written to GO while the code register names no command (R69). -/
  | codeNamesNoCommand (value : Byte)
  /-- The IDLE Command Engine takes the head of the queue (R74). -/
  | takeCommand
  /-- `value` is written to POP (R80). -/
  | pop (value : Byte)
  /-- `value` is written to the control register; 0xC3 is the port reset (R85, R197). -/
  | portReset (value : Byte)
  /-- `value` is written to the buffer data port (R72). -/
  | bufferDataWrite (value : Byte)
  /-- One data byte of a read frame is sent: at 0x30 the buffer data port (R72), elsewhere the register at the pointer (R191). -/
  | bufferDataRead
  /-- `value` is written to the flags register (R195). -/
  | notificationFlagsClear (value : Byte)
  /-- `value` is written to the enable mask (R196). -/
  | enableMaskWrite (value : Byte)
  /-- `value` is written to the configuration register at `addr` (R194); `entry` tells of the entry to WARNING where the
  write makes the power condition WARNING (R16, R179). -/
  | configurationWrite (addr : Addr) (value : Byte) (entry : WarningEntry)
  /-- `value` is written to a register without behaviour of its own (R191, R193). -/
  | registerWrite (addr : Addr) (value : Byte)
  /-- Power-on reset, brown-out included (R20, R181), with the pin level and the supply after it. -/
  | powerOnReset (cut : CutShort) (pfwLow : Bool) (millivolts : Nat)
  /-- RST# is LOW for a time, goes LOW, or rises (R198); `cut` is what a reset leaves of the flash operations in progress (R20). -/
  | pinReset (pin : ResetPin) (cut : CutShort)
  /-- A source asserts the power warning (R179); `cut` is what the flash operations it abandons leave (R16, R181). -/
  | powerWarning (source : WarningSource) (cut : CutShort)
  /-- PFW# goes HIGH, with the supply after it (R180). -/
  | powerWarningDeasserted (supply : SupplyAfter)
  /-- The Timebase ticks (R120, R180). -/
  | timebaseTick
  /-- The open group's deadline reaches 0 (R120). -/
  | groupExpiry
  /-- The ARMED debounce expires (R180, R186). -/
  | recovery
  /-- The line program in progress ends, the line reading as given (R7). -/
  | lineProgramOutcome (result : LineRead)
  /-- The bank erase in progress ends, the bank reading as given (R8). -/
  | bankEraseOutcome (remains : EraseRemains)
  /-- The multi-line read in progress ends (R9). -/
  | multiLineReadOutcome
  /-- The IDLE Reclaim Engine takes up work (R128). -/
  | reclaimTakeUpWork
  /-- Payload line `index` (from 0) of the record whose header line is `line` of `bank` changes to these bytes (R2). -/
  | payloadDecay (bank : BankId) (line : LineId) (index : Fin 16) (bytes : RawLine)
deriving DecidableEq, Repr

end Sys2Proof
end

