-- ==== Sys2Proof/Decode.lean ====
section
/-! DEFINITION. Words that spell commands. No row of spec/opcode_table.json carries bits (every row's "fields" is empty), so
no word spells a command; commands enter through `State.pending` (log entry 25). -/
namespace Sys2Proof

/-- The command that the word `w` of `nbits` bits spells: none, for the table gives no row any bits. -/
def decodeTableWord (_nbits _w : Nat) : Option Instr := none

end Sys2Proof
end

