-- ==== Sys2Proof/Config.lean ====
section
/-! DEFINITION. The numbers the manual fixes for the ZJ-6432. The manual leaves no VALUE open that the device computes from
operands; what the flash medium leaves behind is an operand of the command that reports it (log entry 7). -/
namespace Sys2Proof.Config

/-- Banks of the array (section 1.1). -/
def bankCount : Nat := 32
/-- Lines of a bank (section 1.1). -/
def linesPerBank : Nat := 128
/-- The first journal line (R22). -/
def journalStart : Nat := 3
/-- Journal lines of a bank (section 1.1). -/
def journalLines : Nat := 125
/-- The highest sequence or epoch taken (R33, R34, R35). -/
def counterLimit : Nat := 0xFFFFFF00
/-- The highest generation and the ceiling of an erase count (R63, R161). -/
def maxWord : Nat := 0xFFFFFFFF
/-- Command credits (R67). -/
def credits : Nat := 8
/-- User slots of the Directory (R44, R47). -/
def userSlots : Nat := 376
/-- Distinct keys of a group (R109). -/
def groupKeys : Nat := 16
/-- Entries of the Commit Table (R125). -/
def commitEntries : Nat := 8
/-- Entries of one LIST (R96). -/
def listEntries : Nat := 16
/-- Suspensions of one erase (R11). -/
def maxSuspensions : Nat := 8
/-- The fairness count at which the Reclaim Engine is granted (R15). -/
def fairnessLimit : Nat := 16
/-- Free banks below which the Command Engine opens none (R101). -/
def commandReserve : Nat := 2
/-- Dead lines a bank needs for triggers a) and e) (R135). -/
def deadThreshold : Nat := 18
/-- Commit Table entries at which trigger d) holds (R134). -/
def commitPressure : Nat := 6
/-- Usable banks below which the store is DEGRADED (R133). -/
def minUsable : Nat := 8
/-- BAD banks a bank map record can list (R42). -/
def maxBad : Nat := 8
/-- The longest payload (R22). -/
def maxPayload : Nat := 256
/-- The largest OPEN_GROUP argument, in units of 10 ms (R110). -/
def maxTimeout : Nat := 6000
/-- The shortest RST# pulse that resets, in nanoseconds (R198). -/
def resetPulse : Nat := 1000
/-- The brown-out level in millivolts (R181). -/
def brownOut : Nat := 1600
/-- The value that makes a write to the control register a port reset (R197). -/
def portResetCode : Byte := 0xC3
/-- The access code of a window read (R189). -/
def readCode : Byte := 0xA5
/-- The access code of a window write (R189). -/
def writeCode : Byte := 0x5A
/-- Register 0x00 (section 11.6). -/
def partCode : Byte := 0x64
/-- Register 0x01 (section 11.6). -/
def revision : Byte := 0x01
/-- Key of the lock record (R24). -/
def lockKey : Key := 0xFF01
/-- Key of the bank map record (R24). -/
def mapKey : Key := 0xFF02
/-- Key of group commit records (R24). -/
def commitKey : Key := 0xFF10
/-- RECLAIM's argument for the engine's choice, and its result when no bank qualified (R65, R81). -/
def anyBank : Nat := 0xFF

end Sys2Proof.Config
end

