-- ==== Sys2Proof/Machine/State.lean ====
section
/-! DEFINITION. Everything the manual gives the ZJ-6432 to hold, as plain data, and the state right after reset. Fields that
another field determines by a rule (credit count, DONE, IRQ#, FREE-bank count, dead-line total, urgent mark, engine states)
are computed, not stored: INVENTORY.md names the function of each. -/
namespace Sys2Proof.Machine
open Sys2Proof

/-! ## The flash medium (chapters 1 and 2) -/

/-- The kind of a record (R25). -/
inductive Kind where | data | tombstone | commit
deriving DecidableEq, Repr

/-- The class of a record's key (R26). -/
inductive RecClass where | plain | once | counter | hidden
deriving DecidableEq, Repr

/-- The fields of a record's header line (R23). -/
structure Header where
  key : Key
  kind : Kind
  cls : RecClass
  length : Nat
  seq : Nat
  gid : Option Nat
deriving DecidableEq, Repr

/-- The payload check a commit line carries (R28). Its algorithm is not given (R6); what is given is that it agrees with the
bytes it was computed over and with no others, so it is held as those bytes, or as a check that agrees with none (log entry 4). -/
inductive PayloadCheck where
  | over (bytes : List Byte)
  | disagrees
deriving DecidableEq, Repr

/-- What one line reads. A line that passes a check or carries a mark is held by its fields, since the byte positions are
not given (R6); every other content is held as its sixteen bytes. `spare` stands for the bytes outside the fields: 0 in
every line as the device builds it. -/
inductive Line where
  /-- Sixteen bytes that pass no check and carry no mark; all 0xFF is an erased line (R1). -/
  | raw (bytes : RawLine)
  /-- A bank header line whose check passes (R3). -/
  | bankHeader (generation eraseCount : Nat) (spare : Byte)
  /-- An open line whose check passes (R4). -/
  | openLine (epoch : Nat) (spare : Byte)
  /-- A retire line with its mark, whose check passes (R5). -/
  | retireLine (eraseCount : Nat) (spare : Byte)
  /-- A record's header line whose header check matches (R23). -/
  | recordHeader (header : Header) (spare : Byte)
  /-- A record's commit line with the commit mark (R28). -/
  | commitLine (seq : Nat) (check : PayloadCheck) (spare : Byte)
deriving DecidableEq, Repr

/-- What an erased line reads (R1). -/
def Line.erased : Line := .raw erasedBytes

/-- The Flash Array: lines that do not read erased, keyed by bank × 128 + line, in the canonical form of `Store`. -/
abbrev Flash := List (Nat × Line)

/-! ## Tables (chapters 3, 6 and 8) -/

/-- A bank and the line of a record's header in it. -/
structure Location where
  bank : BankId
  line : Nat
deriving DecidableEq, Repr

/-- The eight bank states (section 1.5). -/
inductive BankState where | blank | free | active | full | reclaiming | retired | erasing | bad
deriving DecidableEq, Repr

/-- A Bank Table entry (R57). -/
structure BankEntry where
  state : BankState
  epoch : Option Nat
  eraseCount : Option Nat
  used : Nat
  dead : Nat
  tagged : Nat
  suspect : Bool
deriving DecidableEq, Repr

/-- The entry every bank holds while the store is MOUNTING (R64). -/
def BankEntry.initial : BankEntry :=
  { state := .blank, epoch := none, eraseCount := none, used := 0, dead := 0, tagged := 0, suspect := false }

/-- The states of a Directory entry or member entry (R46, R109). -/
inductive EntryState where | live | tombstone | damaged
deriving DecidableEq, Repr

/-- A Directory entry (R45). -/
structure DirEntry where
  key : Key
  cls : RecClass
  state : EntryState
  loc : Option Location
  length : Nat
  seq : Nat
  base : Nat
  stale : Nat
  copies : Nat
deriving DecidableEq, Repr

/-- A member entry of the open group (R109). -/
structure MemberEntry where
  key : Key
  cls : RecClass
  state : EntryState
  length : Nat
  seq : Nat
  loc : Option Location
  staleIncrement : Nat
deriving DecidableEq, Repr

/-- The states of a group context (R109). -/
inductive GroupState where | opened | committing
deriving DecidableEq, Repr

/-- The group context (R109). `records` lists where the records the group still needs lie; its length is the
tagged-records count (DEDUCED, log entry 11). `endsWithMember` is the model's mark that the group ends when its executing member
command ends (R121, R122). -/
structure GroupContext where
  id : Nat
  state : GroupState
  deadline : Option Nat
  members : List MemberEntry
  records : List Location
  endsWithMember : Bool
deriving DecidableEq, Repr

/-- A Commit Table entry (R125). -/
structure CommitEntry where
  gid : Nat
  loc : Location
  memberCount : Nat
  remaining : Nat
deriving DecidableEq, Repr

/-- The store states (R148). -/
inductive StoreState where | mounting | ready | degraded | blank | formatting
deriving DecidableEq, Repr

/-- The DEGRADED cause set (R149). -/
structure Causes where
  sequence : Bool := false
  epoch : Bool := false
  banks : Bool := false
  bankMap : Bool := false
  reclaim : Bool := false
  directory : Bool := false
  commit : Bool := false
deriving DecidableEq, Repr

/-- The protection levels (R169). -/
inductive LockLevel where | opened | closed | final
deriving DecidableEq, Repr

/-- The mount outcome register 0x0C (section 11.6). -/
inductive MountOutcome where | none | ready | degraded | blank
deriving DecidableEq, Repr

/-- Which engine opened the bank of the open-in-progress mark (R101). -/
inductive Opener where | command | reclaim
deriving DecidableEq, Repr

/-! ## Submission (chapter 4) -/

/-- The commands a descriptor's code can name (R65). -/
inductive CommandCode where
  | read | write | delete | add | list | openGroup | commitGroup | dropGroup | reclaim | format | raiseLock
deriving DecidableEq, Repr

/-- The descriptor registers (R65). -/
structure Descriptor where
  code : Byte := 0
  tag : Byte := 0
  key : Key := 0
  buffer : Byte := 0
  offset : Byte := 0
  length : BitVec 16 := 0
  cls : Byte := 0
  argument : BitVec 32 := 0
deriving DecidableEq, Repr

/-- A queued command: the code its descriptor named and the snapshot taken at posting (section 4.2). -/
structure Posted where
  code : CommandCode
  desc : Descriptor
deriving DecidableEq, Repr

/-- The status codes (section 4.5). -/
inductive Status where
  | ok | notFound | badCommand | badKey | badLength | badClass | badArgument | bufferBusy | notFormatted | readOnly | locked
  | frozen | classDenied | counterLimit | directoryFull | noSpace | corrupt | flashFault | noGroup | groupOpen | groupFull
  | groupTableFull | powerAbort
deriving DecidableEq, Repr

/-- A completion (section 4.5). -/
structure Completion where
  tag : Byte
  status : Status
  result : Nat
deriving DecidableEq, Repr

/-- The owner of a staging buffer (R73). -/
inductive Owner where | host | engine
deriving DecidableEq, Repr

/-- A staging buffer (section 4.3): its bytes as a canonical list of cells, an unlisted byte reading 0x00. -/
structure Buffer where
  bytes : List Host.Cell
  owner : Owner
  pointer : Byte
deriving DecidableEq, Repr

/-- A buffer after a reset (R71). -/
def Buffer.initial : Buffer := { bytes := [], owner := .host, pointer := 0 }

/-- The seven latched notification flags (R195). DONE follows the FIFO and is not held. -/
structure Flags where
  spaceLow : Bool := false
  mounted : Bool := false
  groupExpired : Bool := false
  powerWarn : Bool := false
  powerOk : Bool := false
  degraded : Bool := false
  overrun : Bool := false
deriving DecidableEq, Repr

/-! ## The engines (chapters 4, 5, 7 and 8) -/

/-- A record as an engine assembles it: its header fields but the sequence, and its payload (R92, R140). -/
structure RecordSpec where
  key : Key
  kind : Kind
  cls : RecClass
  payload : List Byte
  gid : Option Nat
deriving DecidableEq, Repr

/-- A reserved span: its bank, header line and sequence, and the line of the record whose program is requested (R37, R99). -/
structure Reservation where
  bank : BankId
  line : Nat
  seq : Nat
  at_ : Nat
deriving DecidableEq, Repr

/-- How far an appender is with its record. -/
inductive WriterStage where
  /-- Waiting for another engine's open (R104 case 2, R141 case 2). -/
  | waitOpen
  /-- Its own open line program is requested or in progress, with this epoch (R102). -/
  | opening (bank : BankId) (epoch : Nat)
  /-- WAITING_SPACE (R78). -/
  | waitSpace
  /-- The span is reserved and its lines are being programmed (R99). -/
  | programming (r : Reservation)
deriving DecidableEq, Repr

/-- An appender's record: what it is, the sequence a copy carries (none: a new one at each reservation), whether a first
program fault has occurred (R106, R145), and its stage. -/
structure Writer where
  record : RecordSpec
  fixedSeq : Option Nat
  faulted : Bool
  stage : WriterStage
deriving DecidableEq, Repr

/-- What the Command Engine takes with a command beside its snapshot, at the moment it takes it: WRITE's payload (R73), and the configured
group timeout for OPEN_GROUP (R110). -/
structure Taken where
  payload : List Byte
  timeout : Nat
deriving DecidableEq, Repr

/-- What the executing command is doing. -/
inductive Stage where
  /-- Taken, its own checks and its step still to come: no command rests here between steps, but an entry to WARNING may find one here (R74,
  R182, R184; log entry 40). -/
  | checking (t : Taken)
  /-- Its multi-line read of a record is requested or in progress (R89, R95). -/
  | reading (loc : Location)
  /-- It places or programs a record (section 5.7). -/
  | writing (w : Writer)
  /-- RECLAIM: its request is held by the Reclaim Engine (R136). -/
  | reclaimHeld
  /-- RAISE_LOCK: waiting for a lock record repair to end (R171, check 3). -/
  | repairWait
  /-- FORMAT: waiting for the Reclaim Engine to stop (R161). -/
  | formatWait
  /-- FORMAT: erasing a bank; `again` after its first failed attempt (R163, R164). -/
  | formatErase (bank : BankId) (again : Bool)
  /-- FORMAT: programming a bank's header with this erase count (R163, R164). -/
  | formatHeader (bank : BankId) (again : Bool) (eraseCount : Nat)
deriving DecidableEq, Repr

/-- FORMAT's progress: what R167 may have to restore, whether an erase or header program was granted, whether the commit
point was reached (R163), and the banks still to erase (R164). -/
structure FormatProgress where
  prior : StoreState
  priorCauses : Causes
  granted : Bool
  committed : Bool
  todo : List BankId
deriving DecidableEq, Repr

/-- The command the Command Engine executes (section 4.4). -/
structure Executing where
  code : CommandCode
  desc : Descriptor
  detached : Bool
  member : Bool
  stage : Stage
  format : Option FormatProgress
deriving DecidableEq, Repr

/-- The Command Engine's state as the window shows it (section 4.4). -/
inductive CommandPhase where | idle | executing | waitingSpace
deriving DecidableEq, Repr

/-- How a walked record was judged (R29, R138); both valid rows are one. -/
inductive Verdict where | torn | damaged | valid | pending | orphan
deriving DecidableEq, Repr

/-- A record of the walk list (R127, R138). -/
structure WalkRecord where
  line : Nat
  header : Header
  verdict : Verdict
deriving DecidableEq, Repr

/-- The part of its work a victim has reached (R147). -/
inductive VictimPoint where | selecting | copying | retiring
deriving DecidableEq, Repr

/-- The victim and what the engine keeps with it (R127, R138): walk list, cursor, the plan's counts of lower-sequence valid
records by key and of tagged records by group, and whether it was chosen for a RECLAIM request (R136). `committedSince` is the model's
record of the groups that have committed since the plan (R123, R124), which a group that left no Commit Table entry (R116) needs. -/
structure Victim where
  bank : BankId
  point : VictimPoint
  walk : List WalkRecord
  cursor : Nat
  lower : List (Key × Nat)
  grouped : List (Nat × Nat)
  forRequest : Bool
  committedSince : List Nat
deriving DecidableEq, Repr

/-- Whose location the record being copied is (R142). -/
inductive CopyOwner where | directory | member | commitTable
deriving DecidableEq, Repr

/-- The copy in progress (R127): the original's line and header, its owner, and the copy's own record. -/
structure CopyJob where
  line : Nat
  header : Header
  owner : CopyOwner
  writer : Writer
deriving DecidableEq, Repr

/-- The halt cause (R127). -/
inductive HaltCause where | fault | format
deriving DecidableEq, Repr

/-- What the Reclaim Engine is doing. -/
inductive ReclaimJob where
  /-- Nothing requested: IDLE, or holding a victim's work after a power warning (R147). -/
  | idle
  /-- Erasing a bank (R131). -/
  | erase (bank : BankId)
  /-- Programming the header after an erase (R131). -/
  | eraseHeader (bank : BankId) (eraseCount : Nat)
  /-- Programming the header of a BLANK bank (R130). -/
  | blankHeader (bank : BankId) (eraseCount : Nat)
  /-- Programming a bank map record (R133). -/
  | bankMap (w : Writer)
  /-- Programming a lock record (R178). -/
  | lockRepair (w : Writer)
  /-- The plan read of the victim (R138). -/
  | planRead
  /-- Reading the record at the cursor to copy it (R140). -/
  | copyRead (owner : CopyOwner)
  /-- Placing or programming a copy (R141, R142). -/
  | copy (c : CopyJob)
  /-- Programming the victim's retire line (R143). -/
  | retire
  /-- HALTED (R146, R161). -/
  | halted (cause : HaltCause)
deriving DecidableEq, Repr

/-- The Reclaim Engine (R127). -/
structure Reclaim where
  job : ReclaimJob := .idle
  victim : Option Victim := none
  eraseList : List BankId := []
  attempt : Nat := 0
  request : Option Nat := none
  moved : List (Key × Nat) := []
  mapDue : Bool := false
  repairDue : Bool := false
deriving DecidableEq, Repr

/-- The Reclaim Engine's state as the window shows it (R127). -/
inductive ReclaimPhase where | idle | erasing | selecting | copying | retiring | halted
deriving DecidableEq, Repr

/-- What the census read of a bank: lines 0 to 2, and whether lines 1 to 127 all read erased (R151). -/
structure CensusRow where
  header : Line
  openLine : Line
  retire : Line
  restErased : Bool
deriving DecidableEq, Repr

/-- How the scan judged a record (R152). -/
inductive ScanVerdict where | torn | damaged | intact
deriving DecidableEq, Repr

/-- A record the scan found (R152). -/
structure ScanRecord where
  line : Nat
  header : Header
  verdict : ScanVerdict
  payload : List Byte
deriving DecidableEq, Repr

/-- A journal the scan read (R152). -/
structure ScanBank where
  bank : BankId
  epoch : Nat
  append : Nat
  records : List ScanRecord
deriving DecidableEq, Repr

/-- The Mount Unit between two steps (R150). The phases RESOLVE to HANDOFF make no flash request and run to their end
inside the step of the last read. -/
inductive MountUnit where
  | idle
  /-- CENSUS: reading lines 0 to 2 of bank number `rows.length` (R151). -/
  | census (rows : List CensusRow)
  /-- CENSUS: reading lines 3 to 127 of that bank, its header line having read erased (R151). -/
  | censusRest (rows : List CensusRow) (row : CensusRow)
  /-- SCAN: reading the journal of the first bank of `todo` (R152). -/
  | scan (rows : List CensusRow) (todo : List (BankId × Nat)) (done : List ScanBank)
deriving DecidableEq, Repr

/-! ## The Flash Controller (chapter 1) -/

/-- The three requesters (R13). -/
inductive Requester where | command | reclaim | mount
deriving DecidableEq, Repr

/-- A request for a flash operation (R7, R8, R9). -/
inductive Request where
  | read (bank : BankId) (first count : Nat)
  | program (bank : BankId) (line : Nat) (data : Line)
  | erase (bank : BankId)
deriving DecidableEq, Repr

/-- The erase in progress (section 1.3). -/
structure EraseOp where
  requester : Requester
  bank : BankId
  suspended : Bool
  count : Nat
deriving DecidableEq, Repr

/-- The Flash Controller (section 1.4). `op` is a read or program in progress, alone or beside an erase (R10, R11). `decided` is
what R11 decided for the Command Engine's waiting program when it met the RUNNING erase: whether it may suspend it. -/
structure FlashController where
  op : Option (Requester × Request) := none
  erase : Option EraseOp := none
  waitCommand : Option Request := none
  waitReclaim : Option Request := none
  waitMount : Option Request := none
  decided : Option Bool := none
  fairness : Nat := 0
deriving DecidableEq, Repr

/-! ## The blocks behind the window -/

/-- Every block but the array, the port, the registers the host alone writes, and the Power Monitor. -/
structure Device where
  queue : List Posted
  fifo : List Completion
  buffers : Vector Buffer 4
  flags : Flags
  ex : Option Executing
  dir : List DirEntry
  level : LockLevel
  banks : Vector BankEntry 32
  openMark : Option (BankId × Opener)
  nextSeq : Nat
  nextEpoch : Nat
  store : StoreState
  generation : Option Nat
  causes : Causes
  mountOutcome : MountOutcome
  banksHanded : Nat
  group : Option GroupContext
  commits : List CommitEntry
  reclaim : Reclaim
  fc : FlashController
  mount : MountUnit
deriving DecidableEq, Repr

/-- The blocks at their power-on values, before mount requests its first read (R20, R36, R56, R64, R83, R109, R125, R127). -/
def Device.initial : Device :=
  { queue := [], fifo := [], buffers := Vector.replicate 4 Buffer.initial, flags := {}, ex := none, dir := [],
    level := .opened, banks := Vector.replicate 32 BankEntry.initial, openMark := none, nextSeq := 1, nextEpoch := 1,
    store := .mounting, generation := none, causes := {}, mountOutcome := .none, banksHanded := 0, group := none,
    commits := [], reclaim := {}, fc := {}, mount := .idle }

/-! ## The serial port, the configuration and the Power Monitor (chapters 10 and 11) -/

/-- The frame states (R189). -/
inductive FrameState where | header1 | header2 (write : Bool) | reading | writing | ignoring
deriving DecidableEq, Repr

/-- The Serial Port (R188, R189). `frame` is none while CS# is HIGH. `sent` is the model's record of the bytes driven on SDO in the
current frame, or in the last one while CS# is HIGH (log entry 5). -/
structure Port where
  frame : Option FrameState := none
  pointer : Addr := 0
  idleHigh : Bool := false
  capture : Option (Addr × Byte) := none
  sent : List Byte := []
deriving DecidableEq, Repr

/-- The supply threshold selection (R179). -/
inductive SupplyThreshold where | disabled | v20 | v24 | v28
deriving DecidableEq, Repr

/-- The configuration registers and their holding bytes (R193, R194), at their defaults. -/
structure Configuration where
  startThreshold : Nat := 4
  wearGap : Nat := 1024
  wearGapHold : Byte := 0x04
  groupTimeout : Nat := 200
  groupTimeoutHold : Byte := 0x00
  suspendEnable : Bool := true
  supplyThreshold : SupplyThreshold := .v24
deriving DecidableEq, Repr

/-- The recovery debounce (R179, R180). -/
inductive Debounce where | idle | pending | armed
deriving DecidableEq, Repr

/-- The Power Monitor and the levels of its two sources (R179). -/
structure Power where
  warning : Bool := false
  debounce : Debounce := .idle
  pfwLow : Bool := false
  vdd : Nat := 3300
deriving DecidableEq, Repr

/-- The ZJ-6432, and the commands waiting to reach it. -/
structure State where
  pending : List Instr
  flash : Flash
  port : Port
  desc : Descriptor
  select : Fin 4
  mask : Byte
  cfg : Configuration
  power : Power
  dev : Device
  /-- The RST# pin has been LOW for 1 µs (R198). -/
  rstLow : Bool := false
deriving DecidableEq, Repr

/-- Why a command stops the machine. No command of this block does: the type has no constructor, and that is safe, since every
failing the manual names is a status, a flag, a DEGRADED cause or a flash outcome. -/
inductive Fault
deriving DecidableEq, Repr

/-- Why a command is refused. -/
inductive Refusal where
  /-- Raised by `exec` alone for a command without a meaning; safe. No arm of this model raises it. -/
  | notModelled (mnemonic : String)
deriving DecidableEq, Repr

/-- The machine right after power-on reset: every block at its reset value (R20, R36, R56, R64, R71, R83, R109, R125, R127, R169,
R179, R194, R195, R196) and the mount begun, its first census read granted (R150, R151; log entries 1, 2, 3). -/
def State.reset : State :=
  { pending := [], flash := [], port := {}, desc := {}, select := 0, mask := 0, cfg := {}, power := {}, rstLow := false,
    dev := { Device.initial with
      fc := { op := some (.mount, .read 0 0 3) }
      mount := .census [] } }

end Sys2Proof.Machine
end

