-- ==== Sys2Proof/Machine/Ops.lean ====
section
/-! DEFINITION. The shared operations over the two addressed memories (the Flash Array and the staging buffers), over byte
order, over the Bank Table, the Directory and the lists the engines keep. -/
namespace Sys2Proof.Machine
open Sys2Proof

/-! ## One sparse store for both memories -/

/-- The value at address `a`; an unlisted address reads `d`. -/
def Store.read {α : Type} (d : α) : List (Nat × α) → Nat → α
  | [], _ => d
  | (k, v) :: rest, a => if a = k then v else Store.read d rest a

/-- The list with `a` holding `v`, addresses rising. -/
def Store.put {α : Type} (a : Nat) (v : α) : List (Nat × α) → List (Nat × α)
  | [] => [(a, v)]
  | (k, w) :: rest =>
    if a < k then (a, v) :: (k, w) :: rest
    else if a = k then (a, v) :: rest
    else (k, w) :: Store.put a v rest

/-- The list without the addresses that `drop` names. -/
def Store.clear {α : Type} (drop : Nat → Bool) (m : List (Nat × α)) : List (Nat × α) :=
  m.filter fun c => !drop c.1

/-- A write: writing what an unlisted address reads removes the entry. -/
def Store.write {α : Type} [DecidableEq α] (d : α) (m : List (Nat × α)) (a : Nat) (v : α) : List (Nat × α) :=
  if v = d then Store.clear (fun k => k = a) m else Store.put a v m

/-- Writes one after another. -/
def Store.writeAll {α : Type} [DecidableEq α] (d : α) (m : List (Nat × α)) : List (Nat × α) → List (Nat × α)
  | [] => m
  | (a, v) :: rest => Store.writeAll d (Store.write d m a v) rest

/-- The canonical form: addresses strictly rising, and no entry equal to what an unlisted address reads. -/
def Store.wf {α : Type} [DecidableEq α] (d : α) : List (Nat × α) → Bool
  | [] => true
  | [(_, v)] => decide (v ≠ d)
  | (a, v) :: (b, w) :: rest => decide (v ≠ d) && decide (a < b) && Store.wf d ((b, w) :: rest)

/-! ## Byte order (00_scope.md, Conventions: most significant byte first) -/

/-- The `n` low bytes of `v`, most significant first. -/
def bytesOf : Nat → Nat → List Byte
  | 0, _ => []
  | n + 1, v => BitVec.ofNat 8 (v / 256 ^ n) :: bytesOf n v

/-- The unsigned number whose bytes, most significant first, are these. -/
def natOf (bytes : List Byte) : Nat := bytes.foldl (fun acc b => acc * 256 + b.toNat) 0

/-- The more significant byte of a two-byte value. -/
def highByte (n : Nat) : Byte := BitVec.ofNat 8 (n / 256)

/-- The less significant byte of a two-byte value. -/
def lowByte (n : Nat) : Byte := BitVec.ofNat 8 n

/-- The sixteen bytes of a line that holds `bytes`, padded with 0x00 (R27). -/
def lineOf (bytes : List Byte) : RawLine := ⟨⟨(bytes ++ List.replicate 16 0).take 16⟩, by simp⟩

/-! ## The Flash Array -/

/-- Whether a line reads erased (R1). -/
def Line.isErased (l : Line) : Bool := l = Line.erased

/-- The key of a line in the array. -/
def lineKey (b : BankId) (line : Nat) : Nat := b.val * 128 + line

/-- What a line of the array reads (R1, R2). -/
def Flash.line (f : Flash) (b : BankId) (line : Nat) : Line := Store.read Line.erased f (lineKey b line)

/-- The array after one line reads `v`. -/
def Flash.setLine (f : Flash) (b : BankId) (line : Nat) (v : Line) : Flash := Store.write Line.erased f (lineKey b line) v

/-- `count` lines from `first` on, in line order (R9). -/
def Flash.lines (f : Flash) (b : BankId) (first count : Nat) : List Line :=
  (List.range count).map fun i => f.line b (first + i)

/-- What one line of a bank reads after an erase. -/
def remainsAs (before : Line) : LineRemains → Line
  | .earlier => before
  | .other bytes => .raw bytes

/-- The array after an erase of bank `b` that left `remains`: an unlisted line reads erased (R1, R8, R16, R20). -/
def Flash.eraseBank (f : Flash) (b : BankId) (remains : EraseRemains) : Flash :=
  Store.writeAll Line.erased (Store.clear (fun k => k / 128 = b.val) f)
    (remains.map fun r => (lineKey b r.1.val, remainsAs (f.line b r.1.val) r.2))

/-- Whether an erase that left `remains` finds all 128 lines erased (R8). -/
def Flash.bankErased (f : Flash) (b : BankId) : Bool := (f.lines b 0 128).all Line.isErased

/-- What the target line reads after the program of `data` (R7): with every field as requested, another byte may differ. -/
def readsAs (data : Line) : LineRead → Line
  | .asIntended => data
  | .fieldsGood spare =>
    match data with
    | .raw bytes => .raw bytes
    | .bankHeader g c _ => .bankHeader g c spare
    | .openLine e _ => .openLine e spare
    | .retireLine c _ => .retireLine c spare
    | .recordHeader h _ => .recordHeader h spare
    | .commitLine q k _ => .commitLine q k spare
  | .checkWrong bytes =>
    match data with
    | .commitLine q _ spare => .commitLine q .disagrees spare
    | _ => .raw bytes
  | .other bytes => .raw bytes

/-- What the target line reads when a reset cuts the program of `data` short: a line reads with every field good only when it
reads as the complete line intended (R6, R20, R30). -/
def cutReadsAs (data : Line) : LineRead → Line
  | .fieldsGood _ => data
  | r => readsAs data r

/-! ## The Bank Table (section 3.4) -/

/-- The banks in ascending index. -/
def allBanks : List BankId := List.finRange 32

/-- The entry of a bank. -/
def Device.bank (d : Device) (b : BankId) : BankEntry := d.banks.get b

/-- The device with a bank's entry changed. -/
def Device.setBank (d : Device) (b : BankId) (e : BankEntry) : Device :=
  { d with banks := d.banks.set b.val e b.isLt }

/-- The banks in one state, ascending. -/
def Device.banksIn (d : Device) (st : BankState) : List BankId := allBanks.filter fun b => (d.bank b).state = st

/-- The FREE-bank count (R62). -/
def Device.freeCount (d : Device) : Nat := (d.banksIn .free).length

/-- The number of BAD banks (R132). -/
def Device.badCount (d : Device) : Nat := (d.banksIn .bad).length

/-- The usable banks, those that are not BAD (R133). -/
def Device.usable (d : Device) : List BankId := allBanks.filter fun b => (d.bank b).state ≠ .bad

/-- The dead-line total: the dead lines of the FULL banks (R62). -/
def Device.deadTotal (d : Device) : Nat := ((d.banksIn .full).map fun b => (d.bank b).dead).sum

/-- The ACTIVE bank, if any (R101). -/
def Device.activeBank (d : Device) : Option BankId := (d.banksIn .active).head?

/-- A bank that counts: of the current generation and not RETIRED, ERASING or BAD (00_scope.md, Conventions). -/
def BankEntry.opened (e : BankEntry) : Bool := e.state = .active || e.state = .full || e.state = .reclaiming

/-- The first element that no other is better than: ties go to the earlier one. -/
def pick {α : Type} (better : α → α → Bool) : List α → Option α
  | [] => none
  | x :: rest =>
    match pick better rest with
    | none => some x
    | some y => if better y x then some y else some x

/-- The erase count used to compare banks. -/
def BankEntry.wear (e : BankEntry) : Nat := e.eraseCount.getD 0

/-- The FREE bank with the lowest erase count, ties to the lowest index (R102, R141, R165). -/
def Device.freeToOpen (d : Device) : Option BankId :=
  pick (fun a b => (d.bank a).wear < (d.bank b).wear) (d.banksIn .free)

/-- The dead lines of a bank rise (R59). -/
def Device.addDead (d : Device) (b : BankId) (n : Nat) : Device :=
  d.setBank b { d.bank b with dead := (d.bank b).dead + n }

/-- An ACTIVE bank becomes FULL, its unused tail dead (R39, R59); any other bank is left as it is. -/
def Device.fillActive (d : Device) (b : BankId) : Device :=
  if (d.bank b).state = .active then
    d.setBank b { d.bank b with state := .full, dead := (d.bank b).dead + (Config.journalLines - (d.bank b).used) }
  else d

/-- The suspect mark is set (R61). -/
def Device.markSuspect (d : Device) (b : BankId) : Device := d.setBank b { d.bank b with suspect := true }

/-- The erase count the next header of a bank carries (R63): its own plus one, or one above the highest known, or 1. -/
def Device.nextEraseCount (d : Device) (b : BankId) : Nat :=
  match (d.bank b).eraseCount with
  | some c => min (c + 1) Config.maxWord
  | none =>
    match (allBanks.filter fun x => x ≠ b).filterMap fun x => (d.bank x).eraseCount with
    | [] => 1
    | c :: cs => min (cs.foldl max c + 1) Config.maxWord

/-- A bank becomes FREE with its new erase count, its suspect mark clear (R61, R63, R131, R164). -/
def Device.makeFree (d : Device) (b : BankId) (count : Nat) : Device :=
  d.setBank b { state := .free, epoch := none, eraseCount := some count, used := 0, dead := 0, tagged := 0, suspect := false }

/-- A bank takes a state in which its counts are 0 (R57). -/
def Device.emptyInto (d : Device) (b : BankId) (st : BankState) : Device :=
  d.setBank b { d.bank b with state := st, used := 0, dead := 0, tagged := 0 }

/-! ## The Directory (section 3.1) -/

/-- The entry of a key. -/
def Device.entry (d : Device) (k : Key) : Option DirEntry := d.dir.find? fun e => e.key = k

/-- The Directory with an entry put in key order, in place of an entry of the same key (R44). -/
def dirPut (e : DirEntry) : List DirEntry → List DirEntry
  | [] => [e]
  | x :: rest =>
    if e.key < x.key then e :: x :: rest
    else if e.key = x.key then e :: rest
    else x :: dirPut e rest

/-- The device with an entry put. -/
def Device.putEntry (d : Device) (e : DirEntry) : Device := { d with dir := dirPut e d.dir }

/-- The device without the entry of a key. -/
def Device.removeEntry (d : Device) (k : Key) : Device := { d with dir := d.dir.filter fun e => e.key ≠ k }

/-- A user key (R24). -/
def isUserKey (k : Key) : Bool := 1 ≤ k.toNat && k.toNat ≤ 0xFEFF

/-- Lines of a record with this payload length (R22). -/
def spanOf (length : Nat) : Nat := 2 + (length + 15) / 16

/-! ## The group's members -/

/-- The member entry of a key in the open group, if any. -/
def Device.member (d : Device) (k : Key) : Option MemberEntry :=
  d.group.bind fun g => g.members.find? fun m => m.key = k

/-- The device with the group context changed, if there is one. -/
def Device.mapGroup (d : Device) (f : GroupContext → GroupContext) : Device := { d with group := d.group.map f }

/-- Member entries with the entry of a key changed. -/
def mapMember (k : Key) (f : MemberEntry → MemberEntry) (ms : List MemberEntry) : List MemberEntry :=
  ms.map fun m => if m.key = k then f m else m

/-- User slots in use: user entries, and members whose key has no entry (R47). -/
def Device.userSlots (d : Device) : Nat :=
  (d.dir.filter fun e => isUserKey e.key).length +
    match d.group with
    | none => 0
    | some g => (g.members.filter fun m => (d.entry m.key).isNone).length

/-! ## Short names for nested updates -/

/-- The device with the Reclaim Engine changed. -/
def Device.mapReclaim (d : Device) (f : Reclaim → Reclaim) : Device := { d with reclaim := f d.reclaim }

/-- The device with the Reclaim Engine's job set. -/
def Device.setJob (d : Device) (j : ReclaimJob) : Device := { d with reclaim := { d.reclaim with job := j } }

/-- The device with the victim changed, if there is one. -/
def Device.mapVictim (d : Device) (f : Victim → Victim) : Device :=
  { d with reclaim := { d.reclaim with victim := d.reclaim.victim.map f } }

/-- The device with the executing command's stage set, if there is one. -/
def Device.setStage (d : Device) (st : Stage) : Device := { d with ex := d.ex.map fun x => { x with stage := st } }

/-- The device with a flash request placed in its requester's waiting slot; the arbiter grants it in the same step when it
can (R13). -/
def Device.request (d : Device) (who : Requester) (r : Request) : Device :=
  match who with
  | .command => { d with fc := { d.fc with waitCommand := some r } }
  | .reclaim => { d with fc := { d.fc with waitReclaim := some r } }
  | .mount => { d with fc := { d.fc with waitMount := some r } }

end Sys2Proof.Machine
end

