-- ==== Sys2Proof/Machine/Flags.lean ====
section
/-! DEFINITION. The Notification Unit (section 11.4), the engine states and counts the window shows, and the bytes made of them. -/
namespace Sys2Proof.Machine
open Sys2Proof

/-- A byte of eight bits, bit 7 first. -/
def byteOfBits (b7 b6 b5 b4 b3 b2 b1 b0 : Bool) : Byte :=
  BitVec.ofNat 8 (128 * b7.toNat + 64 * b6.toNat + 32 * b5.toNat + 16 * b4.toNat + 8 * b3.toNat + 4 * b2.toNat + 2 * b1.toNat
    + b0.toNat)

/-- Whether the executing command counts against the credits: a detached one does not (R67, R85). -/
def Device.attached (d : Device) : Nat :=
  match d.ex with
  | some x => if x.detached then 0 else 1
  | none => 0

/-- The credit count (R67). -/
def Device.credits (d : Device) : Nat := Config.credits - (d.queue.length + d.attached + d.fifo.length)

/-- The Command Engine's state (section 4.4): WAITING_SPACE exactly while its span waits (R78). -/
def Device.commandPhase (d : Device) : CommandPhase :=
  match d.ex with
  | none => .idle
  | some x =>
    match x.stage with
    | .writing w =>
      match w.stage with
      | .waitSpace => .waitingSpace
      | _ => .executing
    | _ => .executing

/-- The urgent mark (R78): set on entry to WAITING_SPACE and cleared on leaving it. -/
def Device.urgent (d : Device) : Bool := d.commandPhase = .waitingSpace

/-- The state of a victim that no job works on (R147). -/
def VictimPoint.phase : VictimPoint → ReclaimPhase
  | .selecting => .selecting
  | .copying => .copying
  | .retiring => .retiring

/-- The Reclaim Engine's state (R127). -/
def Device.reclaimPhase (d : Device) : ReclaimPhase :=
  match d.reclaim.job with
  | .idle =>
    match d.reclaim.victim with
    | none => .idle
    | some v => v.point.phase
  | .erase _ => .erasing
  | .eraseHeader _ _ => .erasing
  | .blankHeader _ _ => .erasing
  | .bankMap _ => .erasing
  | .lockRepair _ => .erasing
  | .planRead => .selecting
  | .copyRead _ => .copying
  | .copy _ => .copying
  | .retire => .retiring
  | .halted _ => .halted

/-- The flags register (section 11.6): DONE follows the FIFO (R195). -/
def Device.flagsByte (d : Device) : Byte :=
  byteOfBits d.flags.overrun d.flags.degraded d.flags.powerOk d.flags.powerWarn d.flags.groupExpired d.flags.mounted
    d.flags.spaceLow (!d.fifo.isEmpty)

/-- The flags after a write to the flags register: each latched flag whose bit is 1 is cleared (R195). -/
def Flags.clear (f : Flags) (v : Byte) : Flags :=
  { spaceLow := f.spaceLow && !v.getLsbD 1
    mounted := f.mounted && !v.getLsbD 2
    groupExpired := f.groupExpired && !v.getLsbD 3
    powerWarn := f.powerWarn && !v.getLsbD 4
    powerOk := f.powerOk && !v.getLsbD 5
    degraded := f.degraded && !v.getLsbD 6
    overrun := f.overrun && !v.getLsbD 7 }

/-- Whether IRQ# is driven LOW: some set flag is enabled, and RST# is not LOW (R196). -/
def State.irqAsserted (s : State) : Bool := !s.rstLow && (s.dev.flagsByte &&& s.mask) ≠ 0

/-- The DEGRADED cause set register (section 11.6). -/
def Causes.byte (c : Causes) : Byte :=
  byteOfBits false c.commit c.directory c.reclaim c.bankMap c.banks c.epoch c.sequence

/-- Whether a cause is present (R149). -/
def Causes.any (c : Causes) : Bool :=
  c.sequence || c.epoch || c.banks || c.bankMap || c.reclaim || c.directory || c.commit

/-- The causes of two sets together (R167). -/
def Causes.union (a b : Causes) : Causes :=
  { sequence := a.sequence || b.sequence, epoch := a.epoch || b.epoch, banks := a.banks || b.banks,
    bankMap := a.bankMap || b.bankMap, reclaim := a.reclaim || b.reclaim, directory := a.directory || b.directory,
    commit := a.commit || b.commit }

/-- Store state codes (section 11.6). -/
def StoreState.code : StoreState → Nat
  | .mounting => 0
  | .ready => 1
  | .degraded => 2
  | .blank => 3
  | .formatting => 4

/-- The status summary byte (R190, section 11.6). -/
def State.summary (s : State) : Byte :=
  byteOfBits s.irqAsserted (!s.dev.fifo.isEmpty) s.power.warning (s.dev.commandPhase = .waitingSpace) false false false false
    ||| BitVec.ofNat 8 s.dev.store.code

/-- The value that a falling FREE-bank count sets SPACE_LOW at (R62): a fall from 3 to 2 by an opening. -/
def Device.noteOpening (d : Device) (freeBefore : Nat) : Device :=
  if freeBefore = 3 then { d with flags := { d.flags with spaceLow := true } } else d

end Sys2Proof.Machine
end

