-- ==== Sys2Proof/Machine/Operands.lean ====
section
/-! DEFINITION. The host-visible layouts of section 11.6: descriptor codes and bytes, classes, status codes, LIST entries, and
what a read of each window address returns. -/
namespace Sys2Proof.Machine
open Sys2Proof

/-- The command a code names (section 11.6, Descriptor). -/
def CommandCode.ofByte (b : Byte) : Option CommandCode :=
  match b.toNat with
  | 0x01 => some .read
  | 0x02 => some .write
  | 0x03 => some .delete
  | 0x04 => some .add
  | 0x05 => some .list
  | 0x06 => some .openGroup
  | 0x07 => some .commitGroup
  | 0x08 => some .dropGroup
  | 0x09 => some .reclaim
  | 0x0A => some .format
  | 0x0B => some .raiseLock
  | _ => none

/-- The codes that read the buffer field (R66). -/
def CommandCode.namesBuffer : CommandCode → Bool
  | .read => true
  | .write => true
  | .add => true
  | .list => true
  | _ => false

/-- The commands that a DEGRADED store refuses (R74, check 3). -/
def CommandCode.readOnlyRefused : CommandCode → Bool
  | .write => true
  | .delete => true
  | .add => true
  | .openGroup => true
  | .commitGroup => true
  | .raiseLock => true
  | _ => false

/-- The member commands while a group is OPEN (R111). -/
def CommandCode.joinsGroup : CommandCode → Bool
  | .write => true
  | .delete => true
  | .add => true
  | _ => false

/-- The number of a class (section 11.6). -/
def RecClass.number : RecClass → Nat
  | .plain => 1
  | .once => 2
  | .counter => 3
  | .hidden => 4

/-- What the class field names (section 11.6): a class, ANY, or nothing. -/
inductive ClassField where | named (c : RecClass) | any | nothing
deriving DecidableEq, Repr

/-- The reading of the class field (section 11.6). -/
def classField (b : Byte) : ClassField :=
  match b.toNat with
  | 0x01 => .named .plain
  | 0x02 => .named .once
  | 0x03 => .named .counter
  | 0x04 => .named .hidden
  | 0x0F => .any
  | _ => .nothing

/-- Status values (section 11.6). -/
def Status.value : Status → Nat
  | .ok => 0x00
  | .notFound => 0x01
  | .badCommand => 0x02
  | .badKey => 0x03
  | .badLength => 0x04
  | .badClass => 0x05
  | .badArgument => 0x06
  | .bufferBusy => 0x07
  | .notFormatted => 0x08
  | .readOnly => 0x09
  | .locked => 0x0A
  | .frozen => 0x0B
  | .classDenied => 0x0C
  | .counterLimit => 0x0D
  | .directoryFull => 0x0E
  | .noSpace => 0x0F
  | .corrupt => 0x10
  | .flashFault => 0x11
  | .noGroup => 0x12
  | .groupOpen => 0x13
  | .groupFull => 0x14
  | .groupTableFull => 0x15
  | .powerAbort => 0x16

/-- `v` with byte `i` (from the most significant, of `n`) replaced. -/
def replaceByte (n v i : Nat) (b : Byte) : Nat := natOf ((bytesOf n v).set i b)

/-- A descriptor byte stored at a window address (R65, R193, section 11.6); other addresses store nothing. -/
def Descriptor.store (d : Descriptor) (addr : Addr) (v : Byte) : Descriptor :=
  match addr.toNat with
  | 0x20 => { d with code := v }
  | 0x21 => { d with tag := v }
  | 0x22 => { d with key := BitVec.ofNat 16 (replaceByte 2 d.key.toNat 0 v) }
  | 0x23 => { d with key := BitVec.ofNat 16 (replaceByte 2 d.key.toNat 1 v) }
  | 0x24 => { d with buffer := v }
  | 0x25 => { d with offset := v }
  | 0x26 => { d with length := BitVec.ofNat 16 (replaceByte 2 d.length.toNat 0 v) }
  | 0x27 => { d with length := BitVec.ofNat 16 (replaceByte 2 d.length.toNat 1 v) }
  | 0x28 => { d with cls := v }
  | 0x29 => { d with argument := BitVec.ofNat 32 (replaceByte 4 d.argument.toNat 0 v) }
  | 0x2A => { d with argument := BitVec.ofNat 32 (replaceByte 4 d.argument.toNat 1 v) }
  | 0x2B => { d with argument := BitVec.ofNat 32 (replaceByte 4 d.argument.toNat 2 v) }
  | 0x2C => { d with argument := BitVec.ofNat 32 (replaceByte 4 d.argument.toNat 3 v) }
  | _ => d

/-- The thirteen descriptor bytes, address 0x20 first (section 11.6). -/
def Descriptor.bytes (d : Descriptor) : List Byte :=
  [d.code, d.tag] ++ bytesOf 2 d.key.toNat ++ [d.buffer, d.offset] ++ bytesOf 2 d.length.toNat ++ [d.cls]
    ++ bytesOf 4 d.argument.toNat

/-- A staging buffer. -/
def Device.buffer (d : Device) (i : Fin 4) : Buffer := d.buffers.get i

/-- The device with a staging buffer changed. -/
def Device.setBuffer (d : Device) (i : Fin 4) (b : Buffer) : Device := { d with buffers := d.buffers.set i.val b i.isLt }

/-- The byte of a buffer at an index. -/
def Buffer.byte (b : Buffer) (i : Nat) : Byte := Store.read 0 b.bytes i

/-- The first `n` bytes of a buffer. -/
def Buffer.prefixBytes (b : Buffer) (n : Nat) : List Byte := (List.range n).map b.byte

/-- The cells of bytes from address `a` on. -/
def cellsFrom : Nat → List Byte → List Host.Cell
  | _, [] => []
  | a, v :: rest => (a, v) :: cellsFrom (a + 1) rest

/-- The buffer with bytes stored from byte 0 on (R73). -/
def Buffer.fill (b : Buffer) (bytes : List Byte) : Buffer := { b with bytes := Store.writeAll 0 b.bytes (cellsFrom 0 bytes) }

/-- The buffer a buffer field names, if it names one (R65). -/
def bufferIndex (field : Byte) : Option (Fin 4) := if h : field.toNat < 4 then some ⟨field.toNat, h⟩ else none

/-- A LIST entry of 16 bytes (R97, section 11.6): the length of a HIDDEN key reads 0 at CLOSED and FINAL. -/
def listEntry (level : LockLevel) (e : DirEntry) : List Byte :=
  bytesOf 2 e.key.toNat
    ++ [BitVec.ofNat 8 e.cls.number, if e.state = .live then 0x01 else 0x03]
    ++ bytesOf 2 (if e.cls = .hidden ∧ level ≠ .opened then 0 else e.length)
    ++ bytesOf 4 e.seq ++ List.replicate 6 0

/-- The number a two-byte result shows in the completion head. -/
def Completion.headBytes (c : Completion) : List Byte :=
  [c.tag, BitVec.ofNat 8 c.status.value] ++ bytesOf 2 c.result

/-- The four completion head registers: 0xFF in every byte while the FIFO is empty (R80). -/
def Device.head (d : Device) : List Byte :=
  match d.fifo with
  | [] => [0xFF, 0xFF, 0xFF, 0xFF]
  | c :: _ => c.headBytes

/-- The mount outcome register (section 11.6). -/
def MountOutcome.number : MountOutcome → Nat
  | .none => 0
  | .ready => 1
  | .degraded => 2
  | .blank => 3

/-- The group status register (section 11.6). -/
def Device.groupStatus (d : Device) : Byte :=
  BitVec.ofNat 8 (16 * (match d.group with
    | none => 0
    | some g => match g.state with
      | .opened => 1
      | .committing => 2) + d.commits.length)

/-- The number of the Command Engine's state (section 11.6). -/
def CommandPhase.number : CommandPhase → Nat
  | .idle => 0
  | .executing => 1
  | .waitingSpace => 2

/-- The number of the Reclaim Engine's state (section 11.6). -/
def ReclaimPhase.number : ReclaimPhase → Nat
  | .idle => 0
  | .erasing => 1
  | .selecting => 2
  | .copying => 3
  | .retiring => 4
  | .halted => 5

/-- The number of a protection level in the window (section 11.6). -/
def LockLevel.code : LockLevel → Nat
  | .opened => 0
  | .closed => 1
  | .final => 2

/-- The supply threshold setting's number (R194). -/
def SupplyThreshold.number : SupplyThreshold → Nat
  | .disabled => 0
  | .v20 => 1
  | .v24 => 2
  | .v28 => 3

/-- The supply threshold a number selects, if it is in range (R194). -/
def SupplyThreshold.ofNumber : Nat → Option SupplyThreshold
  | 0 => some .disabled
  | 1 => some .v20
  | 2 => some .v24
  | 3 => some .v28
  | _ => none

/-- Whether the comparator finds this supply below the threshold (R179). -/
def SupplyThreshold.asserts (t : SupplyThreshold) (millivolts : Nat) : Bool :=
  match t with
  | .disabled => false
  | .v20 => millivolts < 2000
  | .v24 => millivolts < 2400
  | .v28 => millivolts < 2800

/-- Whether the power warning is asserted (R179). -/
def powerAsserted (cfg : Configuration) (p : Power) : Bool := p.pfwLow || cfg.supplyThreshold.asserts p.vdd

/-- What a read of a window address returns, but for the buffer data port (R191, section 11.6): actions and unlisted
addresses read 0x00. -/
def State.register (s : State) (addr : Addr) : Byte :=
  match addr.toNat with
  | 0x00 => Config.partCode
  | 0x01 => Config.revision
  | 0x02 => BitVec.ofNat 8 s.dev.store.code
  | 0x03 => BitVec.ofNat 8 s.dev.level.code
  | 0x04 => BitVec.ofNat 8 s.power.warning.toNat
  | 0x05 => BitVec.ofNat 8 s.dev.credits
  | 0x06 => BitVec.ofNat 8 s.dev.freeCount
  | 0x07 => BitVec.ofNat 8 s.dev.badCount
  | 0x08 => highByte s.dev.dir.length
  | 0x09 => lowByte s.dev.dir.length
  | 0x0A => highByte s.dev.deadTotal
  | 0x0B => lowByte s.dev.deadTotal
  | 0x0C => BitVec.ofNat 8 s.dev.mountOutcome.number
  | 0x0D => BitVec.ofNat 8 s.dev.banksHanded
  | 0x0E => s.dev.causes.byte
  | 0x0F => s.dev.groupStatus
  | 0x10 => s.dev.head.getD 0 0xFF
  | 0x11 => s.dev.head.getD 1 0xFF
  | 0x12 => s.dev.head.getD 2 0xFF
  | 0x13 => s.dev.head.getD 3 0xFF
  | 0x14 => BitVec.ofNat 8 s.dev.fifo.length
  | 0x15 => BitVec.ofNat 8 s.dev.queue.length
  | 0x16 => BitVec.ofNat 8 s.dev.commandPhase.number
  | 0x17 => BitVec.ofNat 8 s.dev.reclaimPhase.number
  | 0x31 => BitVec.ofNat 8 s.select.val
  | 0x32 => (s.dev.buffer s.select).pointer
  | 0x40 => BitVec.ofNat 8 s.cfg.startThreshold
  | 0x41 => highByte s.cfg.wearGap
  | 0x42 => lowByte s.cfg.wearGap
  | 0x43 => highByte s.cfg.groupTimeout
  | 0x44 => lowByte s.cfg.groupTimeout
  | 0x45 => BitVec.ofNat 8 s.cfg.suspendEnable.toNat
  | 0x46 => BitVec.ofNat 8 s.cfg.supplyThreshold.number
  | 0x50 => s.dev.flagsByte
  | 0x51 => s.mask
  | n => if 0x20 ≤ n ∧ n ≤ 0x2C then s.desc.bytes.getD (n - 0x20) 0 else 0

end Sys2Proof.Machine
end

