-- ==== Sys2Proof/Machine/Records.lean ====
section
/-! DEFINITION. Records and the journal (chapter 2): the lines of a record, the tests that make a line a header and a commit line
match it, the parse of a journal, and the payloads of the system records. -/
namespace Sys2Proof.Machine
open Sys2Proof

/-! ## The lines of a record -/

/-- Payload lines of a payload of this length (R27). -/
def payloadLines (length : Nat) : Nat := (length + 15) / 16

/-- The payload's `i`-th line, its positions beyond the payload 0x00 (R27). -/
def payloadLine (payload : List Byte) (i : Nat) : RawLine := lineOf (payload.drop (16 * i))

/-- The header an assembled record carries with a sequence (R92). -/
def RecordSpec.header (r : RecordSpec) (seq : Nat) : Header :=
  { key := r.key, kind := r.kind, cls := r.cls, length := r.payload.length, seq := seq, gid := r.gid }

/-- Lines of an assembled record (R22). -/
def RecordSpec.span (r : RecordSpec) : Nat := spanOf r.payload.length

/-- The `i`-th line of a record: header, payload lines, commit line (R22, R27, R28). -/
def RecordSpec.line (r : RecordSpec) (seq i : Nat) : Line :=
  if i = 0 then .recordHeader (r.header seq) 0
  else if i + 1 < r.span then .raw (payloadLine r.payload (i - 1))
  else .commitLine seq (.over r.payload) 0

/-- Whether the `i`-th line is a full payload line of sixteen 0xFF bytes, which is not programmed (R27). -/
def RecordSpec.skips (r : RecordSpec) (i : Nat) : Bool :=
  0 < i && i + 1 < r.span && payloadLine r.payload (i - 1) = erasedBytes

/-- From line `i` on, the first line that is requested; `fuel` bounds the payload lines passed over. -/
def RecordSpec.nextLine (r : RecordSpec) : Nat → Nat → Nat
  | 0, i => i
  | fuel + 1, i => if r.skips i then r.nextLine fuel (i + 1) else i

/-- The line requested after line `i` (R99). -/
def RecordSpec.lineAfter (r : RecordSpec) (i : Nat) : Nat := r.nextLine (payloadLines r.payload.length) (i + 1)

/-! ## Headers -/

/-- Whether kind, key, class, length and group id form a row of the table of R25 (conditions 1 to 4 and 6 of R23). -/
def Header.formsRow (h : Header) : Bool :=
  match h.kind with
  | .data =>
    if isUserKey h.key then
      (match h.cls with
       | .counter => h.length = 8
       | _ => h.length ≤ Config.maxPayload) && h.gid.all fun g => g < h.seq
    else if h.key = Config.lockKey then h.cls = .plain && h.length = 1 && h.gid.isNone
    else h.key = Config.mapKey && h.cls = .plain && h.length ≤ Config.maxBad && h.gid.isNone
  | .tombstone =>
    isUserKey h.key && (h.cls = .plain || h.cls = .hidden) && h.length = 0 && h.gid.all fun g => g < h.seq
  | .commit => h.key = Config.commitKey && h.cls = .plain && h.length = 6 && h.gid.isNone

/-- Lines of the record a header announces (R22). -/
def Header.span (h : Header) : Nat := spanOf h.length

/-- Whether a header whose check matches passes as a header at this line (R23). -/
def Header.passesAt (h : Header) (line : Nat) : Bool :=
  h.formsRow && 1 ≤ h.seq && h.seq ≤ Config.counterLimit && line + h.span ≤ Config.linesPerBank

/-- The header that a line carries, if it passes as a header there (R23). -/
def Line.headerAt (l : Line) (line : Nat) : Option Header :=
  match l with
  | .recordHeader h _ => if h.passesAt line then some h else none
  | _ => none

/-! ## Validity -/

/-- The bytes of a payload line as read; a line held by fields has bytes the manual does not give (R6). -/
def Line.rawBytes : Line → Option (List Byte)
  | .raw bytes => some bytes.toList
  | _ => none

/-- The bytes of lines one after another. -/
def joinBytes : List Line → Option (List Byte)
  | [] => some []
  | l :: rest =>
    match l.rawBytes, joinBytes rest with
    | some a, some b => some (a ++ b)
    | _, _ => none

/-- The payload as read from a record's lines (R27). -/
def payloadRead (h : Header) (recordLines : List Line) : Option (List Byte) :=
  (joinBytes ((recordLines.drop 1).take (payloadLines h.length))).map fun bs => bs.take h.length

/-- The payload check a record's commit line carries, if the line matches the header (R28). -/
def commitCheck (h : Header) (recordLines : List Line) : Option PayloadCheck :=
  match recordLines[h.span - 1]? with
  | some (.commitLine q check _) => if q = h.seq then some check else none
  | _ => none

/-- Whether the payload check agrees with the payload as read (R6, R29 row 3). -/
def checkAgrees (check : PayloadCheck) (payload : Option (List Byte)) : Bool :=
  match check, payload with
  | .over bytes, some p => bytes = p
  | _, _ => false

/-- Whether bank indices are strictly ascending and lie in 0 to 31 (R42). -/
def ascendingBanks : List Byte → Bool
  | [] => true
  | [b] => b.toNat < 32
  | a :: b :: rest => a.toNat < b.toNat && ascendingBanks (b :: rest)

/-- The group id in the payload of a COMMIT record (R43). -/
def commitGid (payload : List Byte) : Nat := natOf (payload.take 4)

/-- The member count in the payload of a COMMIT record (R43). -/
def commitMembers (payload : List Byte) : Nat := natOf ((payload.drop 4).take 2)

/-- Whether a payload that passes its check has the form its key asks for (R31, R41, R42, R43). -/
def wellFormedPayload (h : Header) (payload : List Byte) : Bool :=
  if h.kind = .commit then commitGid payload < h.seq && commitMembers payload ≤ Config.groupKeys
  else if h.key = Config.lockKey then payload = [1] || payload = [2]
  else if h.key = Config.mapKey then ascendingBanks payload
  else true

/-- Rows 2 and 3 of R29, and R31 for ill-formed system payloads: torn, damaged or intact, with the payload as read. -/
def judge (h : Header) (recordLines : List Line) : ScanVerdict × List Byte :=
  let payload := payloadRead h recordLines
  match commitCheck h recordLines with
  | none => (.torn, payload.getD [])
  | some check =>
    if checkAgrees check payload && wellFormedPayload h (payload.getD []) then (.intact, payload.getD [])
    else (.damaged, payload.getD [])

/-! ## The journal parse (R40) -/

/-- What a parse finds: the append position and the records in line order. -/
structure Parsed where
  append : Nat
  records : List ScanRecord
deriving DecidableEq, Repr

/-- The parse from line `cursor`, whose line heads `rest`; `fuel` bounds the lines. -/
def parseFrom : Nat → Nat → List Line → Parsed
  | 0, cursor, _ => { append := cursor, records := [] }
  | _ + 1, cursor, [] => { append := cursor, records := [] }
  | fuel + 1, cursor, l :: rest =>
    if (l :: rest).all Line.isErased then { append := cursor, records := [] }
    else
      match l.headerAt cursor with
      | none => parseFrom fuel (cursor + 1) rest
      | some h =>
        let (verdict, payload) := judge h ((l :: rest).take h.span)
        let after := parseFrom fuel (cursor + h.span) ((l :: rest).drop h.span)
        { after with records := { line := cursor, header := h, verdict := verdict, payload := payload } :: after.records }

/-- The parse of lines 3 to 127 of a bank (R40). -/
def parseJournal (journal : List Line) : Parsed := parseFrom Config.journalLines Config.journalStart journal

/-! ## Records the device assembles -/

/-- The lock record that carries a level (R41, R172). -/
def lockRecord (level : Nat) : RecordSpec :=
  { key := Config.lockKey, kind := .data, cls := .plain, payload := [BitVec.ofNat 8 level], gid := none }

/-- The bank map record that lists these banks (R42). -/
def mapRecord (bad : List BankId) : RecordSpec :=
  { key := Config.mapKey, kind := .data, cls := .plain, payload := bad.map fun b => BitVec.ofNat 8 b.val, gid := none }

/-- The COMMIT record of a group (R43, R115). -/
def commitRecord (gid members : Nat) : RecordSpec :=
  { key := Config.commitKey, kind := .commit, cls := .plain, payload := bytesOf 4 gid ++ bytesOf 2 members, gid := none }

/-- The number of a protection level (R41, section 11.6). -/
def LockLevel.number : LockLevel → Nat
  | .opened => 0
  | .closed => 1
  | .final => 2

/-- The level of a number above 0 (R41, R171). -/
def LockLevel.ofNumber : Nat → LockLevel
  | 0 => .opened
  | 1 => .closed
  | _ => .final

/-- How the Command Engine judges the bytes of a faulted commit line (R108): mark, sequence and the check it computed. -/
def commitLineValid (r : RecordSpec) (seq : Nat) (read : Line) : Bool :=
  match read with
  | .commitLine q check _ => q = seq && checkAgrees check (some r.payload)
  | _ => false

end Sys2Proof.Machine
end

