-- ==== Sys2Proof/Machine/Tables.lean ====
section
/-! DEFINITION. What the engines do to the tables (chapters 3 and 6): a record's commit to the Directory, a copy's take-over, a
record found damaged, a member's commit, a group's commit and its end without commit, completions, and the DEGRADED causes. -/
namespace Sys2Proof.Machine
open Sys2Proof

/-- What the engines read of the blocks they never change: the configuration and the power condition. -/
structure Ctx where
  cfg : Configuration
  warning : Bool
deriving DecidableEq, Repr

/-! ## The Directory at a commit (R49, R51) -/

/-- A record whose commit changes a Directory entry. -/
structure Committed where
  key : Key
  cls : RecClass
  state : EntryState
  loc : Option Location
  length : Nat
  seq : Nat
  /-- Base sequence of an entry that this record creates (R49: its sequence; R51: the group id). -/
  newBase : Nat
  /-- The member's stale increment; 0 outside a group (R51). -/
  increment : Nat
deriving DecidableEq, Repr

/-- The record at an entry's location is superseded: its span becomes dead, unless it was counted dead when it was found
damaged (R49, R59). -/
def Device.supersede (d : Device) (e : DirEntry) : Device :=
  match e.state, e.loc with
  | .damaged, _ => d
  | _, some loc => d.addDead loc.bank (spanOf e.length)
  | _, none => d

/-- The entry a commit leaves (R49, R51). -/
def Committed.entry (c : Committed) (before : Option DirEntry) : DirEntry :=
  match before with
  | none =>
    { key := c.key, cls := c.cls, state := c.state, loc := c.loc, length := c.length, seq := c.seq, base := c.newBase,
      stale := c.increment, copies := 0 }
  | some e =>
    { e with
      state := c.state, loc := c.loc, length := c.length, seq := c.seq, copies := 0
      stale := e.stale + (if e.state = .damaged then 0 else 1) + e.copies + c.increment }

/-- A TOMBSTONE entry whose stale count is 0 is removed and its two lines become dead (R49). -/
def Device.dropSpentTombstone (d : Device) (k : Key) : Device :=
  match d.entry k with
  | some e =>
    if e.state = .tombstone ∧ e.stale = 0 then
      match e.loc with
      | some loc => (d.removeEntry k).addDead loc.bank 2
      | none => d.removeEntry k
    else d
  | none => d

/-- The Directory entry of a committed record's key is created or replaced (R49, R51). -/
def Device.commitEntry (d : Device) (c : Committed) : Device :=
  let before := d.entry c.key
  let d := match before with
    | some e => d.supersede e
    | none => d
  (d.putEntry (c.entry before)).dropSpentTombstone c.key

/-! ## Records found damaged (R52, R113) -/

/-- The Directory entry of a key becomes DAMAGED with its location kept, and its record's lines become dead, once (R52, R59)
(the location at the outcome: DEDUCED, log entry 13). -/
def Device.damageEntry (d : Device) (k : Key) : Device :=
  match d.entry k with
  | some e =>
    if e.state = .damaged then d
    else (d.putEntry { e with state := .damaged }).supersede e
  | none => d

/-- The walk list's record at a location is known damaged: it counts for nothing at the retire (R54, R55, R124, R125). -/
def Device.markWalkDamaged (d : Device) (loc : Location) : Device :=
  d.mapVictim fun v =>
    if v.bank = loc.bank then
      { v with walk := v.walk.map fun r => if r.line = loc.line then { r with verdict := .damaged } else r }
    else v

/-- The member entry of a key becomes DAMAGED with its location kept; the record read at `read` is no longer one the group
needs, nor one that a retire counts (R113, R124). Where a reclaim copy took over the location after the record at `read` was requested, the
span is added to the copy's bank and `read` still leaves the group's records; an entry found DAMAGED meanwhile is left as it is (DEDUCED, log
entry 42). -/
def Device.damageMember (d : Device) (k : Key) (read : Location) : Device :=
  match d.member k with
  | some m =>
    if m.state = .damaged then d
    else
      let d := d.markWalkDamaged read
      let d := d.mapGroup fun g =>
        { g with
          members := mapMember k (fun m => { m with state := .damaged }) g.members
          records := g.records.filter fun l => l ≠ read }
      match m.loc with
      | some loc => d.addDead loc.bank (spanOf m.length)
      | none => d
  | none => d

/-! ## Reclaim copies (R50, R123, R125) -/

/-- A copy of a Directory entry's record verifies (R50): it takes over the location, or it is stale. R50 compares with an entry; where
the key has none any more, the copy's span becomes dead and nothing else changes (DEDUCED, log entries 12, 14 and 28). -/
def Device.copyTakesOver (d : Device) (h : Header) (original copy : Location) : Device :=
  match d.entry h.key with
  | some e =>
    if e.loc = some original ∧ e.seq = h.seq then
      let d := d.putEntry { e with loc := some copy, copies := e.copies + 1 }
      if e.state = .damaged then d else d.addDead original.bank h.span
    else
      (d.putEntry { e with stale := e.stale + (if e.base ≤ h.seq then 1 else 0) }).addDead copy.bank h.span
  | none => d.addDead copy.bank h.span

/-- The Commit Table with the entry of a group changed. -/
def Device.mapCommit (d : Device) (gid : Nat) (f : CommitEntry → CommitEntry) : Device :=
  { d with commits := d.commits.map fun c => if c.gid = gid then f c else c }

/-- The tagged count of a bank rises (R60). -/
def Device.addTagged (d : Device) (b : BankId) (n : Nat) : Device :=
  d.setBank b { d.bank b with tagged := (d.bank b).tagged + n }

/-- Whether the Commit Table holds an entry of a group. -/
def Device.committed (d : Device) (gid : Nat) : Bool := d.commits.any fun c => c.gid = gid

/-- The id of the group context, if one is held. -/
def Device.openGid (d : Device) : Option Nat := d.group.map fun g => g.id

/-- Whether a group has committed since the victim was planned (R123, R124). -/
def Device.committedSince (d : Device) (gid : Nat) : Bool := d.reclaim.victim.any fun v => v.committedSince.contains gid

/-- A copy of a pending member record verifies (R123), by the group's state at that moment: open, committed since the walk
read the original, or ended without commit. A group that committed with a count of 0 has no Commit Table entry to count the copy in
(DEDUCED, log entry 14). -/
def Device.memberCopyVerifies (d : Device) (h : Header) (gid : Nat) (original copy : Location) : Device :=
  if d.openGid = some gid then
    match d.member h.key with
    | some m =>
      if m.loc = some original ∧ m.seq = h.seq then
        let d := d.mapGroup fun g =>
          { g with
            members := mapMember h.key (fun m => { m with loc := some copy }) g.members
            records := g.records ++ [copy] }
        let d := d.mapReclaim fun r => { r with moved := r.moved ++ [(h.key, h.seq)] }
        if m.state = .damaged then d else d.addDead original.bank h.span
      else
        (d.mapGroup fun g =>
          { g with
            members := mapMember h.key (fun m => { m with staleIncrement := m.staleIncrement + 1 }) g.members
            records := g.records ++ [copy] }).addDead copy.bank h.span
    | none => d.addDead copy.bank h.span
  else if d.committedSince gid then
    ((d.copyTakesOver h original copy).mapCommit gid fun c => { c with remaining := c.remaining + 1 }).addTagged copy.bank 1
  else d.addDead copy.bank h.span

/-- A copy of a Commit Table entry's COMMIT record verifies (R125). -/
def Device.commitCopyVerifies (d : Device) (original copy : Location) : Device :=
  if d.commits.any fun (c : CommitEntry) => c.loc = original then
    ({ d with commits := d.commits.map fun (c : CommitEntry) => if c.loc = original then { c with loc := copy } else c }).addDead
      original.bank 3
  else d.addDead copy.bank 3

/-! ## Groups (chapter 6) -/

/-- A member record commits into the member list (R112). -/
def Device.commitMember (d : Device) (c : Committed) (loc : Location) : Device :=
  let fresh : MemberEntry :=
    { key := c.key, cls := c.cls, state := c.state, length := c.length, seq := c.seq, loc := some loc, staleIncrement := 0 }
  match d.member c.key with
  | none => d.mapGroup fun g => { g with members := g.members ++ [fresh], records := g.records ++ [loc] }
  | some m =>
    let raise :=
      if m.state = .damaged then 0
      else if d.reclaim.moved.contains (m.key, m.seq) then 2 else 1
    let d := d.mapGroup fun g =>
      { g with
        members := mapMember c.key (fun _ => { fresh with staleIncrement := m.staleIncrement + raise }) g.members
        records := g.records ++ [loc] }
    match m.state, m.loc with
    | .damaged, _ => d
    | _, some old => d.addDead old.bank (spanOf m.length)
    | _, none => d

/-- A member entry is applied to the Directory at the group's commit (R51, R116 step 1). -/
def Device.applyMember (d : Device) (gid : Nat) (m : MemberEntry) : Device :=
  let d := d.commitEntry
    { key := m.key, cls := m.cls, state := m.state, loc := m.loc, length := m.length, seq := m.seq, newBase := gid,
      increment := m.staleIncrement }
  if d.reclaim.moved.contains (m.key, m.seq) then
    match d.entry m.key with
    | some e => d.putEntry { e with copies := e.copies + 1 }
    | none => d
  else d

/-- The open group commits (R116): members into the Directory, bank tagged counts, the Commit Table, the context removed; the victim
notes the commit (R123, R124).
`loc` is the COMMIT record's location and `members` the member count of its payload. -/
def Device.commitGroup (d : Device) (loc : Location) : Device :=
  match d.group with
  | none => d
  | some g =>
    let d := g.members.foldl (fun d m => d.applyMember g.id m) d
    let d := g.records.foldl (fun d l => d.addTagged l.bank 1) d
    let d :=
      if g.records.length ≥ 1 then
        { d with
          commits := d.commits ++
            [{ gid := g.id, loc := loc, memberCount := g.members.length, remaining := g.records.length }] }
      else d.addDead loc.bank 3
    { d with
      group := none
      reclaim := { d.reclaim with
        moved := []
        victim := d.reclaim.victim.map fun v => { v with committedSince := v.committedSince ++ [g.id] } } }

/-- The lines of a member's record become dead when its group ends without commit (R118 step 1), whatever the state of its bank: also in
one that FORMAT has made FREE or BAD meanwhile (DEDUCED, log entry 37). -/
def Device.orphanMember (d : Device) (m : MemberEntry) : Device :=
  match m.state, m.loc with
  | .damaged, _ => d
  | _, some loc => d.addDead loc.bank (spanOf m.length)
  | _, none => d

/-- The group ends without commit (R118). -/
def Device.endGroup (d : Device) : Device :=
  match d.group with
  | none => d
  | some g =>
    let d := g.members.foldl Device.orphanMember d
    { d with group := none, reclaim := { d.reclaim with moved := [] } }

/-- A group whose deadline reached 0 expires (R120): it ends and GROUP_EXPIRED is set. -/
def Device.expireGroup (d : Device) : Device :=
  let d := d.endGroup
  { d with flags := { d.flags with groupExpired := true } }

/-- What the end of a member command does to a group whose end waited for it (R120, R121, R122; DEDUCED, log entry 15). -/
def Device.memberEnded (d : Device) : Device :=
  match d.group with
  | none => d
  | some g =>
    if g.endsWithMember then d.endGroup
    else if g.deadline = some 0 then d.expireGroup
    else d

/-! ## Completions (section 4.5) -/

/-- The buffer a command named returns to HOST (R73, R79). -/
def Device.releaseBuffer (d : Device) (code : CommandCode) (field : Byte) : Device :=
  if code.namesBuffer then
    match bufferIndex field with
    | some i => d.setBuffer i { d.buffer i with owner := .host }
    | none => d
  else d

/-- A completion is placed at the tail of the FIFO (R79). -/
def Device.placeCompletion (d : Device) (tag : Byte) (status : Status) (result : Nat) : Device :=
  { d with fifo := d.fifo ++ [{ tag := tag, status := status, result := result }] }

/-- The engine's output into the buffer the executing command named; a detached command writes none (R73, R85). -/
def Device.output (d : Device) (bytes : List Byte) : Device :=
  match d.ex with
  | none => d
  | some x =>
    if x.detached then d
    else
      match bufferIndex x.desc.buffer with
      | some i => d.setBuffer i ((d.buffer i).fill bytes)
      | none => d

/-- The executing command ends (R74, R79, R85): a group it is still committing ends without commit (R117; a commit has removed the
context before), a group whose end waited for it ends, the completion is placed unless the command is detached, and the engine becomes IDLE. -/
def Device.endCommand (d : Device) (status : Status) (result : Nat) : Device :=
  match d.ex with
  | none => d
  | some x =>
    let d := { d with ex := none }
    let d :=
      match d.group with
      | some g => if x.code = .commitGroup ∧ g.state = .committing then d.endGroup else d
      | none => d
    let d := if x.member then d.memberEnded else d
    if x.detached then d
    else (d.releaseBuffer x.code x.desc.buffer).placeCompletion x.desc.tag status result

/-! ## DEGRADED causes (R149) -/

/-- The causes a running store can meet. -/
inductive Cause where | sequence | epoch | banks | bankMap | reclaim
deriving DecidableEq, Repr

/-- The set with a cause added (R149). -/
def Causes.add (c : Causes) : Cause → Causes
  | .sequence => { c with sequence := true }
  | .epoch => { c with epoch := true }
  | .banks => { c with banks := true }
  | .bankMap => { c with bankMap := true }
  | .reclaim => { c with reclaim := true }

/-- A cause arises (R149): a READY store becomes DEGRADED, which sets the flag and ends a command in WAITING_SPACE with
READ_ONLY (R78); in any other state the cause joins the set. -/
def Device.degrade (d : Device) (c : Cause) : Device :=
  let d := { d with causes := d.causes.add c }
  if d.store = .ready then
    let d := { d with store := .degraded, flags := { d.flags with degraded := true } }
    if d.commandPhase = .waitingSpace then d.endCommand .readOnly 0 else d
  else d

end Sys2Proof.Machine
end

