-- ==== Sys2Proof/Machine/Mount.lean ====
section
/-! DEFINITION. The Mount Unit (section 8.2): CENSUS and SCAN, one read at a time, and RESOLVE, BUILD, SYSTEM, ACTIVE and HANDOFF,
which make no request and follow the last read in its step. -/
namespace Sys2Proof.Machine
open Sys2Proof

/-- The bank of a number. -/
def bankOf (n : Nat) : BankId := Fin.ofNat 32 n

/-! ## The start of mount (R150) -/

/-- The tables at the start of mount (R150); the mount outcome reads 0 until the mount has ended (section 11.6); the cause set, the
flags and the number of banks handed over at the last mount are kept. -/
def Device.resetTables (d : Device) : Device :=
  { d with
    dir := [], level := .opened, banks := Vector.replicate 32 BankEntry.initial, openMark := none, nextSeq := 1, nextEpoch := 1,
    store := .mounting, generation := none, mountOutcome := .none, group := none, commits := [], reclaim := {}, mount := .idle }

/-- Mount begins: its tables are empty and the first census read is requested (R150, R151). -/
def Device.beginMount (d : Device) : Device := ({ d.resetTables with mount := .census [] }).request .mount (.read 0 0 3)

/-! ## Census (R19, R63, R151) -/

/-- The generation in a header line that passes its check. -/
def CensusRow.generation (r : CensusRow) : Option Nat :=
  match r.header with
  | .bankHeader g _ _ => some g
  | _ => none

/-- The current generation: the highest among the headers that pass their check (R19). -/
def currentGeneration (rows : List CensusRow) : Option Nat :=
  match rows.filterMap CensusRow.generation with
  | [] => none
  | g :: gs => some (gs.foldl max g)

/-- The classes of R19. -/
inductive CensusClass where | blank | retired | free | opened
deriving DecidableEq, Repr

/-- The class of a bank by the rows of R19, first that applies. -/
def CensusRow.classify (current : Option Nat) (r : CensusRow) : CensusClass :=
  match r.header with
  | .bankHeader g _ _ =>
    if !r.retire.isErased then .retired
    else if current ≠ some g then .retired
    else
      match r.openLine with
      | .openLine _ _ => .opened
      | l => if l.isErased then .free else .retired
  | l => if l.isErased && r.restErased then .blank else .retired

/-- The epoch of a bank of the current generation whose open line passes its check (R36, R151). -/
def CensusRow.epoch (current : Option Nat) (r : CensusRow) : Option Nat :=
  match r.openLine with
  | .openLine e _ => if r.generation.isSome ∧ r.generation = current then some e else none
  | _ => none

/-- The erase count that mount finds (R63). -/
def CensusRow.eraseCount (r : CensusRow) : Option Nat :=
  match r.header, r.retire with
  | .bankHeader _ c _, _ => some c
  | _, .retireLine c _ => some c
  | _, _ => none

/-- The census result of a bank. -/
def censusRow (rows : List CensusRow) (b : BankId) : CensusRow :=
  rows.getD b.val { header := Line.erased, openLine := Line.erased, retire := Line.erased, restErased := true }

/-- Banks with their epochs, put in ascending epoch order. -/
def putByEpoch (x : BankId × Nat) : List (BankId × Nat) → List (BankId × Nat)
  | [] => [x]
  | y :: rest => if x.2 < y.2 then x :: y :: rest else y :: putByEpoch x rest

/-- The banks whose journals are scanned, in ascending epoch order (R152). -/
def scanOrder (rows : List CensusRow) : List (BankId × Nat) :=
  (allBanks.filterMap fun b => ((censusRow rows b).epoch (currentGeneration rows)).map fun e => (b, e)).foldl
    (fun acc x => putByEpoch x acc) []

/-! ## What the scan found (R152, R153) -/

/-- A record that the scan found, with its place. -/
structure Found where
  loc : Location
  epoch : Nat
  header : Header
  verdict : ScanVerdict
  payload : List Byte
deriving DecidableEq, Repr

/-- Higher sequence, then the bank of higher epoch, then the higher line (R154, Selection). -/
def Found.newer (a b : Found) : Bool :=
  b.header.seq < a.header.seq ||
    (a.header.seq = b.header.seq && (b.epoch < a.epoch || (a.epoch = b.epoch && b.loc.line < a.loc.line)))

/-- The records of a scanned journal. -/
def ScanBank.found (s : ScanBank) : List Found :=
  s.records.map fun r =>
    { loc := { bank := s.bank, line := r.line }, epoch := s.epoch, header := r.header, verdict := r.verdict,
      payload := r.payload }

/-- The records found in these journals. -/
def foundIn (scans : List ScanBank) : List Found := (scans.map ScanBank.found).flatten

/-- The journals of opened banks (R151). -/
def openedScans (rows : List CensusRow) (scans : List ScanBank) : List ScanBank :=
  scans.filter fun s => (censusRow rows s.bank).classify (currentGeneration rows) = .opened

/-- The bank map record that is taken (R152): intact, in an opened bank, not in a bank its own list names. -/
def bankMapTaken (opened : List ScanBank) : Option Found :=
  pick Found.newer <| (foundIn opened).filter fun f =>
    f.verdict = .intact && f.header.key = Config.mapKey && !f.payload.contains (BitVec.ofNat 8 f.loc.bank.val)

/-- The banks a bank map record lists. -/
def banksListed : Option Found → List BankId
  | none => []
  | some f => f.payload.map fun b => bankOf b.toNat

/-- The committed group ids (R153). -/
def committedIds (counting : List Found) : List Nat :=
  (counting.filter fun f => f.verdict = .intact && f.header.kind = .commit).map fun f => commitGid f.payload

/-- Whether a record carries no group id, or a committed one (R153). -/
def Found.untaggedOrCommitted (ids : List Nat) (f : Found) : Bool :=
  match f.header.gid with
  | none => true
  | some g => ids.contains g

/-- The valid records among those found (R29 rows 4 and 5, R153). -/
def validFound (counting : List Found) : List Found :=
  counting.filter fun f => f.verdict = .intact && f.untaggedOrCommitted (committedIds counting)

/-! ## The Directory (R154) -/

/-- The least sequence of these records. -/
def leastSeq : List Found → Nat
  | [] => 0
  | [f] => f.header.seq
  | f :: rest => min f.header.seq (leastSeq rest)

/-- The base sequence of a key from its valid records (R154). -/
def mountBase (valid : List Found) : Nat :=
  if valid.any fun f => f.header.seq = leastSeq valid && f.header.kind = .tombstone then leastSeq valid + 1 else 1

/-- The entry built from a key's valid records, its selected record given; none for a tombstone with stale count 0 (R154). -/
def mountEntry (valid : List Found) (selected : Found) : Option DirEntry :=
  let h := selected.header
  let stale := (valid.filter fun f => mountBase valid ≤ f.header.seq && f.header.seq < h.seq).length
  if h.kind = .tombstone ∧ stale = 0 then none
  else some
    { key := h.key, cls := h.cls, state := if h.kind = .tombstone then .tombstone else .live, loc := some selected.loc,
      length := h.length, seq := h.seq, base := mountBase valid, stale := stale,
      copies := (valid.filter fun f => f.header.seq = h.seq).length - 1 }

/-- The DAMAGED entry of a user key without a valid record (R154); of several damaged records of the highest sequence, the one that the
Selection of R154 takes among valid ones (DEDUCED, log entry 38). -/
def mountDamaged (counting : List Found) (k : Key) : Option DirEntry :=
  if isUserKey k then
    (pick Found.newer <| counting.filter fun f =>
        f.header.key = k && f.verdict = .damaged && f.untaggedOrCommitted (committedIds counting)).map fun f =>
      { key := k, cls := f.header.cls, state := .damaged, loc := some f.loc, length := f.header.length, seq := f.header.seq,
        base := f.header.seq, stale := 0, copies := 0 }
  else none

/-- The entry of a key, if it takes one (R154). -/
def mountKey (counting : List Found) (k : Key) : Option DirEntry :=
  let valid := (validFound counting).filter fun f => f.header.key = k
  match pick Found.newer valid with
  | some selected => mountEntry valid selected
  | none => mountDamaged counting k

/-- Keys in ascending order, each once. -/
def putKey (k : Key) : List Key → List Key
  | [] => [k]
  | x :: rest => if k < x then k :: x :: rest else if k = x then x :: rest else x :: putKey k rest

/-- The keys that may take a Directory entry (R44, R154). -/
def mountKeys (counting : List Found) : List Key :=
  (counting.filter fun f => f.header.kind ≠ .commit).foldl (fun acc f => putKey f.header.key acc) []

/-- Every entry that the records call for, ascending (R154). -/
def mountEntries (counting : List Found) : List DirEntry := (mountKeys counting).filterMap (mountKey counting)

/-- The entries loaded, in their order: every system entry, and the first `slots` user entries (R154). -/
def loadedEntries : Nat → List DirEntry → List DirEntry
  | _, [] => []
  | 0, e :: rest => if isUserKey e.key then loadedEntries 0 rest else e :: loadedEntries 0 rest
  | slots + 1, e :: rest => if isUserKey e.key then e :: loadedEntries slots rest else e :: loadedEntries (slots + 1) rest

/-- Whether user entries are left out (R154). -/
def directoryOverflows (entries : List DirEntry) : Bool := Config.userSlots < (entries.filter fun e => isUserKey e.key).length

/-! ## The Commit Table (R155) -/

/-- Numbers in ascending order, each once. -/
def putNat (n : Nat) : List Nat → List Nat
  | [] => [n]
  | x :: rest => if n < x then n :: x :: rest else if n = x then x :: rest else x :: putNat n rest

/-- The entry of a committed group, if at least one valid record carries its id (R155). -/
def mountCommit (counting : List Found) (gid : Nat) : Option CommitEntry :=
  let remaining := ((validFound counting).filter fun f => f.header.gid = some gid).length
  if remaining = 0 then none
  else
    (pick Found.newer <| (validFound counting).filter fun f => f.header.kind = .commit && commitGid f.payload = gid).map fun f =>
      { gid := gid, loc := f.loc, memberCount := commitMembers f.payload, remaining := remaining }

/-- The groups that qualify, ascending (R155). -/
def mountCommits (counting : List Found) : List CommitEntry :=
  ((committedIds counting).foldl (fun acc g => putNat g acc) []).filterMap (mountCommit counting)

/-! ## The Bank Table (R156, R157, R158) -/

/-- Whether a record is one a table needs (R156). -/
def neededAt (dir : List DirEntry) (commits : List CommitEntry) (loc : Location) : Bool :=
  (dir.any fun e => e.state ≠ .damaged && e.loc = some loc) || commits.any fun (c : CommitEntry) => c.loc = loc

/-- Lines of the needed records of a scanned bank (R156). -/
def neededLines (dir : List DirEntry) (commits : List CommitEntry) (s : ScanBank) : Nat :=
  ((s.found.filter fun f => neededAt dir commits f.loc).map fun f => f.header.span).sum

/-- The bank that becomes ACTIVE (R158). -/
def mountActive (counting : List ScanBank) : Option BankId :=
  ((pick (fun a b : ScanBank => b.epoch < a.epoch) counting).filter fun s => s.append ≤ 127).map ScanBank.bank

/-- The entry of a bank that counts (R156, R158). -/
def countingEntry (row : CensusRow) (dir : List DirEntry) (commits : List CommitEntry) (valid : List Found) (active : Bool)
    (s : ScanBank) : BankEntry :=
  let used := s.append - Config.journalStart
  let dead := used - neededLines dir commits s
  { state := if active then .active else .full
    epoch := some s.epoch
    eraseCount := row.eraseCount
    used := used
    dead := if active then dead else dead + (Config.journalLines - used)
    tagged := (valid.filter fun f =>
      f.loc.bank = s.bank && f.header.gid.any fun g => commits.any fun (c : CommitEntry) => c.gid = g).length
    suspect := false }

/-- The entry of a bank that does not count (R156, R157; DESIGN CHOICE, log entry 24). -/
def otherEntry (current : Option Nat) (bad : Bool) (row : CensusRow) : BankEntry :=
  if bad then { BankEntry.initial with state := .bad, eraseCount := row.eraseCount }
  else
    match row.classify current with
    | .blank => BankEntry.initial
    | .free => { BankEntry.initial with state := .free, eraseCount := row.eraseCount }
    | .retired => { BankEntry.initial with state := .retired, eraseCount := row.eraseCount, epoch := row.epoch current }
    | .opened => { BankEntry.initial with state := .retired, eraseCount := row.eraseCount, epoch := row.epoch current }

/-- The Bank Table that mount builds (R156, R157, R158). -/
def mountBanks (rows : List CensusRow) (bad : List BankId) (counting : List ScanBank) (dir : List DirEntry)
    (commits : List CommitEntry) (valid : List Found) : Vector BankEntry 32 :=
  Vector.ofFn fun b : Fin 32 =>
    match counting.find? fun s => s.bank = b with
    | some s => countingEntry (censusRow rows b) dir commits valid (mountActive counting = some b) s
    | none => otherEntry (currentGeneration rows) (bad.contains b) (censusRow rows b)

/-- The protection level of the selected lock record (R41, R157). -/
def mountLevel (dir : List DirEntry) (found : List Found) : LockLevel :=
  match dir.find? fun e => e.key = Config.lockKey with
  | none => .opened
  | some e =>
    match found.find? fun f => some f.loc = e.loc with
    | some f => LockLevel.ofNumber (natOf f.payload)
    | none => .opened

/-- Whether the bank map taken is older than some intact or damaged bank map record of a bank that counts (R157). -/
def mapOutdated (taken : Option Found) (counting : List Found) : Bool :=
  counting.any fun f =>
    f.header.key = Config.mapKey && f.verdict ≠ .torn && taken.all fun t => t.header.seq < f.header.seq

/-- The highest of these numbers, 0 if there are none. -/
def highest (ns : List Nat) : Nat := ns.foldl max 0

/-! ## Hand-off (R159) -/

/-- The end of mount (R159), the tables built: erase list, counters' causes, store state, mount outcome, flags. -/
def Device.handOff (d : Device) : Device :=
  let eraseList := d.banksIn .retired
  let causes :=
    { d.causes with
      sequence := d.causes.sequence || Config.counterLimit < d.nextSeq
      epoch := d.causes.epoch || Config.counterLimit < d.nextEpoch }
  let store : StoreState := if d.generation.isNone then .blank else if causes.any then .degraded else .ready
  { d with
    reclaim := { d.reclaim with eraseList := eraseList }
    causes := causes
    store := store
    mountOutcome := if d.generation.isNone then .blank else if causes.any then .degraded else .ready
    banksHanded := eraseList.length
    flags := { d.flags with mounted := true, degraded := d.flags.degraded || store = .degraded }
    mount := .idle }

/-- RESOLVE to HANDOFF, every journal having been read (R153 to R159). -/
def Device.finishMount (d : Device) (rows : List CensusRow) (scans : List ScanBank) : Device :=
  let opened := openedScans rows scans
  let taken := bankMapTaken opened
  let bad := banksListed taken
  let counting := opened.filter fun s => !bad.contains s.bank
  let found := foundIn counting
  let entries := mountEntries found
  let dir := loadedEntries Config.userSlots entries
  let commits := mountCommits found
  Device.handOff
    { d with
      dir := dir
      commits := commits.take Config.commitEntries
      banks := mountBanks rows bad counting dir (commits.take Config.commitEntries) (validFound found)
      level := mountLevel dir found
      reclaim := { d.reclaim with mapDue := mapOutdated taken found }
      causes :=
        { d.causes with
          directory := d.causes.directory || directoryOverflows entries
          commit := d.causes.commit || Config.commitEntries < commits.length }
      nextSeq := highest ((foundIn scans).map fun f => f.header.seq) + 1
      nextEpoch := highest (scans.map ScanBank.epoch) + 1
      generation := currentGeneration rows }

/-- HANDOFF without a current generation: every bank BLANK or RETIRED, the tables empty, both counters 1 (R151, R159). -/
def Device.finishBlank (d : Device) (rows : List CensusRow) : Device :=
  Device.handOff { d with banks := mountBanks rows [] [] [] [] [], nextSeq := 1, nextEpoch := 1, generation := none }

/-! ## The reads (R151, R152) -/

/-- The scan goes on with the next journal, or mount ends. -/
def Device.nextScan (d : Device) (rows : List CensusRow) (todo : List (BankId × Nat)) (done : List ScanBank) : Device :=
  match todo with
  | [] => d.finishMount rows done
  | (b, _) :: _ => ({ d with mount := .scan rows todo done }).request .mount (.read b Config.journalStart Config.journalLines)

/-- A bank's census result joins the others; the next bank is read, or the scan begins (R151). -/
def Device.censusDone (d : Device) (rows : List CensusRow) : Device :=
  if rows.length < Config.bankCount then
    ({ d with mount := .census rows }).request .mount (.read (bankOf rows.length) 0 3)
  else if (currentGeneration rows).isNone then d.finishBlank rows
  else d.nextScan rows (scanOrder rows) []

/-- The Mount Unit receives the lines of its read (R151, R152). The further read of a bank whose header line reads erased comes before
the next bank's census read (DESIGN CHOICE, log entry 39). -/
def Device.mountRead (d : Device) (lines : List Line) : Device :=
  match d.mount with
  | .idle => d
  | .census rows =>
    let row : CensusRow :=
      { header := lines.getD 0 Line.erased, openLine := lines.getD 1 Line.erased, retire := lines.getD 2 Line.erased,
        restErased := false }
    if row.header.isErased then
      ({ d with mount := .censusRest rows row }).request .mount
        (.read (bankOf rows.length) Config.journalStart Config.journalLines)
    else d.censusDone (rows ++ [row])
  | .censusRest rows row =>
    d.censusDone
      (rows ++ [{ row with restErased := row.openLine.isErased && row.retire.isErased && lines.all Line.isErased }])
  | .scan _ [] _ => d
  | .scan rows ((b, e) :: todo) done =>
    let parsed := parseJournal lines
    d.nextScan rows todo (done ++ [{ bank := b, epoch := e, append := parsed.append, records := parsed.records }])

/-- Mount stops at the refusal of its next request under the power warning (R160). -/
def Device.stopMount (d : Device) : Device := { d with mount := .idle }

end Sys2Proof.Machine
end

