-- ==== Sys2Proof/Machine/FormatEnds.lean ====
section
/-! DEFINITION. How FORMAT ends: with or without its commit point (R166), and under the power warning (R167). -/
namespace Sys2Proof.Machine
open Sys2Proof

/-- The Reclaim Engine when FORMAT ends: a HALTED engine becomes IDLE with no victim (R166). -/
def Reclaim.released (r : Reclaim) : Reclaim :=
  match r.job with
  | .halted _ => { r with job := .idle, victim := none }
  | _ => r

/-- The progress of the FORMAT being executed. -/
def Device.formatProgress (d : Device) : Option FormatProgress := d.ex.bind fun x => x.format

/-- The executing FORMAT with its progress changed. -/
def Device.mapFormat (d : Device) (f : FormatProgress → FormatProgress) : Device :=
  { d with ex := d.ex.map fun x => { x with format := x.format.map f } }

/-- FORMAT ends after its commit point (R166, section 11.6): store state, DEGRADED flag, mount outcome registers, the Reclaim
Engine released. -/
def Device.formatCommitted (d : Device) : Device :=
  { d with
    store := if d.causes.any then .degraded else .ready
    flags := { d.flags with degraded := d.flags.degraded || d.causes.any }
    mountOutcome := if d.causes.any then .degraded else .ready
    banksHanded := 0
    reclaim := d.reclaim.released }

/-- FORMAT ends (R166): with its commit point reached the store is usable; without it, mount runs at once, the completion placed
first. -/
def Device.formatFinish (d : Device) : Device :=
  match d.formatProgress with
  | none => d
  | some f =>
    if f.committed then d.formatCommitted.endCommand .ok 0
    else (d.endCommand .ok 0).beginMount

/-- FORMAT ended by the power warning before any erase or header program was granted to it (R167): the store leaves FORMATTING, so
DEGRADED is a change that sets the flag whatever it was before (R149). The bank map due and lock repair marks are kept (DESIGN CHOICE,
log entry 31), and so are the mount outcome and the banks handed (section 11.6; DESIGN CHOICE, log entry 35). -/
def Device.formatWithdrawn (d : Device) (f : FormatProgress) : Device :=
  let causes := f.priorCauses.union d.causes
  let store : StoreState := if causes.any then .degraded else f.prior
  { d with
    causes := causes
    store := store
    flags := { d.flags with degraded := d.flags.degraded || store = .degraded }
    reclaim := if d.reclaim.job = .halted .format then { d.reclaim with job := .idle } else d.reclaim }

/-- FORMAT ends under the power warning with POWER_ABORT (R167): before its first grant the store returns to what it was; after
it, the store is MOUNTING until recovery. -/
def Device.formatPowerEnd (d : Device) : Device :=
  match d.formatProgress with
  | none => d
  | some f => if f.granted then d.resetTables.endCommand .powerAbort 0 else (d.formatWithdrawn f).endCommand .powerAbort 0

end Sys2Proof.Machine
end

