-- ==== Sys2Proof/Machine/Controller.lean ====
section
/-! DEFINITION. The Flash Controller and its arbiter (sections 1.3 and 1.4): which waiting request can be granted, which is, and
what a grant does to the suspension state and the fairness count. -/
namespace Sys2Proof.Machine
open Sys2Proof

/-- R11 decides the Command Engine's program request that meets a RUNNING erase, once: by the enable and the suspension count as
they stand at the request, a later change of the enable reaching the next request only (R12). -/
def Device.decideSuspension (c : Ctx) (d : Device) : Device :=
  match d.fc.waitCommand, d.fc.erase, d.fc.decided with
  | some (.program _ _ _), some e, none =>
    if e.suspended then d
    else { d with fc := { d.fc with decided := some (c.cfg.suspendEnable && e.count < Config.maxSuspensions) } }
  | _, _, _ => d

/-- Whether the controller can grant a request now (R10, R11, R12, R13): nothing else in progress, or beside an erase a read of
another bank, or a Command Engine program while the erase is SUSPENDED or may be suspended for it. -/
def Device.grantable (d : Device) (who : Requester) (r : Request) : Bool :=
  d.fc.op.isNone &&
    match d.fc.erase with
    | none => true
    | some e =>
      match r with
      | .read b _ _ => b ≠ e.bank
      | .program _ _ _ => who = .command && (e.suspended || d.fc.decided = some true)
      | .erase _ => false

/-- The waiting request that is granted next (R13, R14, R15): the Command Engine's ahead of the Reclaim Engine's, unless the
fairness count is 16 and both wait. -/
def Device.nextGrant (d : Device) : Option (Requester × Request) :=
  match d.fc.waitCommand.filter (d.grantable .command), d.fc.waitReclaim.filter (d.grantable .reclaim) with
  | some r, some q => if d.fc.fairness ≥ Config.fairnessLimit then some (.reclaim, q) else some (.command, r)
  | some r, none => some (.command, r)
  | none, some q => some (.reclaim, q)
  | none, none => (d.fc.waitMount.filter (d.grantable .mount)).map fun r => (.mount, r)

/-- The fairness count after a grant (R15). -/
def FlashController.fairnessAfter (fc : FlashController) : Requester → Nat
  | .command => if fc.waitReclaim.isSome then fc.fairness + 1 else 0
  | .reclaim => 0
  | .mount => fc.fairness

/-- The controller with a requester's waiting slot emptied. -/
def FlashController.unwait (fc : FlashController) : Requester → FlashController
  | .command => { fc with waitCommand := none, decided := none }
  | .reclaim => { fc with waitReclaim := none }
  | .mount => { fc with waitMount := none }

/-- An erase with a Command Engine program granted during it: a RUNNING one is suspended and its count rises (R11, R12). -/
def EraseOp.interrupted (e : EraseOp) : EraseOp :=
  if e.suspended then e else { e with suspended := true, count := e.count + 1 }

/-- The controller after a grant (R11, R13, R15). -/
def FlashController.grant (fc : FlashController) (who : Requester) (r : Request) : FlashController :=
  let fc := { fc.unwait who with fairness := fc.fairnessAfter who }
  match r with
  | .erase b => { fc with erase := some { requester := who, bank := b, suspended := false, count := 0 } }
  | .program _ _ _ => { fc with op := some (who, r), erase := fc.erase.map EraseOp.interrupted }
  | .read _ _ _ => { fc with op := some (who, r) }

/-- FORMAT notes that an erase or header program has been granted to it (R167). -/
def Device.noteFormatGrant (d : Device) (who : Requester) : Device :=
  if who = .command then
    { d with ex := d.ex.map fun x => { x with format := x.format.map fun f => { f with granted := true } } }
  else d

/-- A grant, as the arbiter makes it. -/
def Device.grantRequest (d : Device) (who : Requester) (r : Request) : Device :=
  ({ d with fc := d.fc.grant who r }).noteFormatGrant who

/-- A suspended erase returns to RUNNING unless the Command Engine presents a further program at that moment (R12). -/
def Device.resumeErase (d : Device) : Device :=
  match d.fc.erase, d.fc.op, d.fc.waitCommand with
  | some _, none, some (.program _ _ _) => d
  | some e, none, _ => { d with fc := { d.fc with erase := some { e with suspended := false } } }
  | _, _, _ => d

/-- Grants while one can be made: at most an erase, then one operation beside it. -/
def Device.grantAll (c : Ctx) : Nat → Device → Device
  | 0, d => d
  | fuel + 1, d =>
    match (d.decideSuspension c).nextGrant with
    | some (who, r) => Device.grantAll c fuel ((d.decideSuspension c).grantRequest who r)
    | none => d.decideSuspension c

/-- The arbiter at the end of a step: the erase resumes if it can, then waiting requests are granted (R12, R13). Under WARNING
nothing is granted (R16). -/
def Device.arbitrate (c : Ctx) (d : Device) : Device := if c.warning then d else Device.grantAll c 3 d.resumeErase

end Sys2Proof.Machine
end

