-- ==== Sys2Proof/Machine/Placement.lean ====
section
/-! DEFINITION. What both appenders share (sections 2.5, 5.7 to 5.9, R141): fitting and reserving a span, opening a bank,
requesting a record's lines, and abandoning a span. -/
namespace Sys2Proof.Machine
open Sys2Proof

/-- The append position of a bank (R37). -/
def Device.appendAt (d : Device) (b : BankId) : Nat := Config.journalStart + (d.bank b).used

/-- The ACTIVE bank if a span fits at its append position (R37, R104 case 1). -/
def Device.fitting (d : Device) (span : Nat) : Option BankId :=
  d.activeBank.filter fun b => d.appendAt b + span ≤ Config.linesPerBank

/-- A span's lines are added to its bank's used lines at once (R37, R58). -/
def Device.reserveLines (d : Device) (b : BankId) (span : Nat) : Device :=
  d.setBank b { d.bank b with used := (d.bank b).used + span }

/-- Whether a sequence can be taken (R33, R34). -/
def Device.sequenceLeft (d : Device) : Bool := d.nextSeq ≤ Config.counterLimit

/-- A span reserved for a writer in a bank: the reservation, and the device after it. A new sequence is taken unless the record
carries one (R33, R98). -/
def Device.reserve (d : Device) (w : Writer) (b : BankId) : Reservation × Device :=
  let line := d.appendAt b
  let d := d.reserveLines b w.record.span
  match w.fixedSeq with
  | some q => ({ bank := b, line := line, seq := q, at_ := 0 }, d)
  | none => ({ bank := b, line := line, seq := d.nextSeq, at_ := 0 }, { d with nextSeq := d.nextSeq + 1 })

/-- The request for the program of a reserved record's current line (R99). -/
def lineRequest (w : Writer) (r : Reservation) : Request := .program r.bank (r.line + r.at_) (w.record.line r.seq r.at_)

/-- An open is begun (R101, R102): the mark is set, an epoch taken and the open line requested. The caller has found that an
epoch is left. -/
def Device.beginOpen (d : Device) (who : Opener) (b : BankId) : Device :=
  let d := { d with openMark := some (b, who), nextEpoch := d.nextEpoch + 1 }
  d.request (match who with
    | .command => .command
    | .reclaim => .reclaim) (.program b 1 (.openLine (d.nextEpoch - 1) 0))

/-- Whether an epoch can be taken (R35). -/
def Device.epochLeft (d : Device) : Bool := d.nextEpoch ≤ Config.counterLimit

/-- The open line program returned OK (R103, R141): the ACTIVE bank, if any, becomes FULL, the bank becomes ACTIVE with its
epoch and no lines used, the mark is cleared, and a fall of the FREE-bank count from 3 to 2 sets SPACE_LOW unless the open is
FORMAT's (R62, R165). -/
def Device.openSucceeded (d : Device) (b : BankId) (epoch : Nat) (quiet : Bool) : Device :=
  let before := d.freeCount
  let d := match d.activeBank with
    | some a => d.fillActive a
    | none => d
  let d := d.setBank b { d.bank b with state := .active, epoch := some epoch, used := 0, dead := 0, tagged := 0 }
  let d := { d with openMark := none }
  if quiet then d else d.noteOpening before

/-- The open line program faulted (R103, R141): the bank becomes FULL and suspect with 125 dead lines; the mark is cleared. -/
def Device.openFaulted (d : Device) (b : BankId) (epoch : Nat) (quiet : Bool) : Device :=
  let before := d.freeCount
  let d := d.setBank b
    { d.bank b with
      state := .full, epoch := some epoch, used := 0, dead := Config.journalLines, tagged := 0, suspect := true }
  let d := { d with openMark := none }
  if quiet then d else d.noteOpening before

/-- A reserved span is abandoned: its lines are dead (R38, R59). -/
def Device.abandonSpan (d : Device) (w : Writer) (r : Reservation) : Device := d.addDead r.bank w.record.span

/-- A bank in which a record's line faulted becomes suspect and, if still ACTIVE, FULL (R106 steps 2 and 3, R108, R145). -/
def Device.faultBank (d : Device) (b : BankId) : Device := (d.markSuspect b).fillActive b

/-- The outcome of a line program as its requester receives it (R7, R108): OK, or a fault with what the line reads and whether
the pre-check refused it; or a refusal under the power warning (R16). -/
inductive ProgramOutcome where
  | ok
  | fault (read : Line) (preCheck : Bool)
deriving DecidableEq, Repr

/-- What a record's line outcome asks of its appender. -/
inductive LineVerdict where
  /-- The next line is to be requested. -/
  | next (r : Reservation)
  /-- The record has committed; `faulted` when its commit line faulted and reads valid (R108). -/
  | committed (faulted : Bool)
  /-- A program fault of the record (R106, R145). -/
  | fault
deriving DecidableEq, Repr

/-- The judgement of a record's line outcome (R99, R108). -/
def lineVerdict (w : Writer) (r : Reservation) (o : ProgramOutcome) : LineVerdict :=
  match o with
  | .ok =>
    if r.at_ + 1 = w.record.span then .committed false
    else .next { r with at_ := w.record.lineAfter r.at_ }
  | .fault read preCheck =>
    if r.at_ + 1 = w.record.span ∧ !preCheck ∧ commitLineValid w.record r.seq read then .committed true else .fault

/-- The epoch exhausted, an open is not performed (R35): the mark is cleared and cause EPOCH arises. -/
def Device.epochExhausted (d : Device) : Device := ({ d with openMark := none }).degrade .epoch

end Sys2Proof.Machine
end

