-- ==== Sys2Proof/Machine/CommandRecord.lean ====
section
/-! DEFINITION. How the Command Engine places and programs one record (sections 5.7 to 5.9, R116, R172, R165): placement, opens, line
outcomes, commit, faults, and refusals under the power warning (R182, R183). -/
namespace Sys2Proof.Machine
open Sys2Proof

/-- The executing command ends under the power warning (R182); FORMAT ends as R167 gives. -/
def Device.commandPowerEnd (d : Device) : Device :=
  if d.formatProgress.isSome then d.formatPowerEnd else d.endCommand .powerAbort 0

/-- The executing command's record cannot be programmed: the command ends with this status; FORMAT ends with cause BANK_MAP in
its place (R165). -/
def Device.commandFails (d : Device) (status : Status) : Device :=
  if d.formatProgress.isSome then (d.degrade .bankMap).formatFinish else d.endCommand status 0

/-- A sequence is asked for with the counter exhausted: cause SEQUENCE, and the command ends READ_ONLY (R34, R98). -/
def Device.commandOutOfSequences (d : Device) : Device := (d.degrade .sequence).commandFails .readOnly

/-- The record's span is reserved in a bank, its sequence taken, and its header line requested (R98, R99, R103). -/
def Device.commandReserve (d : Device) (w : Writer) (b : BankId) : Device :=
  if d.sequenceLeft then
    let (r, d) := d.reserve w b
    (d.setStage (.writing { w with stage := .programming r })).request .command (lineRequest w r)
  else d.commandOutOfSequences

/-- The Command Engine opens a bank for its span (R102). -/
def Device.commandOpen (d : Device) (w : Writer) (b : BankId) : Device :=
  if d.epochLeft then
    (d.setStage (.writing { w with stage := .opening b d.nextEpoch })).beginOpen .command b
  else d.epochExhausted.commandFails .readOnly

/-- Case 4 of R104: the command waits for space; a DEGRADED store ends the wait with READ_ONLY (R105; log entry 26). -/
def Device.commandWaits (d : Device) (w : Writer) : Device :=
  if d.formatProgress.isSome then d.commandFails .noSpace
  else if d.store = .degraded then d.endCommand .readOnly 0
  else d.setStage (.writing { w with stage := .waitSpace })

/-- The Command Engine places a span (R98, R104); under WARNING it places none (R182). -/
def Device.commandPlace (c : Ctx) (d : Device) (w : Writer) : Device :=
  if c.warning then d.commandPowerEnd
  else if !d.sequenceLeft then d.commandOutOfSequences
  else
    match d.fitting w.record.span with
    | some b => d.commandReserve w b
    | none =>
      if d.openMark.isSome then d.setStage (.writing { w with stage := .waitOpen })
      else
        match if Config.commandReserve ≤ d.freeCount then d.freeToOpen else none with
        | some b => d.commandOpen w b
        | none => d.commandWaits w

/-- A record newly to be placed by the Command Engine. -/
def Writer.fresh (record : RecordSpec) : Writer := { record := record, fixedSeq := none, faulted := false, stage := .waitOpen }

/-- What a record that committed at a reservation changes in the Directory or the member list. -/
def committedRecord (w : Writer) (r : Reservation) : Committed :=
  { key := w.record.key, cls := w.record.cls, state := if w.record.kind = .tombstone then .tombstone else .live,
    loc := some { bank := r.bank, line := r.line }, length := w.record.payload.length, seq := r.seq, newBase := r.seq,
    increment := 0 }

/-- The record of a user command commits into the Directory, or as a member into the member list (R100, R112). -/
def Device.commitUserRecord (d : Device) (x : Executing) (w : Writer) (r : Reservation) : Device :=
  if x.member then d.commitMember (committedRecord w r) { bank := r.bank, line := r.line }
  else d.commitEntry (committedRecord w r)

/-- The executing command's record commits (R100, R112, R116, R165, R172). -/
def Device.commandCommit (d : Device) (x : Executing) (w : Writer) (r : Reservation) : Device :=
  match x.code with
  | .commitGroup => (d.commitGroup { bank := r.bank, line := r.line }).endCommand .ok 0
  | .raiseLock =>
    ({ d.commitEntry (committedRecord w r) with level := LockLevel.ofNumber x.desc.argument.toNat }).endCommand .ok 0
  | .format => (d.commitEntry (committedRecord w r)).formatFinish
  | .add => ((d.commitUserRecord x w r).output w.record.payload).endCommand .ok 8
  | _ => (d.commitUserRecord x w r).endCommand .ok 0

/-- A program fault of the executing command, the faulted bank already handled: the record is placed again after the first, and the
command ends FLASH_FAULT after the second (R106, R107); under WARNING it ends POWER_ABORT (R183). -/
def Device.commandFault (c : Ctx) (d : Device) (w : Writer) : Device :=
  if c.warning then d.commandPowerEnd
  else if w.faulted then d.commandFails .flashFault
  else d.commandPlace c { w with faulted := true }

/-- The outcome of the open line program of the command's own open (R103). After a fault this engine decides again before an engine that
waited on the mark (R101, R106; DESIGN CHOICE, log entry 33). -/
def Device.commandOpened (c : Ctx) (d : Device) (x : Executing) (w : Writer) (b : BankId) (epoch : Nat) (o : ProgramOutcome) :
    Device :=
  match o with
  | .ok => (d.openSucceeded b epoch (x.code = .format)).commandReserve w b
  | .fault _ _ => (d.openFaulted b epoch (x.code = .format)).commandFault c w

/-- The outcome of a line program of the command's record (R99, R106, R108; DEDUCED, log entry 22). -/
def Device.commandLine (c : Ctx) (d : Device) (x : Executing) (w : Writer) (r : Reservation) (o : ProgramOutcome) : Device :=
  if c.warning && d.formatProgress.isSome then d.formatPowerEnd
  else
    match lineVerdict w r o with
    | .next r' => (d.setStage (.writing { w with stage := .programming r' })).request .command (lineRequest w r')
    | .committed faulted => (if faulted then d.faultBank r.bank else d).commandCommit x w r
    | .fault => ((d.abandonSpan w r).faultBank r.bank).commandFault c w

/-- The executing command's waiting request is refused with outcome POWER (R16, R99, R103, R182). -/
def Device.commandRefused (d : Device) : Device :=
  match d.ex with
  | none => d
  | some x =>
    match x.stage with
    | .writing w =>
      match w.stage with
      | .opening _ _ => ({ d with openMark := none }).commandPowerEnd
      | .programming r => (d.abandonSpan w r).commandPowerEnd
      | .waitOpen => d.commandPowerEnd
      | .waitSpace => d.commandPowerEnd
    | _ => d.commandPowerEnd

end Sys2Proof.Machine
end

