-- ==== Sys2Proof/Machine/CommandReads.lean ====
section
/-! DEFINITION. The Command Engine's multi-line reads (R89, R95): READ's delivery, ADD's new value, and records found damaged. -/
namespace Sys2Proof.Machine
open Sys2Proof

/-- The payload of a record read whole, if it is intact (R29, R31, R89): none when the check fails. -/
def recordPayload (line : Nat) (lines : List Line) : Option (List Byte) :=
  match (lines.getD 0 Line.erased).headerAt line with
  | none => none
  | some h =>
    match judge h lines with
    | (.intact, payload) => some payload
    | (.torn, _) => none
    | (.damaged, _) => none

/-- The request for the whole record at a location (R9, R89). -/
def recordRead (loc : Location) (length : Nat) : Request := .read loc.bank loc.line (spanOf length)

/-- The bytes READ delivers: from the offset on, at most the length asked for (R89). -/
def delivered (payload : List Byte) (offset length : Nat) : List Byte := (payload.drop offset).take length

/-- READ's record has been read (R89): the payload part is delivered, or the entry becomes DAMAGED and the command ends CORRUPT. -/
def Device.readDone (d : Device) (x : Executing) (payload : Option (List Byte)) : Device :=
  match payload with
  | some p =>
    let bytes := delivered p x.desc.offset.toNat x.desc.length.toNat
    (d.output bytes).endCommand .ok bytes.length
  | none => (d.damageEntry x.desc.key).endCommand .corrupt 0

/-- The counter record that ADD programs (R95). -/
def counterRecord (key : Key) (value : Nat) (gid : Option Nat) : RecordSpec :=
  { key := key, kind := .data, cls := .counter, payload := bytesOf 8 value, gid := gid }

/-- The group id a member command's record carries (R92, R111). -/
def Device.memberGid (d : Device) (x : Executing) : Option Nat := if x.member then d.openGid else none

/-- ADD's counter record is found damaged (R95, R113). At a Directory entry's location the walk list does not learn of it (DEDUCED, log
entry 29). -/
def Device.damageCounter (d : Device) (x : Executing) (loc : Location) : Device :=
  if x.member && (d.member x.desc.key).isSome then d.damageMember x.desc.key loc else d.damageEntry x.desc.key

/-- ADD's record has been read (R95): the sum is placed, or is out of range, or the entry becomes DAMAGED
(DEDUCED, log entry 16). -/
def Device.addDone (c : Ctx) (d : Device) (x : Executing) (loc : Location) (payload : Option (List Byte)) : Device :=
  match payload with
  | none => (d.damageCounter x loc).endCommand .classDenied 0
  | some p =>
    if c.warning then d.commandPowerEnd
    else if 2 ^ 64 - 1 < natOf p + x.desc.argument.toNat then d.endCommand .counterLimit 0
    else d.commandPlace c (Writer.fresh (counterRecord x.desc.key (natOf p + x.desc.argument.toNat) (d.memberGid x)))

/-- The Command Engine receives the lines of its read (R89, R95). -/
def Device.commandRead (c : Ctx) (d : Device) (lines : List Line) : Device :=
  match d.ex with
  | none => d
  | some x =>
    match x.stage with
    | .reading loc =>
      if x.code = .add then d.addDone c x loc (recordPayload loc.line lines) else d.readDone x (recordPayload loc.line lines)
    | _ => d

end Sys2Proof.Machine
end

