-- ==== Sys2Proof/Machine/FormatWork.lean ====
section
/-! DEFINITION. FORMAT's work (section 8.3): taking it, the anchor, the erases and headers, the tables it leaves and its bank map
record. -/
namespace Sys2Proof.Machine
open Sys2Proof

/-- FORMAT passes its checks (R161): the store is FORMATTING, the cause set empty, and the command waits for the Reclaim Engine. -/
def Device.formatTaken (d : Device) : Device :=
  { d with
    store := .formatting
    causes := {}
    ex := d.ex.map fun x =>
      { x with
        stage := .formatWait
        format := some { prior := d.store, priorCauses := d.causes, granted := false, committed := false, todo := [] } } }

/-- The number of needed records in a bank (R156, R162). -/
def Device.neededIn (d : Device) (b : BankId) : Nat :=
  (d.dir.filter fun e => e.state ≠ .damaged && e.loc.any fun l => l.bank = b).length
    + (d.commits.filter fun c => c.loc.bank = b).length

/-- Case 4 of R162: the FULL or RECLAIMING bank with the fewest needed records, then the lowest erase count, then index. -/
def Device.fullestAnchor (d : Device) : Option BankId :=
  pick
    (fun a b => d.neededIn a < d.neededIn b || (d.neededIn a = d.neededIn b && (d.bank a).wear < (d.bank b).wear))
    (allBanks.filter fun b => (d.bank b).state = .full || (d.bank b).state = .reclaiming)

/-- The anchor bank (R162). -/
def Device.formatAnchor (d : Device) : Option BankId :=
  ((d.banksIn .blank).head?.or d.freeToOpen).or (d.reclaim.eraseList.head?.or d.fullestAnchor)

/-- The generation FORMAT's headers carry (R163): one above the current one until the commit point, the current one after it. -/
def Device.formatGeneration (d : Device) (f : FormatProgress) : Nat :=
  match d.generation with
  | none => 1
  | some g => if f.committed then g else g + 1

/-- FORMAT requests the header of a bank (R163, R164). -/
def Device.formatHeaderOf (d : Device) (f : FormatProgress) (b : BankId) (again : Bool) : Device :=
  (d.setStage (.formatHeader b again (d.nextEraseCount b))).request .command
    (.program b 0 (.bankHeader (d.formatGeneration f) (d.nextEraseCount b) 0))

/-- FORMAT requests the erase of a bank (R163, R164). -/
def Device.formatEraseOf (d : Device) (b : BankId) (again : Bool) : Device :=
  (d.setStage (.formatErase b again)).request .command (.erase b)

/-- FORMAT begins with a bank: a BLANK one gets its header directly, any other is erased first (R163, R164). -/
def Device.formatBank (d : Device) (f : FormatProgress) (b : BankId) : Device :=
  if (d.bank b).state = .blank then d.formatHeaderOf f b false else d.formatEraseOf b false

/-- The tables at the end of the erasing (R165, steps 1 and 2), and at that moment the bank map due mark and the lock repair mark,
which R157 and R177 clear at FORMAT (the moment: DESIGN CHOICE, log entry 31). -/
def Device.formatTables (d : Device) : Device :=
  { d with
    dir := [], group := none, commits := [], level := .opened, nextSeq := 1, nextEpoch := 1, openMark := none
    reclaim := { d.reclaim with eraseList := [], moved := [], mapDue := false, repairDue := false } }

/-- Whether the BAD banks cannot be listed or leave too few usable (R133, R165). -/
def Device.mapImpossible (d : Device) : Bool := d.usable.length < Config.minUsable || Config.maxBad < d.badCount

/-- The end of the erasing: tables, and the bank map record if any bank is BAD (R165). -/
def Device.formatMap (c : Ctx) (d : Device) : Device :=
  let d := d.formatTables
  if d.badCount = 0 then d.formatFinish
  else if d.mapImpossible then (d.degrade .banks).formatFinish
  else d.commandPlace c (Writer.fresh (mapRecord (d.banksIn .bad)))

/-- FORMAT goes on with the next bank that it has still to erase, or to its end (R164, R165). -/
def Device.formatNext (c : Ctx) (d : Device) (f : FormatProgress) : Device :=
  match f.todo with
  | [] => d.formatMap c
  | b :: rest => (d.mapFormat fun p => { p with todo := rest }).formatBank f b

/-- FORMAT chooses an anchor and begins with it, or ends without one (R162, R163). -/
def Device.formatChoose (d : Device) (f : FormatProgress) : Device :=
  match d.formatAnchor with
  | some b => d.formatBank f b
  | none => d.formatFinish

/-- A bank leaves the erase list (R129). -/
def Device.unlist (d : Device) (b : BankId) : Device :=
  d.mapReclaim fun r => { r with eraseList := r.eraseList.filter fun x => x ≠ b }

/-- A failed attempt of FORMAT on a bank (R163, R164): the first erases it again, the second makes it BAD. -/
def Device.formatFailed (c : Ctx) (d : Device) (f : FormatProgress) (b : BankId) (again : Bool) : Device :=
  if again then
    let d := (d.emptyInto b .bad).unlist b
    if f.committed then d.formatNext c f else d.formatChoose f
  else d.formatEraseOf b true

/-- A header of FORMAT verified (R163, R164): the bank is FREE, and the anchor's is the commit point. -/
def Device.formatFreed (c : Ctx) (d : Device) (f : FormatProgress) (b : BankId) (count : Nat) : Device :=
  if f.committed then ((d.makeFree b count).unlist b).formatNext c f
  else
    let f' := { f with committed := true, todo := d.usable.filter fun x => x ≠ b }
    let d' := { (d.makeFree b count).unlist b with generation := some (d.formatGeneration f) }
    (d'.mapFormat fun _ => f').formatNext c f'

/-- The outcome of FORMAT's erase of a bank (R163, R164). -/
def Device.formatErased (c : Ctx) (d : Device) (f : FormatProgress) (b : BankId) (again ok : Bool) : Device :=
  if c.warning then d.formatPowerEnd
  else if ok then d.formatHeaderOf f b again
  else d.formatFailed c f b again

/-- The outcome of FORMAT's header program (R163, R164); under WARNING FORMAT ends (R167). A fault sets the suspect mark (R61) of a bank
that keeps its state meanwhile (R164), BLANK and FREE among them, though R57 shows false for these (DEDUCED, log entry 36). -/
def Device.formatHeadered (c : Ctx) (d : Device) (f : FormatProgress) (b : BankId) (again : Bool) (count : Nat)
    (o : ProgramOutcome) : Device :=
  if c.warning then d.formatPowerEnd
  else
    match o with
    | .ok => d.formatFreed c f b count
    | .fault _ _ => (d.markSuspect b).formatFailed c f b again

/-- The Reclaim Engine stops for FORMAT (R161): an IDLE engine without work held becomes HALTED with cause FORMAT. -/
def Device.haltForFormat (d : Device) : Device :=
  if d.reclaim.job = .idle ∧ d.reclaim.victim.isNone then d.setJob (.halted .format) else d

/-- Whether the Reclaim Engine is HALTED (R127). -/
def Device.reclaimHalted (d : Device) : Bool := d.reclaimPhase = .halted

/-- FORMAT's wait for the Reclaim Engine: with the engine HALTED it chooses its anchor (R161, R162). -/
def Device.formatWaits (d : Device) (f : FormatProgress) : Device :=
  if d.haltForFormat.reclaimHalted then d.haltForFormat.formatChoose f else d

end Sys2Proof.Machine
end

