-- ==== Sys2Proof/Machine/Commands.lean ====
section
/-! DEFINITION. What the Command Engine does with a command when it takes it (R74): the general checks, each command's own checks in
their order, and the first step of its work (chapters 5, 6, 7, 8 and 9), under the power warning too (R182, R184). -/
namespace Sys2Proof.Machine
open Sys2Proof

/-- A check list: the status of the first check that refuses (R82). -/
def firstRefusal : List (Bool × Status) → Option Status
  | [] => none
  | (refuses, status) :: rest => if refuses then some status else firstRefusal rest

/-! ## The key view (R87, R111) -/

/-- What a command's checks see of an existing key. -/
structure KeyView where
  cls : RecClass
  state : EntryState
  loc : Option Location
  length : Nat
deriving DecidableEq, Repr

/-- A Directory entry as a command's checks see it. -/
def DirEntry.view (e : DirEntry) : KeyView := { cls := e.cls, state := e.state, loc := e.loc, length := e.length }

/-- A member entry as a member command's checks see it. -/
def MemberEntry.view (m : MemberEntry) : KeyView := { cls := m.cls, state := m.state, loc := m.loc, length := m.length }

/-- The view of a key: for a member command the member entry if there is one, else the Directory entry (R111). -/
def Device.keyView (d : Device) (member : Bool) (k : Key) : Option KeyView :=
  match if member then d.member k else none with
  | some m => some m.view
  | none => (d.entry k).map DirEntry.view

/-- A key that user commands may not name (R87). -/
def badKey (k : Key) : Bool := !isUserKey k

/-- Whether the key would be the group's seventeenth (R90, check 6). -/
def Device.groupFull (d : Device) (member : Bool) (k : Key) : Bool :=
  match d.group with
  | some g => member && (d.member k).isNone && Config.groupKeys ≤ g.members.length
  | none => false

/-- Whether no user slot is left (R47). -/
def Device.directoryFull (d : Device) : Bool := Config.userSlots ≤ d.userSlots

/-! ## READ (R88) -/

/-- READ's checks. -/
def Device.readChecks (d : Device) (q : Descriptor) : List (Bool × Status) :=
  let e := d.entry q.key
  [ (badKey q.key, .badKey),
    (Config.maxPayload < q.length.toNat || Config.maxPayload < q.offset.toNat + q.length.toNat, .badLength),
    (e.all fun e => e.state = .tombstone, .notFound),
    ((e.any fun e => e.cls = .hidden) && d.level ≠ .opened, .locked),
    (e.any fun e => e.state = .damaged, .corrupt) ]

/-- READ's step. -/
def Device.startRead (d : Device) (x : Executing) : Device :=
  match firstRefusal (d.readChecks x.desc) with
  | some status => d.endCommand status 0
  | none =>
    match (d.entry x.desc.key).bind fun e => e.loc.map fun loc => (loc, e.length) with
    | some (loc, length) => (d.setStage (.reading loc)).request .command (recordRead loc length)
    | none => d.endCommand .notFound 0

/-! ## WRITE (R90, R91, R92) -/

/-- WRITE's checks after the key, length and class value, for an existing key (R90). -/
def existingWriteChecks (v : KeyView) (field : ClassField) (full : Bool) : List (Bool × Status) :=
  [ (v.cls = .once || v.cls = .counter, .classDenied),
    (field ≠ .any && field ≠ .named v.cls, .badClass),
    (full, .groupFull) ]

/-- WRITE's checks after the first three, for a new key (R91). -/
def Device.newWriteChecks (d : Device) (field : ClassField) (full : Bool) : List (Bool × Status) :=
  [ (field = .any, .badClass),
    (field = .named .counter, .classDenied),
    (d.level = .final, .frozen),
    (full, .groupFull),
    (d.directoryFull, .directoryFull) ]

/-- WRITE's checks. -/
def Device.writeChecks (d : Device) (x : Executing) : List (Bool × Status) :=
  let q := x.desc
  let field := classField q.cls
  [ (badKey q.key, .badKey),
    (Config.maxPayload < q.length.toNat, .badLength),
    (field = .nothing, .badClass) ] ++
    match d.keyView x.member q.key with
    | some v => existingWriteChecks v field (d.groupFull x.member q.key)
    | none => d.newWriteChecks field (d.groupFull x.member q.key)

/-- The class WRITE's record carries (R87). -/
def writeClass (v : Option KeyView) (field : ClassField) : RecClass :=
  match v with
  | some v => v.cls
  | none =>
    match field with
    | .named c => c
    | .any => .plain
    | .nothing => .plain

/-- The payload WRITE takes from the buffer it names (R73). -/
def Device.writePayload (d : Device) (q : Descriptor) : List Byte :=
  match bufferIndex q.buffer with
  | some i => (d.buffer i).prefixBytes q.length.toNat
  | none => []

/-- The DATA record of a WRITE (R92), with the payload the engine took. -/
def Device.writeRecord (d : Device) (x : Executing) (payload : List Byte) : RecordSpec :=
  { key := x.desc.key, kind := .data, cls := writeClass (d.keyView x.member x.desc.key) (classField x.desc.cls),
    payload := payload, gid := d.memberGid x }

/-- WRITE's step. -/
def Device.startWrite (c : Ctx) (d : Device) (x : Executing) (payload : List Byte) : Device :=
  match firstRefusal (d.writeChecks x) with
  | some status => d.endCommand status 0
  | none => d.commandPlace c (Writer.fresh (d.writeRecord x payload))

/-! ## DELETE (R93) -/

/-- DELETE's checks. -/
def Device.deleteChecks (d : Device) (x : Executing) : List (Bool × Status) :=
  let v := d.keyView x.member x.desc.key
  [ (badKey x.desc.key, .badKey),
    (v.all fun v => v.state = .tombstone, .notFound),
    (v.any fun v => v.cls = .once || v.cls = .counter, .classDenied),
    (d.level = .final, .locked),
    (d.groupFull x.member x.desc.key, .groupFull) ]

/-- The TOMBSTONE record of a DELETE (R93). -/
def Device.deleteRecord (d : Device) (x : Executing) : RecordSpec :=
  { key := x.desc.key, kind := .tombstone, cls := ((d.keyView x.member x.desc.key).map KeyView.cls).getD .plain,
    payload := [], gid := d.memberGid x }

/-- DELETE's step. -/
def Device.startDelete (c : Ctx) (d : Device) (x : Executing) : Device :=
  match firstRefusal (d.deleteChecks x) with
  | some status => d.endCommand status 0
  | none => d.commandPlace c (Writer.fresh (d.deleteRecord x))

/-! ## ADD (R94, R95) -/

/-- ADD's checks. -/
def Device.addChecks (d : Device) (x : Executing) : List (Bool × Status) :=
  let v := d.keyView x.member x.desc.key
  [ (badKey x.desc.key, .badKey),
    (x.desc.argument = 0, .badArgument),
    (v.any fun v => v.cls ≠ .counter || v.state = .damaged, .classDenied),
    (v.isNone && d.level = .final, .frozen),
    (d.groupFull x.member x.desc.key, .groupFull),
    (v.isNone && d.directoryFull, .directoryFull) ]

/-- ADD's step: an existing counter's record is read, a new one is placed at once. -/
def Device.startAdd (c : Ctx) (d : Device) (x : Executing) : Device :=
  match firstRefusal (d.addChecks x) with
  | some status => d.endCommand status 0
  | none =>
    match (d.keyView x.member x.desc.key).bind fun v => v.loc.map fun loc => (loc, v.length) with
    | some (loc, length) => (d.setStage (.reading loc)).request .command (recordRead loc length)
    | none => d.commandPlace c (Writer.fresh (counterRecord x.desc.key x.desc.argument.toNat (d.memberGid x)))

/-! ## LIST (R96, R97) -/

/-- The entries LIST writes: from the start key on, no system keys, no TOMBSTONE entries, at most 16. -/
def Device.listed (d : Device) (q : Descriptor) : List DirEntry :=
  (d.dir.filter fun e => q.argument.toNat % 65536 ≤ e.key.toNat && isUserKey e.key && e.state ≠ .tombstone).take
    Config.listEntries

/-- LIST's step: it ends; the Directory walk does not depend on the power condition (R184). -/
def Device.startList (d : Device) (x : Executing) : Device :=
  (d.output ((d.listed x.desc).map (listEntry d.level)).flatten).endCommand .ok (d.listed x.desc).length

/-! ## Groups (R110, R115, R119) -/

/-- OPEN_GROUP's checks before its sequence. -/
def Device.openGroupChecks (d : Device) (q : Descriptor) : List (Bool × Status) :=
  [ (d.group.isSome, .groupOpen),
    (Config.commitEntries ≤ d.commits.length, .groupTableFull),
    (Config.maxTimeout < q.argument.toNat, .badArgument) ]

/-- The timeout of a group, in units of 10 ms (R110): the argument, or for 0 the configured one, as it was when the command was taken. -/
def groupTimeout (configured : Nat) (q : Descriptor) : Nat := if q.argument = 0 then configured else q.argument.toNat

/-- OPEN_GROUP creates the context, the sequence taken as its id. -/
def Device.openGroup (d : Device) (timeout : Nat) : Device :=
  { d with
    nextSeq := d.nextSeq + 1
    group := some
      { id := d.nextSeq, state := .opened, deadline := if timeout = 0 then none else some (10 * timeout), members := [],
        records := [], endsWithMember := false } }

/-- OPEN_GROUP's step: it takes its sequence and ends. Under WARNING no context is created, and the sequence is consumed (R184; DEDUCED,
log entry 40). -/
def Device.startOpenGroup (c : Ctx) (d : Device) (x : Executing) (timeout : Nat) : Device :=
  match firstRefusal (d.openGroupChecks x.desc) with
  | some status => d.endCommand status 0
  | none =>
    if !d.sequenceLeft then (d.degrade .sequence).endCommand .readOnly 0
    else if c.warning then ({ d with nextSeq := d.nextSeq + 1 }).endCommand .powerAbort 0
    else (d.openGroup (groupTimeout timeout x.desc)).endCommand .ok 0

/-- COMMIT_GROUP is taken: the group is COMMITTING without deadline (R115). -/
def Device.closeGroup (d : Device) (code : CommandCode) : Device :=
  if code = .commitGroup then d.mapGroup fun g => { g with state := .committing, deadline := none } else d

/-- COMMIT_GROUP's step: an empty group ends OK at once, any other has its COMMIT record placed. -/
def Device.startCommitGroup (c : Ctx) (d : Device) : Device :=
  match d.group with
  | none => d.endCommand .noGroup 0
  | some g =>
    if g.members.isEmpty then ({ d with group := none }).endCommand .ok 0
    else d.commandPlace c (Writer.fresh (commitRecord g.id g.members.length))

/-- DROP_GROUP's step: it ends, with NO_GROUP where the warning has ended the group before it (R122, R184). -/
def Device.startDropGroup (d : Device) : Device :=
  if d.group.isNone then d.endCommand .noGroup 0 else d.endGroup.endCommand .ok 0

/-! ## RECLAIM (R136) -/

/-- Whether a named bank can be the victim of a RECLAIM: FULL or RECLAIMING. -/
def Device.reclaimable (d : Device) (n : Nat) : Bool :=
  (d.bank (bankOf n)).state = .full || (d.bank (bankOf n)).state = .reclaiming

/-- RECLAIM's refusing checks. -/
def Device.reclaimChecks (d : Device) (q : Descriptor) : List (Bool × Status) :=
  [ (31 < q.argument.toNat && q.argument.toNat ≠ Config.anyBank, .badArgument),
    (q.argument.toNat ≠ Config.anyBank && !d.reclaimable q.argument.toNat, .badArgument) ]

/-- RECLAIM's step: refused, answered 0xFF at once, or its request is placed with the Reclaim Engine; under WARNING none is (R184). -/
def Device.startReclaim (c : Ctx) (d : Device) (x : Executing) : Device :=
  match firstRefusal (d.reclaimChecks x.desc) with
  | some status => d.endCommand status 0
  | none =>
    if d.reclaimHalted || d.causes.commit then d.endCommand .ok Config.anyBank
    else if c.warning then d.endCommand .powerAbort 0
    else (d.mapReclaim fun r => { r with request := some x.desc.argument.toNat }).setStage .reclaimHeld

/-! ## FORMAT (R161) -/

/-- FORMAT's checks. -/
def Device.formatChecks (d : Device) : List (Bool × Status) :=
  [ (d.level = .final, .locked), (d.generation = some Config.maxWord, .locked) ]

/-- FORMAT's step; under WARNING it ends before its first request is granted (R167). -/
def Device.startFormat (c : Ctx) (d : Device) : Device :=
  match firstRefusal d.formatChecks with
  | some status => d.endCommand status 0
  | none => if c.warning then d.formatTaken.formatPowerEnd else d.formatTaken

/-! ## RAISE_LOCK (R171, R172) -/

/-- RAISE_LOCK's refusing checks. -/
def Device.raiseLockChecks (d : Device) (q : Descriptor) : List (Bool × Status) :=
  [ (2 < q.argument.toNat, .badArgument), (q.argument.toNat ≤ d.level.number, .badArgument) ]

/-- Whether the Reclaim Engine holds a lock record repair (R178). -/
def Device.repairing (d : Device) : Bool :=
  match d.reclaim.job with
  | .lockRepair _ => true
  | _ => false

/-- RAISE_LOCK's step, and its checks again at the end of a repair: refused, waiting for a repair, or its record placed. Under WARNING it
waits for no repair (R184). -/
def Device.startRaiseLock (c : Ctx) (d : Device) (x : Executing) : Device :=
  match firstRefusal (d.raiseLockChecks x.desc) with
  | some status => d.endCommand status 0
  | none =>
    if d.repairing then (if c.warning then d.endCommand .powerAbort 0 else d.setStage .repairWait)
    else d.commandPlace c (Writer.fresh (lockRecord x.desc.argument.toNat))

/-! ## Taking a command (R74, R75, R111) -/

/-- The general checks (R74). -/
def Device.generalChecks (c : Ctx) (d : Device) (code : CommandCode) : List (Bool × Status) :=
  [ (c.warning, .powerAbort),
    (d.store = .blank && code ≠ .format, .notFormatted),
    (d.store = .degraded && code.readOnlyRefused, .readOnly) ]

/-- Whether a command taken now is a member command (R111). -/
def Device.takenAsMember (d : Device) (code : CommandCode) : Bool :=
  code.joinsGroup && d.group.any fun g => g.state = .opened

/-- What the engine takes with a command (R73, R110). -/
def Device.takes (c : Ctx) (d : Device) (p : Posted) : Taken :=
  { payload := if p.code = .write then d.writePayload p.desc else [], timeout := c.cfg.groupTimeout }

/-- A posted command as the engine executes it. -/
def Device.taken (c : Ctx) (d : Device) (p : Posted) : Executing :=
  { code := p.code, desc := p.desc, detached := false, member := d.takenAsMember p.code, stage := .checking (d.takes c p), format := none }

/-- The command's own checks and the first step of its work, with what the engine took. -/
def Device.startCommand (c : Ctx) (d : Device) (x : Executing) (t : Taken) : Device :=
  match x.code with
  | .read => d.startRead x
  | .write => d.startWrite c x t.payload
  | .delete => d.startDelete c x
  | .add => d.startAdd c x
  | .list => d.startList x
  | .openGroup => d.startOpenGroup c x t.timeout
  | .commitGroup => d.startCommitGroup c
  | .dropGroup => d.startDropGroup
  | .reclaim => d.startReclaim c x
  | .format => d.startFormat c
  | .raiseLock => d.startRaiseLock c x

/-- The Command Engine takes the head of the queue and makes the general checks (R74): IDLE, and the store not MOUNTING. -/
def Device.takeHead (c : Ctx) (d : Device) : Device :=
  match d.ex, d.queue with
  | none, p :: rest =>
    if d.store = .mounting then d
    else
      let e := { d with queue := rest, ex := some (d.taken c p) }
      match firstRefusal (e.generalChecks c p.code) with
      | some status => e.endCommand status 0
      | none => e.closeGroup p.code
  | _, _ => d

/-- The step of a command that was taken. -/
def Device.makeStep (c : Ctx) (d : Device) : Device :=
  match d.ex with
  | none => d
  | some x =>
    match x.stage with
    | .checking t => d.startCommand c x t
    | _ => d

/-- The Command Engine takes the head of the queue and makes its step (R74). -/
def Device.takeCommand (c : Ctx) (d : Device) : Device := (d.takeHead c).makeStep c

end Sys2Proof.Machine
end

