-- ==== Sys2Proof/Machine/ReclaimRecord.lean ====
section
/-! DEFINITION. What the Reclaim Engine's appended records share (R133, R141, R142, R145, R178): placing, opening, failing, halting,
and giving up under the power warning (R146, R147). -/
namespace Sys2Proof.Machine
open Sys2Proof

/-- The record that a job places or programs. -/
def ReclaimJob.writer : ReclaimJob → Option Writer
  | .bankMap w => some w
  | .lockRepair w => some w
  | .copy c => some c.writer
  | .idle => none
  | .erase _ => none
  | .eraseHeader _ _ => none
  | .blankHeader _ _ => none
  | .planRead => none
  | .copyRead _ => none
  | .retire => none
  | .halted _ => none

/-- A job with its record changed. -/
def ReclaimJob.withWriter (w : Writer) : ReclaimJob → ReclaimJob
  | .bankMap _ => .bankMap w
  | .lockRepair _ => .lockRepair w
  | .copy c => .copy { c with writer := w }
  | j => j

/-- The device with the stage of the engine's record set. -/
def Device.setWriter (d : Device) (w : Writer) : Device := d.setJob (d.reclaim.job.withWriter w)

/-- The command that holds the RECLAIM request ends, and the request is removed (R136): a victim chosen for it answers no later one. -/
def Device.answerReclaim (d : Device) (status : Status) (result : Nat) : Device :=
  match d.reclaim.request, d.ex with
  | some _, some x =>
    let d := d.mapReclaim fun r =>
      { r with request := none, victim := r.victim.map fun v => { v with forRequest := false } }
    match x.stage with
    | .reclaimHeld => d.endCommand status result
    | _ => d
  | _, _ => d

/-- The engine becomes HALTED with cause FAULT (R146): the store DEGRADED, a held request answered 0xFF, or POWER_ABORT under
WARNING (R184). -/
def Device.reclaimHalt (c : Ctx) (d : Device) : Device :=
  let d := (d.setJob (.halted .fault)).degrade .reclaim
  if c.warning then d.answerReclaim .powerAbort 0 else d.answerReclaim .ok Config.anyBank

/-- The engine's record cannot be programmed: a copy halts the engine (R141, R145), a bank map raises BANK_MAP (R133), a lock
repair ends with its mark cleared (R178). -/
def Device.reclaimCannot (c : Ctx) (d : Device) : Device :=
  match d.reclaim.job with
  | .copy _ => d.reclaimHalt c
  | .bankMap _ => (d.setJob .idle).degrade .bankMap
  | .lockRepair _ => d.mapReclaim fun r => { r with job := .idle, repairDue := false }
  | _ => d

/-- The sequence counter exhausted, a bank map or lock repair ends without a record, cause SEQUENCE (R34, R133, R178). -/
def Device.reclaimOutOfSequences (d : Device) : Device :=
  (match d.reclaim.job with
    | .lockRepair _ => d.mapReclaim fun r => { r with job := .idle, repairDue := false }
    | .bankMap _ => d.setJob .idle
    | _ => d).degrade .sequence

/-- The engine's span is reserved in a bank and its header line requested (R37, R141). -/
def Device.reclaimReserve (d : Device) (w : Writer) (b : BankId) : Device :=
  if w.fixedSeq.isSome || d.sequenceLeft then
    let (r, d) := d.reserve w b
    (d.setWriter { w with stage := .programming r }).request .reclaim (lineRequest w r)
  else d.reclaimOutOfSequences

/-- The engine opens a bank for its span (R141, case 3); without an epoch left it does as in case 4. -/
def Device.reclaimOpen (c : Ctx) (d : Device) (w : Writer) (b : BankId) : Device :=
  if d.epochLeft then (d.setWriter { w with stage := .opening b d.nextEpoch }).beginOpen .reclaim b
  else d.epochExhausted.reclaimCannot c

/-- The engine places a span (R133, R141). -/
def Device.reclaimPlace (c : Ctx) (d : Device) (w : Writer) : Device :=
  if w.fixedSeq.isNone && !d.sequenceLeft then d.reclaimOutOfSequences
  else
    match d.fitting w.record.span with
    | some b => d.reclaimReserve w b
    | none =>
      if d.openMark.isSome then d.setWriter { w with stage := .waitOpen }
      else
        match d.freeToOpen with
        | some b => d.reclaimOpen c w b
        | none => d.reclaimCannot c

/-- A fault of the engine's record, the faulted bank already handled: placed again after the first, given up after the second
(R133, R145, R178). -/
def Device.reclaimFault (c : Ctx) (d : Device) (w : Writer) : Device :=
  if w.faulted then d.reclaimCannot c
  else (d.setWriter { w with faulted := true }).reclaimPlace c { w with faulted := true }

/-- The outcome of the open line program of the engine's own open (R141; DEDUCED, log entry 18). After a fault this
engine decides again before one that waited on the mark (R101, R145; DESIGN CHOICE, log entry 33). -/
def Device.reclaimOpened (c : Ctx) (d : Device) (w : Writer) (b : BankId) (epoch : Nat) (o : ProgramOutcome) : Device :=
  match o with
  | .ok => (d.openSucceeded b epoch false).reclaimReserve w b
  | .fault _ _ => (d.openFaulted b epoch false).reclaimFault c w

/-- The refused record of the engine is abandoned: a reserved span is dead, an open is withdrawn (R38, R101, R147). -/
def Device.reclaimAbandon (d : Device) (w : Writer) : Device :=
  match w.stage with
  | .opening _ _ => { d with openMark := none }
  | .programming r => d.abandonSpan w r
  | .waitOpen => d
  | .waitSpace => d

/-- A bank goes back to the head of the erase list as RETIRED (R131, R147). -/
def Device.eraseHeld (d : Device) (b : BankId) : Device :=
  (d.setBank b { d.bank b with state := .retired }).mapReclaim fun r =>
    { r with job := .idle, attempt := 0, eraseList := b :: r.eraseList }

/-- The engine's waiting request, or its erase, has outcome POWER: it holds its work (R147). -/
def Device.reclaimRefused (d : Device) : Device :=
  match d.reclaim.job with
  | .idle => d
  | .erase b => d.eraseHeld b
  | .eraseHeader b _ => d.eraseHeld b
  | .blankHeader _ _ => d.setJob .idle
  | .bankMap w => (d.reclaimAbandon w).mapReclaim fun r => { r with job := .idle, mapDue := true }
  | .lockRepair w => (d.reclaimAbandon w).setJob .idle
  | .planRead => d.setJob .idle
  | .copyRead _ => d.setJob .idle
  | .copy c => (d.reclaimAbandon c.writer).setJob .idle
  | .retire => d.setJob .idle
  | .halted _ => d

end Sys2Proof.Machine
end

