-- ==== Sys2Proof/Machine/CopyWalk.lean ====
section
/-! DEFINITION. The copy walk (section 7.4): the plan read, the decision at the cursor, the copy read, the copy's verify; and the
retire (section 7.5). -/
namespace Sys2Proof.Machine
open Sys2Proof

/-! ## The plan read (R138) -/

/-- How the engine judges a record of the victim against the tables (R29, R138). -/
def Device.walkVerdict (d : Device) (h : Header) : ScanVerdict → Verdict
  | .torn => .torn
  | .damaged => .damaged
  | .intact =>
    match h.gid with
    | none => .valid
    | some g => if d.committed g then .valid else if d.openGid = some g then .pending else .orphan

/-- The walk list of a parsed journal (R138). -/
def Device.walkList (d : Device) (records : List ScanRecord) : List WalkRecord :=
  records.map fun r => { line := r.line, header := r.header, verdict := d.walkVerdict r.header r.verdict }

/-- The valid records of a key in the walk list with a lower sequence than its entry's and not lower than its base (R138). -/
def lowerCount (walk : List WalkRecord) (e : DirEntry) : Nat :=
  (walk.filter fun r => r.verdict = .valid && r.header.key = e.key && e.base ≤ r.header.seq && r.header.seq < e.seq).length

/-- The valid records of a group in the walk list (R138). -/
def groupedCount (walk : List WalkRecord) (gid : Nat) : Nat :=
  (walk.filter fun r => r.verdict = .valid && r.header.gid = some gid).length

/-- The number that a list of counts gives. -/
def countOf {α : Type} [DecidableEq α] (counts : List (α × Nat)) (a : α) : Nat :=
  match counts with
  | [] => 0
  | (b, n) :: rest => if a = b then n else countOf rest a

/-- The plan of a victim from its parsed journal (R138): walk list, counts, cursor at the first record. -/
def Device.plan (d : Device) (v : Victim) (records : List ScanRecord) : Victim :=
  let walk := d.walkList records
  { v with
    point := .copying
    walk := walk
    cursor := 0
    committedSince := []
    lower := d.dir.map fun e => (e.key, lowerCount walk e)
    grouped := d.commits.map fun c => (c.gid, groupedCount walk c.gid) }

/-! ## The decision at the cursor (R139) -/

/-- What R139 decides for a record. -/
inductive WalkDecision where
  | copy (owner : CopyOwner)
  | pass
  | entryLoses
  | memberLoses
deriving DecidableEq, Repr

/-- Rows 6 and 7 of R139. -/
def Device.decideCommit (d : Device) (v : Victim) (loc : Location) : WalkDecision :=
  match d.commits.find? fun (c : CommitEntry) => c.loc = loc with
  | some c => if countOf v.grouped c.gid < c.remaining then .copy .commitTable else .pass
  | none => .pass

/-- Rows 4 to 7 of R139. -/
def Device.decideMember (d : Device) (v : Victim) (r : WalkRecord) (loc : Location) : WalkDecision :=
  match (d.member r.header.key).filter fun m => m.loc = some loc with
  | some m =>
    if m.state = .damaged then .memberLoses
    else if m.seq = r.header.seq then .copy .member
    else d.decideCommit v loc
  | none => d.decideCommit v loc

/-- The decision of R139, first row that applies. -/
def Device.decide (d : Device) (v : Victim) (r : WalkRecord) : WalkDecision :=
  let loc : Location := { bank := v.bank, line := r.line }
  match (d.entry r.header.key).filter fun e => e.loc = some loc with
  | some e =>
    match e.state with
    | .damaged => .entryLoses
    | .live => if e.seq = r.header.seq then .copy .directory else d.decideMember v r loc
    | .tombstone =>
      if e.seq = r.header.seq then
        if countOf v.lower e.key < e.stale then .copy .directory else .pass
      else d.decideMember v r loc
  | none => d.decideMember v r loc

/-- A Directory entry loses its location (R52, R139 row 3). -/
def Device.entryUnlocated (d : Device) (k : Key) : Device :=
  match d.entry k with
  | some e => d.putEntry { e with loc := none }
  | none => d

/-- A member entry loses its location (R113, R139 row 5). -/
def Device.memberUnlocated (d : Device) (k : Key) : Device :=
  d.mapGroup fun g => { g with members := mapMember k (fun m => { m with loc := none }) g.members }

/-- The cursor moves to the next record. -/
def Device.advanceCursor (d : Device) : Device := d.mapVictim fun v => { v with cursor := v.cursor + 1 }

/-- The walk is complete: the retire line's program is requested (R143). -/
def Device.beginRetire (d : Device) (v : Victim) : Device :=
  ((d.mapVictim fun v => { v with point := .retiring }).setJob .retire).request .reclaim
    (.program v.bank 2 (.retireLine ((d.bank v.bank).eraseCount.getD 0) 0))

/-- The engine reads a record that it is to copy (R140). -/
def Device.beginCopyRead (d : Device) (v : Victim) (r : WalkRecord) (owner : CopyOwner) : Device :=
  (d.setJob (.copyRead owner)).request .reclaim (.read v.bank r.line r.header.span)

/-- The walk from the record at the cursor on, until a record is to be copied or the last is passed (R139, R142). -/
def Device.walkOn (v : Victim) : List WalkRecord → Device → Device
  | [], d => d.beginRetire v
  | r :: rest, d =>
    match d.decide v r with
    | .copy owner => d.beginCopyRead v r owner
    | .pass => Device.walkOn v rest d.advanceCursor
    | .entryLoses => Device.walkOn v rest (d.entryUnlocated r.header.key).advanceCursor
    | .memberLoses => Device.walkOn v rest (d.memberUnlocated r.header.key).advanceCursor

/-- The walk goes on from the victim's cursor. -/
def Device.walk (d : Device) : Device :=
  match d.reclaim.victim with
  | some v => Device.walkOn v (v.walk.drop v.cursor) d
  | none => d

/-- The plan read's lines have come (R138): the victim is planned and the walk begins. Under WARNING a read that was in progress at its
entry ends too (R16), but the victim was SELECTING at the warning: it is held so, and its plan read is made again (R147, R186; DEDUCED,
log entry 30). -/
def Device.planned (c : Ctx) (d : Device) (lines : List Line) : Device :=
  if c.warning then d.setJob .idle
  else
    ({ d with
        reclaim := { d.reclaim with victim := d.reclaim.victim.map fun v => d.plan v (parseJournal lines).records } }).walk

/-! ## The copy read (R140) -/

/-- A record at a Directory entry's location is found damaged (R52, R140); for 0xFF01 the repair mark is set (R177). -/
def Device.entryFoundDamaged (d : Device) (k : Key) (loc : Location) : Device :=
  match (d.entry k).filter fun e => e.loc = some loc with
  | none => d
  | some _ =>
    let d := (d.damageEntry k).entryUnlocated k
    if k = Config.lockKey then d.mapReclaim fun r => { r with repairDue := true } else d

/-- A record at a member entry's location is found damaged (R113, R140). -/
def Device.memberFoundDamaged (d : Device) (k : Key) (loc : Location) : Device :=
  match (d.member k).filter fun m => m.loc = some loc with
  | none => d
  | some _ => (d.damageMember k loc).memberUnlocated k

/-- The copy of a record (R140): the header's fields, with the group id kept for a member's record only, and the payload. -/
def copyRecord (h : Header) (owner : CopyOwner) (payload : List Byte) : RecordSpec :=
  { key := h.key, kind := h.kind, cls := h.cls, payload := payload, gid := if owner = .member then h.gid else none }

/-- The engine assembles a copy and places it (R140, R141). -/
def Device.beginCopy (c : Ctx) (d : Device) (r : WalkRecord) (owner : CopyOwner) (payload : List Byte) : Device :=
  let w : Writer :=
    { record := copyRecord r.header owner payload, fixedSeq := some r.header.seq, faulted := false, stage := .waitOpen }
  (d.setJob (.copy { line := r.line, header := r.header, owner := owner, writer := w })).reclaimPlace c w

/-- A COMMIT record found damaged is rebuilt from its Commit Table entry and copied; a record that no entry of the Commit Table names is
passed (R140). -/
def Device.rebuildCommit (c : Ctx) (d : Device) (r : WalkRecord) (loc : Location) : Device :=
  match d.commits.find? fun (e : CommitEntry) => e.loc = loc with
  | some e => d.beginCopy c r .commitTable (commitRecord e.gid e.memberCount).payload
  | none => d.advanceCursor.walk

/-- A record that was to be copied is found damaged (R140): the tables that name its location now are acted on, whatever table named
it when the walk decided to copy it. -/
def Device.copyFoundDamaged (c : Ctx) (d : Device) (v : Victim) (r : WalkRecord) : Device :=
  let loc : Location := { bank := v.bank, line := r.line }
  (((d.markWalkDamaged loc).entryFoundDamaged r.header.key loc).memberFoundDamaged r.header.key loc).rebuildCommit c r loc

/-- The copy read's lines have come (R140). -/
def Device.copyReadDone (c : Ctx) (d : Device) (owner : CopyOwner) (lines : List Line) : Device :=
  match d.reclaim.victim with
  | none => d
  | some v =>
    match v.walk[v.cursor]? with
    | none => d
    | some r =>
      match recordPayload r.line lines with
      | some payload => d.beginCopy c r owner payload
      | none => d.copyFoundDamaged c v r

/-! ## The copy's verify (R142) -/

/-- A copy's commit line verified: the rule of its owner is applied (R50, R123, R125, R142). -/
def Device.copyVerified (d : Device) (v : Victim) (cj : CopyJob) (r : Reservation) : Device :=
  let original : Location := { bank := v.bank, line := cj.line }
  let copy : Location := { bank := r.bank, line := r.line }
  match cj.owner with
  | .directory => d.copyTakesOver cj.header original copy
  | .member => d.memberCopyVerifies cj.header (cj.header.gid.getD 0) original copy
  | .commitTable => d.commitCopyVerifies original copy

/-- The record of the engine commits: a bank map or lock record as R49 gives (R133, R178), a copy as R142 gives. -/
def Device.reclaimCommit (d : Device) (w : Writer) (r : Reservation) : Device :=
  let c : Committed :=
    { key := w.record.key, cls := w.record.cls, state := .live, loc := some { bank := r.bank, line := r.line },
      length := w.record.payload.length, seq := r.seq, newBase := r.seq, increment := 0 }
  match d.reclaim.job with
  | .bankMap _ => (d.commitEntry c).setJob .idle
  | .lockRepair _ => (d.commitEntry c).mapReclaim fun x => { x with job := .idle, repairDue := false }
  | .copy cj =>
    match d.reclaim.victim with
    | some v => (d.copyVerified v cj r).advanceCursor.walk
    | none => d
  | _ => d

/-- The outcome of a line program of the engine's record (R133, R142, R145, R178). -/
def Device.reclaimLine (c : Ctx) (d : Device) (w : Writer) (r : Reservation) (o : ProgramOutcome) : Device :=
  match lineVerdict w r o with
  | .next r' => (d.setWriter { w with stage := .programming r' }).request .reclaim (lineRequest w r')
  | .committed faulted => (if faulted then d.faultBank r.bank else d).reclaimCommit w r
  | .fault => ((d.abandonSpan w r).faultBank r.bank).reclaimFault c w

/-! ## The retire (R55, R124, R125, R143) -/

/-- Whether a walked record counts as valid at the retire: judged valid, or pending with its group committed since (R124). One that the
copy walk found damaged, or an ADD at a member entry's location, has the verdict damaged (`markWalkDamaged`); one that a READ or an ADD
found damaged at a Directory entry's location keeps its verdict (R125; DEDUCED, log entry 29). -/
def Victim.validAtRetire (v : Victim) (r : WalkRecord) : Bool :=
  r.verdict = .valid || (r.verdict = .pending && r.header.gid.any v.committedSince.contains)

/-- The decrement of R55 step 1 for one record, as the walk judged it (R54). For a record that a READ or an ADD found damaged after the
plan judged it valid, the copy count may be 0, and stays 0; and where a commit has replaced its DAMAGED entry since, the stale count, which
never counted it (R49), falls all the same (DEDUCED, log entry 29). -/
def Device.retireRecord (d : Device) (bank : BankId) (r : WalkRecord) : Device :=
  match d.entry r.header.key with
  | none => d
  | some e =>
    if e.loc = some { bank := bank, line := r.line } then d
    else if e.base ≤ r.header.seq ∧ r.header.seq < e.seq then d.putEntry { e with stale := e.stale - 1 }
    else if r.header.seq = e.seq then d.putEntry { e with copies := e.copies - 1 }
    else d

/-- Whether the retire removes an entry (R55 step 2). -/
def DirEntry.spentTombstone (e : DirEntry) : Bool := e.state = .tombstone && e.stale = 0

/-- The lines of a removed tombstone become dead, unless they leave with the victim (R55, R59). -/
def Device.tombstoneDead (d : Device) (victim : BankId) (e : DirEntry) : Device :=
  match e.loc with
  | some loc => if loc.bank = victim then d else d.addDead loc.bank 2
  | none => d

/-- R55 for a victim's records. -/
def Device.retireDirectory (d : Device) (bank : BankId) (valid : List WalkRecord) : Device :=
  let d := valid.foldl (fun d r => d.retireRecord bank r) d
  let spent := d.dir.filter DirEntry.spentTombstone
  let d := { d with dir := d.dir.filter fun e => !e.spentTombstone }
  spent.foldl (fun d e => d.tombstoneDead bank e) d

/-- A pending record of the open group leaves with its bank: a lower sequence than its member's lowers the stale increment
(R124). -/
def GroupContext.retireRecord (g : GroupContext) (r : WalkRecord) : GroupContext :=
  { g with
    members := mapMember r.header.key
      (fun m => if r.header.seq < m.seq then { m with staleIncrement := m.staleIncrement - 1 } else m) g.members }

/-- R124 for a victim's records; the moved-member list is emptied. Every record of the group in the victim leaves the tagged-records
count, also one that the walk judged damaged and that no table named; such a superseded record stays in its member's stale increment
(DEDUCED, log entry 32). -/
def Device.retireGroup (d : Device) (bank : BankId) (walk : List WalkRecord) : Device :=
  let d := d.mapGroup fun g =>
    let pending := walk.filter fun r => r.verdict = .pending && r.header.gid = some g.id
    let g := pending.foldl GroupContext.retireRecord g
    { g with records := g.records.filter fun l => l.bank ≠ bank }
  d.mapReclaim fun r => { r with moved := [] }

/-- R125 for a victim's records: remaining falls, and an entry at 0 is removed. So is an entry whose COMMIT record lies in the victim,
which the walk passed under row 6 of R139: after the retire no table names the victim (R143), even where a record of the group that the
plan counted has since been found damaged and remaining stays above 0 (DEDUCED, log entry 34). -/
def Device.retireCommits (d : Device) (bank : BankId) (valid : List WalkRecord) : Device :=
  let left := d.commits.map fun c =>
    { c with remaining := c.remaining - (valid.filter fun r => r.header.gid = some c.gid).length }
  let gone := left.filter fun c => c.remaining = 0 && c.loc.bank ≠ bank
  let d := { d with commits := left.filter fun c => c.remaining ≠ 0 && c.loc.bank ≠ bank }
  gone.foldl (fun d c => d.addDead c.loc.bank 3) d

/-- Whether the retire of a victim answers the held RECLAIM request (R136). -/
def answersRequest (v : Victim) : Option Nat → Bool
  | none => false
  | some n => if n = Config.anyBank then v.forRequest else n = v.bank.val

/-- The retire line verified (R143, in its order). -/
def Device.retired (d : Device) (v : Victim) : Device :=
  let d := (d.emptyInto v.bank .retired).mapReclaim fun r => { r with eraseList := r.eraseList ++ [v.bank] }
  let valid := v.walk.filter v.validAtRetire
  let d := d.retireDirectory v.bank valid
  let d := d.retireGroup v.bank v.walk
  let d := d.retireCommits v.bank valid
  let d := if answersRequest v d.reclaim.request then d.answerReclaim .ok v.bank.val else d
  d.mapReclaim fun r => { r with victim := none, job := .idle }

/-- The outcome of the retire line program (R143, R144). -/
def Device.retireOutcome (c : Ctx) (d : Device) (o : ProgramOutcome) : Device :=
  match d.reclaim.victim with
  | none => d
  | some v =>
    match o with
    | .ok => d.retired v
    | .fault _ _ => (d.markSuspect v.bank).reclaimHalt c

end Sys2Proof.Machine
end

