-- ==== Sys2Proof/Machine/ReclaimWork.lean ====
section
/-! DEFINITION. The Reclaim Engine's choice of work (R128) and its erasing (R129 to R133), its choice of a victim (R134, R135), the
no-space report (R137), the lock repair (R177, R178), and what it does with the outcomes of its flash requests. -/
namespace Sys2Proof.Machine
open Sys2Proof

/-! ## Erasing (R130 to R133) -/

/-- The bank map is decided (R133): too few usable banks or too many BAD ones raise BANKS, else a bank map record is placed. -/
def Device.decideMap (c : Ctx) (d : Device) : Device :=
  let d := d.setJob .idle
  if d.mapImpossible then d.degrade .banks
  else
    let w := ({ record := mapRecord (d.banksIn .bad), fixedSeq := none, faulted := false, stage := .waitOpen } : Writer)
    (d.setJob (.bankMap w)).reclaimPlace c w

/-- A due bank map is taken up, its mark cleared (R133, R157). -/
def Device.takeMap (c : Ctx) (d : Device) : Device := (d.mapReclaim fun r => { r with mapDue := false }).decideMap c

/-- The header of a bank, as the engine programs it (R3, R63). -/
def Device.headerLine (d : Device) (b : BankId) : Line := .bankHeader (d.generation.getD 0) (d.nextEraseCount b) 0

/-- A BLANK bank's header is requested (R130). -/
def Device.beginBlankHeader (d : Device) (b : BankId) : Device :=
  (d.setJob (.blankHeader b (d.nextEraseCount b))).request .reclaim (.program b 0 (d.headerLine b))

/-- The outcome of a BLANK bank's header program (R130). -/
def Device.blankHeaderDone (d : Device) (b : BankId) (count : Nat) (o : ProgramOutcome) : Device :=
  match o with
  | .ok => (d.makeFree b count).setJob .idle
  | .fault _ _ =>
    ((d.emptyInto b .retired).markSuspect b).mapReclaim fun r => { r with job := .idle, eraseList := r.eraseList ++ [b] }

/-- The head of the erase list is taken for erase (R131). -/
def Device.beginErase (d : Device) (b : BankId) (rest : List BankId) : Device :=
  ((d.setBank b { d.bank b with state := .erasing }).mapReclaim fun r =>
    { r with eraseList := rest, attempt := 0, job := .erase b }).request .reclaim (.erase b)

/-- A failed attempt (R132): the first erases the bank again, the second makes it BAD and the bank map is decided. -/
def Device.eraseFailed (c : Ctx) (d : Device) (b : BankId) : Device :=
  if d.reclaim.attempt = 0 then
    (d.mapReclaim fun r => { r with attempt := 1, job := .erase b }).request .reclaim (.erase b)
  else ((d.emptyInto b .bad).mapReclaim fun r => { r with attempt := 0 }).decideMap c

/-- The outcome of the engine's bank erase (R131, R132). -/
def Device.eraseDone (c : Ctx) (d : Device) (b : BankId) (ok : Bool) : Device :=
  if ok then
    (d.setJob (.eraseHeader b (d.nextEraseCount b))).request .reclaim (.program b 0 (d.headerLine b))
  else d.eraseFailed c b

/-- The outcome of the header program after an erase (R131, R132). -/
def Device.eraseHeaderDone (c : Ctx) (d : Device) (b : BankId) (count : Nat) (o : ProgramOutcome) : Device :=
  match o with
  | .ok => (d.makeFree b count).mapReclaim fun r => { r with attempt := 0, job := .idle }
  | .fault _ _ => (d.markSuspect b).eraseFailed c b

/-! ## Choosing a victim (R134, R135) -/

/-- Whether the Command Engine holds an unfinished reservation in a bank (R135); the Reclaim Engine, at its choice, holds none. -/
def Device.reservedIn (d : Device) (b : BankId) : Bool :=
  match d.ex with
  | none => false
  | some x =>
    match x.stage with
    | .writing w =>
      match w.stage with
      | .programming r => r.bank = b
      | _ => false
    | _ => false

/-- A bank that qualifies as a victim (R135). -/
def Device.qualifies (d : Device) (b : BankId) : Bool := (d.bank b).state = .full && !d.reservedIn b

/-- More of a count, then the lower erase count; the earlier bank otherwise (R135, Ties). -/
def moreThenLessWorn (count : BankEntry → Nat) (d : Device) (a b : BankId) : Bool :=
  count (d.bank b) < count (d.bank a) ||
    (count (d.bank a) = count (d.bank b) && (d.bank a).wear < (d.bank b).wear)

/-- Among these banks: the suspect one with the most dead lines if any is suspect, else the one with the most dead lines (R135). -/
def Device.mostDead (d : Device) (banks : List BankId) : Option BankId :=
  (pick (moreThenLessWorn BankEntry.dead d) (banks.filter fun b => (d.bank b).suspect)).or
    (pick (moreThenLessWorn BankEntry.dead d) banks)

/-- The victim under trigger b): any dead line qualifies (R135). -/
def Device.urgentVictim (d : Device) : Option BankId :=
  d.mostDead (allBanks.filter fun b => d.qualifies b && 1 ≤ (d.bank b).dead)

/-- The victim under trigger a), and e) with 0xFF: suspect with a dead line, or at least 18 dead lines (R135). -/
def Device.spaceVictim (d : Device) : Option BankId :=
  d.mostDead (allBanks.filter fun b =>
    d.qualifies b && (((d.bank b).suspect && 1 ≤ (d.bank b).dead) || Config.deadThreshold ≤ (d.bank b).dead))

/-- The victim under trigger d): the highest tagged count, at least 1 (R135). -/
def Device.pressureVictim (d : Device) : Option BankId :=
  pick (moreThenLessWorn BankEntry.tagged d) (allBanks.filter fun b => d.qualifies b && 1 ≤ (d.bank b).tagged)

/-- The erase counts of the usable banks (R63). -/
def Device.usableCounts (d : Device) : List Nat := d.usable.filterMap fun b => (d.bank b).eraseCount

/-- The least of these numbers, 0 if there are none. -/
def least : List Nat → Nat
  | [] => 0
  | n :: ns => ns.foldl min n

/-- The wear spread (R63). -/
def Device.wearSpread (d : Device) : Nat := highest d.usableCounts - least d.usableCounts

/-- The victim under trigger c): the FULL bank with the lowest erase count of the usable banks, lower index first (R135). -/
def Device.wearVictim (d : Device) : Option BankId :=
  (allBanks.filter fun b => d.qualifies b && (d.bank b).eraseCount = some (least d.usableCounts)).head?

/-- The victim under trigger e) (R135): the named bank, or for 0xFF the choice of trigger a). -/
def Device.requestVictim (d : Device) (n : Nat) : Option BankId :=
  if n = Config.anyBank then d.spaceVictim else if d.qualifies (bankOf n) then some (bankOf n) else none

/-- Trigger a) (R134). -/
def Device.spaceTrigger (c : Ctx) (d : Device) : Option BankId :=
  if d.freeCount ≤ c.cfg.startThreshold then d.spaceVictim else none

/-- Triggers d) and then c), acted on while the urgent mark is clear (R134). -/
def Device.quietTriggers (c : Ctx) (d : Device) : Option BankId :=
  if d.urgent then none
  else
    (if Config.commitPressure ≤ d.commits.length then d.pressureVictim else none).or
      (if c.cfg.wearGap < d.wearSpread then d.wearVictim else none)

/-- The victim of the first trigger that has a qualifying bank, and whether it is chosen for a RECLAIM request with 0xFF
(R134, R136). -/
def Device.chooseVictim (c : Ctx) (d : Device) : Option (BankId × Bool) :=
  if d.causes.commit then none
  else
    let first :=
      if d.urgent then d.urgentVictim.map fun b => (b, false)
      else d.reclaim.request.bind fun n => (d.requestVictim n).map fun b => (b, n = Config.anyBank)
    first.or (((d.spaceTrigger c).or (d.quietTriggers c)).map fun b => (b, false))

/-- A FULL bank becomes the victim and its plan read is requested (R138). -/
def Device.beginVictim (d : Device) (b : BankId) (forRequest : Bool) : Device :=
  ((d.setBank b { d.bank b with state := .reclaiming }).mapReclaim fun r =>
    { r with
      job := .planRead
      victim := some
        { bank := b, point := .selecting, walk := [], cursor := 0, lower := [], grouped := [], forRequest := forRequest
          committedSince := [] } }).request
    .reclaim (.read b Config.journalStart Config.journalLines)

/-- The held victim is resumed from its held point (R147, R186): one that was SELECTING at the warning has its plan read made again. -/
def Device.resumeVictim (d : Device) (v : Victim) : Device :=
  match v.point with
  | .selecting => (d.setJob .planRead).request .reclaim (.read v.bank Config.journalStart Config.journalLines)
  | .copying => d.walk
  | .retiring => d.beginRetire v

/-- A RECLAIM with 0xFF for which no bank qualifies ends OK with 0xFF (R136; DESIGN CHOICE, log entry 24). -/
def Device.answerNone (d : Device) : Device :=
  if d.reclaim.request = some Config.anyBank ∧ d.spaceVictim.isNone then d.answerReclaim .ok Config.anyBank else d

/-! ## The no-space report (R137) -/

/-- The span the Command Engine waits with (R78). -/
def Device.waitingSpan (d : Device) : Option Nat :=
  match d.ex with
  | none => none
  | some x =>
    match x.stage with
    | .writing w =>
      match w.stage with
      | .waitSpace => some w.record.span
      | _ => none
    | _ => none

/-- Whether a span can be placed by case 1 or 3 of R104. -/
def Device.placeable (d : Device) (span : Nat) : Bool :=
  (d.fitting span).isSome || (d.openMark.isNone && Config.commandReserve ≤ d.freeCount)

/-- The report ends the waiting command with NO_SPACE when no space can be made (R137). -/
def Device.reportNoSpace (d : Device) : Device :=
  match d.waitingSpan with
  | some span =>
    if d.reclaim.eraseList.isEmpty && !((d.banksIn .blank).any fun _ => d.generation.isSome) &&
        ((d.banksIn .full).all fun b => (d.bank b).dead = 0) && !d.placeable span && d.openMark.isNone then
      d.endCommand .noSpace 0
    else d
  | none => d

/-! ## The lock repair (R177, R178) -/

/-- Whether the Command Engine executes a RAISE_LOCK that has passed its level check (R177). -/
def Device.raising (d : Device) : Bool := d.ex.any fun x => x.code = .raiseLock

/-- The lock repair is begun (R178). -/
def Device.beginRepair (c : Ctx) (d : Device) : Device :=
  let w : Writer := { record := lockRecord d.level.number, fixedSeq := none, faulted := false, stage := .waitOpen }
  (d.setJob (.lockRepair w)).reclaimPlace c w

/-- Whether the entry of 0xFF01 still wants repair (R177). -/
def Device.lockDamaged (d : Device) : Bool := (d.entry Config.lockKey).any fun e => e.state = .damaged

/-! ## Taking up work (R128) -/

/-- Kinds 5 and 6 of R128, and a held victim ahead of them (R147; DEDUCED, log entry 21). -/
def Device.takeVictim (c : Ctx) (d : Device) : Device :=
  match d.reclaim.victim with
  | some v => d.resumeVictim v
  | none =>
    match d.answerNone.chooseVictim c with
    | some (b, forRequest) => d.answerNone.beginVictim b forRequest
    | none => d.answerNone.reportNoSpace

/-- Kinds 3 to 6 of R128. -/
def Device.takeErase (c : Ctx) (d : Device) : Device :=
  match (d.banksIn .blank).filter fun _ => d.generation.isSome with
  | b :: _ => d.beginBlankHeader b
  | [] =>
    match d.reclaim.eraseList with
    | b :: rest => d.beginErase b rest
    | [] => d.takeVictim c

/-- Kind 2 of R128, then the rest (R177; DEDUCED, log entry 17). -/
def Device.takeRepair (c : Ctx) (d : Device) : Device :=
  if d.reclaim.repairDue then
    if !d.lockDamaged then (d.mapReclaim fun r => { r with repairDue := false }).takeErase c
    else if d.raising then d
    else d.beginRepair c
  else d.takeErase c

/-- The IDLE engine takes up the first kind of work that is present (R128); while FORMATTING it only finishes its victim (R161)
(DEDUCED, log entry 21). -/
def Device.takeWork (c : Ctx) (d : Device) : Device :=
  if c.warning ∨ d.reclaim.job ≠ .idle then d
  else
    match d.store with
    | .mounting => d
    | .blank => d
    | .formatting =>
      match d.reclaim.victim with
      | some v => d.resumeVictim v
      | none => d
    | .ready => if d.reclaim.mapDue then d.takeMap c else d.takeRepair c
    | .degraded => if d.reclaim.mapDue then d.takeMap c else d.takeRepair c

/-! ## Outcomes -/

/-- The Reclaim Engine receives the outcome of its line program. -/
def Device.reclaimProgrammed (c : Ctx) (d : Device) (o : ProgramOutcome) : Device :=
  match d.reclaim.job with
  | .eraseHeader b count => d.eraseHeaderDone c b count o
  | .blankHeader b count => d.blankHeaderDone b count o
  | .retire => d.retireOutcome c o
  | j =>
    match j.writer with
    | none => d
    | some w =>
      match w.stage with
      | .opening b epoch => d.reclaimOpened c w b epoch o
      | .programming r => d.reclaimLine c w r o
      | .waitOpen => d
      | .waitSpace => d

/-- The Reclaim Engine receives the lines of its read. -/
def Device.reclaimRead (c : Ctx) (d : Device) (lines : List Line) : Device :=
  match d.reclaim.job with
  | .planRead => d.planned c lines
  | .copyRead owner => d.copyReadDone c owner lines
  | _ => d

/-- The Reclaim Engine receives the outcome of its erase. -/
def Device.reclaimErased (c : Ctx) (d : Device) (ok : Bool) : Device :=
  match d.reclaim.job with
  | .erase b => d.eraseDone c b ok
  | _ => d

end Sys2Proof.Machine
end

