-- ==== Sys2Proof/Machine/Settle.lean ====
section
/-! DEFINITION. The end of every step: refusals under the power warning (R16), waits that an event has ended (R78, R104, R105, R141,
R161, R171), and the arbiter's grants (R13); and the outcomes of the Command Engine's flash requests. -/
namespace Sys2Proof.Machine
open Sys2Proof

/-- Under WARNING the waiting requests are refused with outcome POWER, and each requester acts on it (R16, R147, R160, R182). -/
def Device.refuseWaiting (c : Ctx) (d : Device) : Device :=
  if c.warning then
    let d := if d.fc.waitCommand.isSome then ({ d with fc := d.fc.unwait .command }).commandRefused else d
    let d := if d.fc.waitReclaim.isSome then ({ d with fc := d.fc.unwait .reclaim }).reclaimRefused else d
    if d.fc.waitMount.isSome then ({ d with fc := d.fc.unwait .mount }).stopMount else d
  else d

/-- The Reclaim Engine places again a span that waited for an open whose outcome has come (R141 case 2). -/
def Device.wakeReclaim (c : Ctx) (d : Device) : Device :=
  match d.reclaim.job.writer with
  | some w =>
    match w.stage with
    | .waitOpen => if d.openMark.isNone then d.reclaimPlace c w else d
    | _ => d
  | none => d

/-- The Command Engine goes on from a wait that an event has ended: an open's outcome (R104), space (R105), the end of a lock repair
(R171), the Reclaim Engine's stop (R161; DEDUCED, log entry 20). -/
def Device.wakeCommand (c : Ctx) (d : Device) : Device :=
  match d.ex with
  | none => d
  | some x =>
    match x.stage with
    | .writing w =>
      match w.stage with
      | .waitOpen => if d.openMark.isNone then d.commandPlace c w else d
      | .waitSpace => if d.placeable w.record.span then d.commandPlace c w else d
      | _ => d
    | .repairWait => if d.repairing then d else d.startRaiseLock c x
    | .formatWait =>
      match x.format with
      | some f => d.formatWaits f
      | none => d
    | _ => d

/-- The end of a step. Of two engines that an event lets go on, the opener has decided inside the outcome, and the Reclaim Engine is
woken before the Command Engine (DESIGN CHOICE, log entry 33). The grants fall in the step of the outcome, and the next queued command is
taken in a later one: at the end of a command's last flash request a waiting Reclaim Engine request is granted ahead of the next command's
first (DESIGN CHOICE, log entry 41). -/
def Device.settle (c : Ctx) (d : Device) : Device :=
  (((d.refuseWaiting c).wakeReclaim c).wakeCommand c |>.refuseWaiting c).arbitrate c

/-- The Command Engine receives the outcome of its line program. -/
def Device.commandProgrammed (c : Ctx) (d : Device) (o : ProgramOutcome) : Device :=
  match d.ex with
  | none => d
  | some x =>
    match x.stage, x.format with
    | .writing w, _ =>
      match w.stage with
      | .opening b epoch => d.commandOpened c x w b epoch o
      | .programming r => d.commandLine c x w r o
      | _ => d
    | .formatHeader b again count, some f => d.formatHeadered c f b again count o
    | _, _ => d

/-- The Command Engine receives the outcome of its erase (R164). -/
def Device.commandErased (c : Ctx) (d : Device) (ok : Bool) : Device :=
  match d.ex with
  | none => d
  | some x =>
    match x.stage, x.format with
    | .formatErase b again, some f => d.formatErased c f b again ok
    | _, _ => d

/-- The outcome of a line program reaches its requester (R7). -/
def Device.programmed (c : Ctx) (d : Device) (who : Requester) (o : ProgramOutcome) : Device :=
  match who with
  | .command => d.commandProgrammed c o
  | .reclaim => d.reclaimProgrammed c o
  | .mount => d

/-- The lines of a read reach their requester (R9). -/
def Device.readLines (c : Ctx) (d : Device) (who : Requester) (lines : List Line) : Device :=
  match who with
  | .command => d.commandRead c lines
  | .reclaim => d.reclaimRead c lines
  | .mount => d.mountRead lines

/-- The outcome of an erase reaches its requester (R8). -/
def Device.erased (c : Ctx) (d : Device) (who : Requester) (ok : Bool) : Device :=
  match who with
  | .command => d.commandErased c ok
  | .reclaim => d.reclaimErased c ok
  | .mount => d

/-- What the engines read beside the device (`Ctx`). -/
def State.ctx (s : State) : Ctx := { cfg := s.cfg, warning := s.power.warning }

/-- The state after an event of the engines and the end of its step. -/
def State.engines (s : State) (f : Device → Device) : State := { s with dev := (f s.dev).settle s.ctx }

end Sys2Proof.Machine
end

