-- ==== Sys2Proof/Machine/FlashOutcomes.lean ====
section
/-! DEFINITION. The ends of the flash operations (R7, R8, R9), payload decay (R2), and the moments at which an IDLE engine takes up its
work (R74, R128): the meanings of LINE_PROGRAM_OUTCOME, BANK_ERASE_OUTCOME, MULTI_LINE_READ_OUTCOME, PAYLOAD_DECAY, TAKE_COMMAND and
RECLAIM_TAKE_UP_WORK. -/
namespace Sys2Proof.Machine
open Sys2Proof

/-- What the target line of a program reads when the operation ends (R7): a line that was not erased is left as it was. -/
def programReads (before data : Line) (result : LineRead) : Line := if before.isErased then readsAs data result else before

/-- The outcome of a line program (R7): OK when the line was erased and reads as requested. -/
def programOutcome (before data : Line) (result : LineRead) : ProgramOutcome :=
  if before.isErased ∧ readsAs data result = data then .ok else .fault (programReads before data result) (!before.isErased)

/-- The controller without its read or program. -/
def Device.opDone (d : Device) : Device := { d with fc := { d.fc with op := none } }

/-- The controller without its erase. -/
def Device.eraseOver (d : Device) : Device := { d with fc := { d.fc with erase := none, decided := none } }

/-- LINE_PROGRAM_OUTCOME: an event only while a line program is in progress (R7; DESIGN CHOICE, log entry 6). -/
def execLineProgramOutcome (result : LineRead) (s : State) : Host.Outcome State Fault Refusal :=
  .next
    (match s.dev.fc.op with
    | some (who, .program b line data) =>
      let before := s.flash.line b line
      { s with flash := s.flash.setLine b line (programReads before data result) }.engines fun d =>
        d.opDone.programmed s.ctx who (programOutcome before data result)
    | _ => s)

/-- BANK_ERASE_OUTCOME: an event only while an erase is RUNNING (R8; DESIGN CHOICE, log entry 6). -/
def execBankEraseOutcome (remains : EraseRemains) (s : State) : Host.Outcome State Fault Refusal :=
  .next
    (match s.dev.fc.erase with
    | some e =>
      if e.suspended then s
      else
        let flash := s.flash.eraseBank e.bank remains
        { s with flash := flash }.engines fun d => d.eraseOver.erased s.ctx e.requester (flash.bankErased e.bank)
    | none => s)

/-- MULTI_LINE_READ_OUTCOME: an event only while a read is in progress (R9; DESIGN CHOICE, log entry 6). -/
def execMultiLineReadOutcome (s : State) : Host.Outcome State Fault Refusal :=
  .next
    (match s.dev.fc.op with
    | some (who, .read b first count) =>
      s.engines fun d => d.opDone.readLines s.ctx who (s.flash.lines b first count)
    | _ => s)

/-- Whether payload line `index` of the record at a line can decay to these bytes (R2): the record is complete, it has that line,
and its payload then reads otherwise than its payload check was computed over (DESIGN CHOICE, log entry 6). -/
def canDecay (f : Flash) (bank : BankId) (line index : Nat) (bytes : RawLine) : Bool :=
  match (f.line bank line).headerAt line with
  | none => false
  | some h =>
    index < payloadLines h.length &&
      match commitCheck h (f.lines bank line h.span) with
      | none => false
      | some check => !checkAgrees check (payloadRead h ((f.setLine bank (line + 1 + index) (.raw bytes)).lines bank line h.span))

/-- PAYLOAD_DECAY (R2). -/
def execPayloadDecay (bank : BankId) (line : LineId) (index : Fin 16) (bytes : RawLine) (s : State) :
    Host.Outcome State Fault Refusal :=
  .next
    (if canDecay s.flash bank line.val index.val bytes then
      { s with flash := s.flash.setLine bank (line.val + 1 + index.val) (.raw bytes) }
    else s)

/-- TAKE_COMMAND (R74; DEDUCED, log entries 8 and 40). -/
def execTakeCommand (s : State) : Host.Outcome State Fault Refusal := .next (s.engines fun d => d.takeCommand s.ctx)

/-- RECLAIM_TAKE_UP_WORK (R128; DEDUCED, log entry 8). -/
def execReclaimTakeUpWork (s : State) : Host.Outcome State Fault Refusal := .next (s.engines fun d => d.takeWork s.ctx)

end Sys2Proof.Machine
end

