-- ==== Sys2Proof/Machine/Power.lean ====
section
/-! DEFINITION. The Power Monitor and the Timebase (chapter 10, R120, R121, R122, R184), and the resets (R20, R83, R150, R181, R198):
the meanings of POWER_WARNING, POWER_WARNING_DEASSERTED, TIMEBASE_TICK, GROUP_EXPIRY, RECOVERY, POWER_ON_RESET and PIN_RESET. -/
namespace Sys2Proof.Machine
open Sys2Proof

/-! ## Groups ended from outside (R120, R121, R122) -/

/-- Whether the executing command is a member command (R111). -/
def Device.memberExecuting (d : Device) : Bool := d.ex.any fun x => x.member

/-- An OPEN group ends at once, or with the member command that is executing (R121, R122); a COMMITTING one is left to its command. -/
def Device.endOpenGroup (d : Device) : Device :=
  match d.group with
  | none => d
  | some g =>
    match g.state with
    | .committing => d
    | .opened => if d.memberExecuting then d.mapGroup fun g => { g with endsWithMember := true } else d.endGroup

/-- The deadline of an OPEN group is at 0: it expires at once, or when the executing member command ends (R120). -/
def Device.expireOrHold (d : Device) : Device := if d.memberExecuting then d else d.expireGroup

/-- One tick of an OPEN group's deadline (R120). -/
def Device.tickGroup (d : Device) : Device :=
  match d.group with
  | none => d
  | some g =>
    match g.state, g.deadline with
    | .opened, some n =>
      let d := d.mapGroup fun g => { g with deadline := some (n - 1) }
      if n ≤ 1 then d.expireOrHold else d
    | _, _ => d

/-! ## The power warning (R16, R122, R179, R182, R184) -/

/-- Whether the retire line in progress would answer the RECLAIM request held (R184; DEDUCED, log entry 19). -/
def Device.retireAnswers (d : Device) : Bool :=
  match d.reclaim.job, d.reclaim.victim, d.fc.op with
  | .retire, some v, some (.reclaim, .program _ _ _) => answersRequest v d.reclaim.request
  | _, _, _ => false

/-- The executing command's wait without a flash request ends under the warning (R78, R167, R182, R184). -/
def Device.warnCommand (d : Device) : Device :=
  match d.ex with
  | none => d
  | some x =>
    match x.stage with
    | .writing w =>
      match w.stage with
      | .waitSpace => d.commandPowerEnd
      | _ => d
    | .reclaimHeld => if d.retireAnswers then d else d.answerReclaim .powerAbort 0
    | .repairWait => d.commandPowerEnd
    | .formatWait => d.formatPowerEnd
    | _ => d

/-- The erase in progress is abandoned and its requester receives outcome POWER (R16, R131, R167). -/
def Device.abandonErase (d : Device) : Device :=
  match d.fc.erase with
  | none => d
  | some e =>
    let d := { d with fc := { d.fc with erase := none, decided := none } }
    match e.requester with
    | .reclaim => d.reclaimRefused
    | .command => d.commandPowerEnd
    | .mount => d

/-- The blocks' response to the entry to WARNING (R16, R122, R147, R160, R182, R184), before waiting requests are refused. -/
def Device.warn (d : Device) : Device :=
  let d := { d with flags := { d.flags with powerWarn := true }, fc := { d.fc with fairness := 0 } }
  d.endOpenGroup.abandonErase.warnCommand

/-- The same where the entry comes between the taking of the head of the queue and that command's step: it is taken in NORMAL, and its step
comes under WARNING (R182, R184; DEDUCED, log entry 40). -/
def Device.warnBetween (g : Configuration) (d : Device) : Device :=
  (d.takeHead { cfg := g, warning := false }).warn.makeStep { cfg := g, warning := true }

/-- What an abandoned erase leaves of the array (R16). -/
def State.abandonedFlash (s : State) (remains : EraseRemains) : Flash :=
  match s.dev.fc.erase with
  | some e => s.flash.eraseBank e.bank remains
  | none => s.flash

/-- The condition becomes WARNING (R179). -/
def State.enterWarning (s : State) (entry : WarningEntry) : State :=
  { s with
    flash := s.abandonedFlash entry.erase
    power := { s.power with warning := true, debounce := .idle }
  }.engines (if entry.between then Device.warnBetween s.cfg else Device.warn)

/-- The sources are judged again after a change of a pin, the supply or the threshold (R179, R180). -/
def State.judgePower (s : State) (entry : WarningEntry) : State :=
  if powerAsserted s.cfg s.power then
    if s.power.warning then { s with power := { s.power with debounce := .idle } } else s.enterWarning entry
  else if s.power.warning ∧ s.power.debounce = .idle then { s with power := { s.power with debounce := .pending } }
  else s

/-! ## Recovery (R17, R160, R180, R186) -/

/-- The blocks' response to the return to NORMAL (R186): a MOUNTING store mounts from census, a read left by the stopped mount
discarded (DESIGN CHOICE, log entry 24). -/
def Device.recover (d : Device) : Device :=
  let d := { d with flags := { d.flags with powerOk := true }, fc := { d.fc with fairness := 0 } }
  if d.store = .mounting then
    ({ d with fc := { d.fc with op := d.fc.op.filter fun o => o.1 ≠ Requester.mount } }).beginMount
  else d

/-- The condition becomes NORMAL (R180). -/
def State.recovered (s : State) : State :=
  { s with power := { s.power with warning := false, debounce := .idle } }.engines Device.recover

/-- RECOVERY: an event only while the debounce is ARMED (R180; DEDUCED, log entries 6 and 10). -/
def execRecovery (s : State) : Host.Outcome State Fault Refusal :=
  .next (if s.power.warning ∧ s.power.debounce = .armed then s.recovered else s)

/-! ## The Timebase (R120, R180) -/

/-- One tick of the recovery debounce (R180). -/
def State.tickDebounce (s : State) : State :=
  if s.power.warning then
    match s.power.debounce with
    | .idle => s
    | .pending => { s with power := { s.power with debounce := .armed } }
    | .armed => s.recovered
  else s

/-- TIMEBASE_TICK: the open group's deadline and the debounce (R120, R180; DEDUCED, log entry 10). -/
def execTimebaseTick (s : State) : Host.Outcome State Fault Refusal := .next (s.engines Device.tickGroup).tickDebounce

/-- GROUP_EXPIRY: an event only where a tick takes the deadline to 0 (R120; DEDUCED, log entries 6 and 10). -/
def execGroupExpiry (s : State) : Host.Outcome State Fault Refusal :=
  .next
    (match s.dev.group with
    | none => s
    | some g => if g.state = .opened ∧ g.deadline.any fun n => n ≤ 1 then s.engines Device.tickGroup else s)

/-! ## Resets (R20, R83, R150, R181, R187, R198) and the levels of the sources (R179, R180, R181) -/

/-- The array after a reset cut a line program short (R20). -/
def cutProgram (f : Flash) (op : Option (Requester × Request)) (read : LineRead) : Flash :=
  match op with
  | some (_, .program b line data) => if (f.line b line).isErased then f.setLine b line (cutReadsAs data read) else f
  | _ => f

/-- The array after a reset cut an erase short (R20). -/
def cutErase (f : Flash) (e : Option EraseOp) (remains : EraseRemains) : Flash :=
  match e with
  | some e => f.eraseBank e.bank remains
  | none => f

/-- The Power Monitor after a reset: both sources evaluated with the threshold at 2.4 V (R179). -/
def resetPower (pfwLow : Bool) (millivolts : Nat) : Power :=
  { warning := pfwLow || SupplyThreshold.v24.asserts millivolts, debounce := .idle, pfwLow := pfwLow, vdd := millivolts }

/-- The blocks after a reset: mount begun, or under WARNING waiting for recovery with POWER_WARN set (R150, R160, R179). -/
def resetDevice (warning : Bool) : Device :=
  if warning then { Device.initial with flags := { powerWarn := true } } else Device.initial.beginMount

/-- The machine after a power-on or pin reset: everything at its reset value but the array and the levels of the pins (R20, R83,
R187). At a supply below the brown-out level this is the state in which the part stays: 2.4 V asserts, so mount has not begun (R181). -/
def State.resetTo (s : State) (cut : CutShort) (pfwLow : Bool) (millivolts : Nat) : State :=
  { State.reset with
    pending := s.pending
    flash := cutErase (cutProgram s.flash s.dev.fc.op cut.line) s.dev.fc.erase cut.erase
    power := resetPower pfwLow millivolts
    dev := resetDevice (resetPower pfwLow millivolts).warning
    rstLow := s.rstLow }.engines id

/-- POWER_ON_RESET, brown-out included (R20, R181). -/
def execPowerOnReset (cut : CutShort) (pfwLow : Bool) (millivolts : Nat) (s : State) : Host.Outcome State Fault Refusal :=
  .next (s.resetTo cut pfwLow millivolts)

/-- The levels of PFW# and the supply as they now are. A supply below the brown-out level is a power-on reset, and so is its rise above
that level, from which mount runs (R181); at any other supply the sources are judged (R179, R180). -/
def State.levels (s : State) (pfwLow : Bool) (millivolts : Nat) (cut : CutShort) (between : Bool) : State :=
  if millivolts < Config.brownOut ∨ s.power.vdd < Config.brownOut then s.resetTo cut pfwLow millivolts
  else { s with power := { s.power with pfwLow := pfwLow, vdd := millivolts } }.judgePower { erase := cut.erase, between := between }

/-- POWER_WARNING: PFW# goes LOW, or the supply comes to a level (R179, R180, R181). -/
def execPowerWarning (source : WarningSource) (cut : CutShort) (s : State) : Host.Outcome State Fault Refusal :=
  .next
    (match source with
    | .pfw between => s.levels true s.power.vdd cut between
    | .supply millivolts between => s.levels s.power.pfwLow millivolts cut between)

/-- POWER_WARNING_DEASSERTED: PFW# goes HIGH, the supply being at a level (R179, R180, R181). A comparator that still asserts keeps the
condition and the debounce. -/
def execPowerWarningDeasserted (supply : SupplyAfter) (s : State) : Host.Outcome State Fault Refusal :=
  .next (s.levels false supply.millivolts supply.cut false)

/-- RST# is LOW from now on: a frame in progress ends without its partial byte (R198). -/
def State.rstHeld (s : State) : State := { s with port := { s.port with frame := none, capture := none }, rstLow := true }

/-- PIN_RESET: RST# LOW for less than 1 µs has no effect; the reset comes when RST# rises (R198). A pulse while RST# is LOW, and a rise
while it is HIGH, cannot occur (DESIGN CHOICE, log entries 6 and 27). -/
def execPinReset (pin : ResetPin) (cut : CutShort) (s : State) : Host.Outcome State Fault Refusal :=
  .next
    (match pin with
    | .pulse lowNanoseconds =>
      if s.rstLow = false ∧ Config.resetPulse ≤ lowNanoseconds then s.resetTo cut s.power.pfwLow s.power.vdd else s
    | .low => s.rstHeld
    | .rises => if s.rstLow then { s with rstLow := false }.resetTo cut s.power.pfwLow s.power.vdd else s)

end Sys2Proof.Machine
end

