-- ==== Sys2Proof/WellFormed.lean ====
section
/-! DEFINITION. Which operands a command can carry: what the manual's own words admit of the event the command reports. -/
namespace Sys2Proof

/-- Remains list rising line numbers, and no listed line reads erased. -/
def EraseRemains.wellFormed : EraseRemains → Bool
  | [] => true
  | [(_, r)] => r != .other erasedBytes
  | (a, r) :: (b, r') :: rest =>
    r != .other erasedBytes && decide (a < b) && EraseRemains.wellFormed ((b, r') :: rest)

/-- SCK edges alternate, a rising edge first exactly from idle LOW (R188). -/
def edgesAlternate : Bool → List SckEdge → Bool
  | _, [] => true
  | false, .rises _ :: rest => edgesAlternate true rest
  | true, .falls :: rest => edgesAlternate false rest
  | false, .falls :: _ => false
  | true, .rises _ :: _ => false

/-- The number of bits that SCK edges sample (R188). -/
def bitsSampled (edges : List SckEdge) : Nat := (edges.filter fun e => e != .falls).length

/-- A configuration register's address (section 11.6). -/
def Addr.isConfiguration (a : Addr) : Bool := 0x40 ≤ a.toNat && a.toNat ≤ 0x46

/-- An address whose write has a row of its own: POP, GO, the data port, configuration, flags, mask and control. -/
def Addr.hasOwnRow (a : Addr) : Bool :=
  a.isConfiguration || a = 0x18 || a = 0x2F || a = 0x30 || a = 0x50 || a = 0x51 || a = 0x7F

/-- The commands whose operands can occur. -/
def Instr.wellFormed : Instr → Bool
  | .frame idleHigh edges => edgesAlternate idleHigh edges && (bitsSampled edges = 0 || bitsSampled edges = 8 || bitsSampled edges = 16)
  | .frameEnd edges => (edgesAlternate true edges || edgesAlternate false edges) && bitsSampled edges < 8
  | .configurationWrite addr _ entry => addr.isConfiguration && entry.erase.wellFormed
  | .registerWrite addr _ => !addr.hasOwnRow
  | .powerOnReset cut _ _ => cut.erase.wellFormed
  | .pinReset _ cut => cut.erase.wellFormed
  | .powerWarning _ cut => cut.erase.wellFormed
  | .powerWarningDeasserted supply => supply.cut.erase.wellFormed
  | .bankEraseOutcome remains => remains.wellFormed
  | .payloadDecay _ line index _ => 3 ≤ line.val && line.val + 1 + index.val < 127
  | .read _ => true
  | .write _ => true
  | .delete _ => true
  | .add _ => true
  | .list _ => true
  | .openGroup _ => true
  | .commitGroup _ => true
  | .dropGroup _ => true
  | .reclaim _ => true
  | .format _ => true
  | .raiseLock _ => true
  | .codeNamesNoCommand _ => true
  | .takeCommand => true
  | .pop _ => true
  | .portReset _ => true
  | .bufferDataWrite _ => true
  | .bufferDataRead => true
  | .notificationFlagsClear _ => true
  | .enableMaskWrite _ => true
  | .timebaseTick => true
  | .groupExpiry => true
  | .recovery => true
  | .lineProgramOutcome _ => true
  | .multiLineReadOutcome => true
  | .reclaimTakeUpWork => true

end Sys2Proof
end

