-- ==== Sys2Proof/Machine/Port.lean ====
section
/-! DEFINITION. The Serial Port and the Register Window (chapters 4 and 11): the meanings of FRAME, FRAME_END, the writes of window
bytes with and without behaviour of their own, BUFFER_DATA_READ, POP and PORT_RESET. -/
namespace Sys2Proof.Machine
open Sys2Proof

/-! ## Bits on the wires (R188) -/

/-- A byte as it travels, most significant bit first. -/
def bitsOut (b : Byte) : List Bool := (List.range 8).map fun i => b.getLsbD (7 - i)

/-- The byte whose bits, most significant first, are these. -/
def byteIn (bits : List Bool) : Byte := BitVec.ofNat 8 (bits.foldl (fun n b => 2 * n + b.toNat) 0)

/-- SDI as it is sampled: at each rising edge of SCK. -/
def sampled : List SckEdge → List Bool
  | [] => []
  | .rises sdi :: rest => sdi :: sampled rest
  | .falls :: rest => sampled rest

/-- The bytes that sampled bits complete; a partial byte is discarded (R192). -/
def wholeBytes : List Bool → List Byte
  | b7 :: b6 :: b5 :: b4 :: b3 :: b2 :: b1 :: b0 :: rest => byteIn [b7, b6, b5, b4, b3, b2, b1, b0] :: wholeBytes rest
  | _ => []

/-- How many bits SDO has been driven with once these edges of SCK have followed the fall of CS#: the first at that fall in mode 0 and at
the first falling edge in mode 3, each later one at a falling edge. -/
def bitsDriven (idleHigh : Bool) (edges : List SckEdge) : Nat :=
  (edges.filter fun e => e = .falls).length + if idleHigh then 0 else 1

/-- The pins of the port are dead: RST# is LOW, or the supply is below the brown-out level (R181, R198). -/
def State.portHeld (s : State) : Bool := s.rstLow || s.power.vdd < Config.brownOut

/-! ## Frames (R188 to R192) -/

/-- What an access code makes of a frame (R189). -/
def accessState (code : Byte) : FrameState :=
  if code = Config.readCode then .header2 false
  else if code = Config.writeCode then .header2 true
  else .ignoring

/-- The second byte on SDO: the credit count, or 0xFF in IGNORING (R190). -/
def secondByte (s : State) (st : FrameState) : Byte :=
  match st with
  | .header2 _ => BitVec.ofNat 8 s.dev.credits
  | _ => 0xFF

/-- The port after both header bytes (R189). -/
def Port.addressed (p : Port) (st : FrameState) (address : Byte) : Port :=
  match st with
  | .header2 true => { p with frame := some .writing, pointer := address.setWidth 7 }
  | .header2 false => { p with frame := some .reading, pointer := address.setWidth 7 }
  | st => { p with frame := some st }

/-- The port after CS# fell and these header bytes completed (R189, R190). -/
def framePort (s : State) (idleHigh : Bool) : List Byte → Port
  | [] => { s.port with frame := some .header1, idleHigh := idleHigh, capture := none, sent := [s.summary] }
  | [code] => { s.port with frame := some (accessState code), idleHigh := idleHigh, capture := none, sent := [s.summary] }
  | code :: address :: _ =>
    ({ s.port with idleHigh := idleHigh, capture := none, sent := [s.summary, secondByte s (accessState code)] }).addressed
      (accessState code) address

/-- FRAME: CS# falls, and the header bytes are those that the SCK edges complete (R188, R189). It is an event only while CS# is HIGH
(DESIGN CHOICE, log entry 6), and a port that is held ignores it (R198). -/
def execFrame (idleHigh : Bool) (edges : List SckEdge) (s : State) : Host.Outcome State Fault Refusal :=
  .next
    (if s.port.frame.isNone && !s.portHeld then { s with port := framePort s idleHigh (wholeBytes (sampled edges)) } else s)

/-- FRAME_END: the frame and its capture end; a partial byte has no effect (R192; DESIGN CHOICE, log entry 6). -/
def execFrameEnd (_edges : List SckEdge) (s : State) : Host.Outcome State Fault Refusal :=
  .next (if s.port.frame.isSome then { s with port := { s.port with frame := none, capture := none } } else s)

/-- The pointer after a data byte: it stays at 0x30, and 0x7F is followed by 0x00 (R191). -/
def nextPointer (a : Addr) : Addr := if a = 0x30 then a else a + 1

/-- The port after a data byte that sent `b` (R191). -/
def Port.byteDone (p : Port) (b : Byte) : Port := { p with pointer := nextPointer p.pointer, sent := p.sent ++ [b] }

/-- A data byte received at an address (R191): in a write frame whose pointer is there it acts and the pointer moves on; in an
IGNORING frame it does nothing; SDO carries 0xFF in both. Elsewhere the event cannot occur (DESIGN CHOICE, log entry 6). -/
def State.windowWrite (s : State) (addr : Addr) (act : State → State) : State :=
  match s.port.frame with
  | some .writing =>
    if s.port.pointer = addr then act { s with port := ({ s.port with capture := none }).byteDone 0xFF } else s
  | some .ignoring => { s with port := { s.port with sent := s.port.sent ++ [0xFF] } }
  | _ => s

/-! ## Reads (R72, R191, R192) -/

/-- What the buffer data port returns (R72). -/
def State.dataByte (s : State) : Byte :=
  let b := s.dev.buffer s.select
  match b.owner with
  | .host => b.byte b.pointer.toNat
  | .engine => 0xFF

/-- The less significant half of a two-byte status value, captured when its more significant byte is sent (R192). -/
def State.captured (s : State) (addr : Addr) : Option (Addr × Byte) :=
  if addr = 0x08 ∨ addr = 0x0A then some (addr + 1, s.register (addr + 1)) else none

/-- Whether an address is the less significant half of a two-byte status value: of the directory entries used, or of the dead-line
total (R192). -/
def Addr.isStatusLow (a : Addr) : Bool := a = 0x09 || a = 0x0B

/-- The byte sent at the pointer (R191, R192). -/
def State.readByte (s : State) : Byte :=
  if s.port.pointer = 0x30 then s.dataByte
  else
    match s.port.capture with
    | some (a, v) => if a = s.port.pointer && Addr.isStatusLow a then v else s.register s.port.pointer
    | none => s.register s.port.pointer

/-- The byte that SDO begins next (R189, R190, R191). -/
def State.nextByte (s : State) : Byte :=
  match s.port.frame with
  | none => 0xFF
  | some .header1 => s.summary
  | some (.header2 w) => secondByte s (.header2 w)
  | some .reading => s.readByte
  | some .writing => 0xFF
  | some .ignoring => 0xFF

/-- SDO after these edges of SCK since CS# fell: high impedance (`none`) while CS# is HIGH or the port is held (R188, R198), else the
newest bit driven of the bytes sent and the byte under way. Before the first falling edge of mode 3 nothing is driven (DESIGN CHOICE,
log entry 5). -/
def State.sdo (s : State) (edges : List SckEdge) : Option Bool :=
  if s.port.frame.isNone || s.portHeld then none
  else
    match bitsDriven s.port.idleHigh edges with
    | 0 => none
    | n + 1 => ((s.port.sent ++ [s.nextByte]).map bitsOut).flatten[n]?

/-- The selected buffer's pointer rises by one, from 255 to 0 (R72). -/
def Buffer.step (b : Buffer) : Buffer := { b with pointer := b.pointer + 1 }

/-- The buffers after a data port byte: the selected one's pointer has moved (R72). -/
def State.stepPointer (s : State) : State :=
  { s with dev := s.dev.setBuffer s.select (s.dev.buffer s.select).step }

/-- BUFFER_DATA_READ: one data byte of a read frame, or of an IGNORING one (R72, R189, R191; log entry 23). -/
def execBufferDataRead (s : State) : Host.Outcome State Fault Refusal :=
  .next
    (match s.port.frame with
    | some .reading =>
      let s' := { s with port := ({ s.port with capture := s.captured s.port.pointer }).byteDone s.readByte }
      if s.port.pointer = 0x30 then s'.stepPointer else s'
    | some .ignoring => { s with port := { s.port with sent := s.port.sent ++ [0xFF] } }
    | _ => s)

/-! ## Writes of bytes with behaviour (R71, R72, R80, R193 to R196) -/

/-- The buffer after a data port byte: stored when the host owns it (R72). -/
def Buffer.receive (b : Buffer) (v : Byte) : Buffer :=
  match b.owner with
  | .host => { b with bytes := Store.write 0 b.bytes b.pointer.toNat v }
  | .engine => b

/-- The data port byte's action (R72). -/
def State.receiveByte (v : Byte) (s : State) : State :=
  { s with dev := s.dev.setBuffer s.select ((s.dev.buffer s.select).receive v).step }

/-- BUFFER_DATA_WRITE (R72). -/
def execBufferDataWrite (value : Byte) (s : State) : Host.Outcome State Fault Refusal :=
  .next (s.windowWrite 0x30 (State.receiveByte value))

/-- The head completion is removed (R80). -/
def State.popHead (s : State) : State := { s with dev := { s.dev with fifo := s.dev.fifo.tail } }

/-- POP (R80). -/
def execPop (_value : Byte) (s : State) : Host.Outcome State Fault Refusal := .next (s.windowWrite 0x18 State.popHead)

/-- NOTIFICATION_FLAGS_CLEAR (R195). -/
def execNotificationFlagsClear (value : Byte) (s : State) : Host.Outcome State Fault Refusal :=
  .next (s.windowWrite 0x50 fun s => { s with dev := { s.dev with flags := s.dev.flags.clear value } })

/-- ENABLE_MASK_WRITE (R196). -/
def execEnableMaskWrite (value : Byte) (s : State) : Host.Outcome State Fault Refusal :=
  .next (s.windowWrite 0x51 fun s => { s with mask := value })

/-- A byte written to a configuration register (R193, R194); out-of-range values are ignored. -/
def Configuration.store (g : Configuration) (addr : Addr) (v : Byte) : Configuration :=
  match addr.toNat with
  | 0x40 => if 2 ≤ v.toNat ∧ v.toNat ≤ 8 then { g with startThreshold := v.toNat } else g
  | 0x41 => { g with wearGapHold := v }
  | 0x42 =>
    let n := 256 * g.wearGapHold.toNat + v.toNat
    if 64 ≤ n ∧ n ≤ 4096 then { g with wearGap := n, wearGapHold := highByte n } else g
  | 0x43 => { g with groupTimeoutHold := v }
  | 0x44 =>
    let n := 256 * g.groupTimeoutHold.toNat + v.toNat
    if n ≤ Config.maxTimeout then { g with groupTimeout := n, groupTimeoutHold := highByte n } else g
  | 0x45 => if v.toNat ≤ 1 then { g with suspendEnable := v.toNat = 1 } else g
  | 0x46 =>
    match SupplyThreshold.ofNumber v.toNat with
    | some t => { g with supplyThreshold := t }
    | none => g
  | _ => g

/-- The action of a configuration byte: a new supply threshold reaches the comparator at once (R179, R194). -/
def State.configure (addr : Addr) (v : Byte) (entry : WarningEntry) (s : State) : State :=
  let s' := { s with cfg := s.cfg.store addr v }
  if addr = 0x46 then s'.judgePower entry else s'

/-- CONFIGURATION_WRITE (R193, R194). -/
def execConfigurationWrite (addr : Addr) (value : Byte) (entry : WarningEntry) (s : State) :
    Host.Outcome State Fault Refusal :=
  .next (if Addr.isConfiguration addr then s.windowWrite addr (State.configure addr value entry) else s)

/-- A byte written to an address without behaviour of its own (R71, R191, R193): descriptor, buffer select, buffer pointer; any
other ignores it. -/
def State.storeRegister (addr : Addr) (v : Byte) (s : State) : State :=
  if addr = 0x31 then
    match bufferIndex v with
    | some i => { s with select := i }
    | none => s
  else if addr = 0x32 then { s with dev := s.dev.setBuffer s.select { s.dev.buffer s.select with pointer := v } }
  else { s with desc := s.desc.store addr v }

/-- REGISTER_WRITE (R191, R193). -/
def execRegisterWrite (addr : Addr) (value : Byte) (s : State) : Host.Outcome State Fault Refusal :=
  .next (if Addr.hasOwnRow addr then s else s.windowWrite addr (State.storeRegister addr value))

/-! ## Port reset (R85, R121, R197) -/

/-- The blocks after a port reset: an OPEN group ends or waits for its member, and the host-facing state is emptied. -/
def Device.portReset (d : Device) : Device :=
  let d := d.endOpenGroup
  { d with
    queue := [], fifo := [], buffers := Vector.replicate 4 Buffer.initial, flags := {}
    ex := d.ex.map fun x => { x with detached := true } }

/-- The action of 0xC3 written to the control register (R197). -/
def State.portReset (s : State) : State := { s with desc := {}, select := 0, dev := s.dev.portReset }

/-- PORT_RESET: any value but 0xC3 is ignored (R197). -/
def execPortReset (value : Byte) (s : State) : Host.Outcome State Fault Refusal :=
  .next (s.windowWrite 0x7F fun s => if value = Config.portResetCode then s.portReset else s)

end Sys2Proof.Machine
end

