-- ==== Sys2Proof/Machine/Posting.lean ====
section
/-! DEFINITION. Posting through GO (sections 4.1 and 4.2): the meanings of the twelve commands that a GO write can be. -/
namespace Sys2Proof.Machine
open Sys2Proof

/-- The status with which a snapshot is refused at posting, if it is (R69). -/
def Device.postingRefusal (d : Device) (q : Descriptor) : Option Status :=
  match CommandCode.ofByte q.code with
  | none => some .badCommand
  | some code =>
    if code.namesBuffer then
      match bufferIndex q.buffer with
      | none => some .badArgument
      | some i => if (d.buffer i).owner = .engine then some .bufferBusy else none
    else none

/-- A posting is accepted (R70): the snapshot enters the queue, and the buffer it names becomes ENGINE-owned. -/
def Device.accept (d : Device) (code : CommandCode) (q : Descriptor) : Device :=
  let d := { d with queue := d.queue ++ [{ code := code, desc := q }] }
  match if code.namesBuffer then bufferIndex q.buffer else none with
  | some i => d.setBuffer i { d.buffer i with owner := .engine }
  | none => d

/-- A write to GO (R67 to R70): without a credit OVERRUN is set; else the snapshot is refused with a completion, or accepted. -/
def Device.post (d : Device) (q : Descriptor) : Device :=
  if d.credits = 0 then { d with flags := { d.flags with overrun := true } }
  else
    match d.postingRefusal q with
    | some status => d.placeCompletion q.tag status 0
    | none =>
      match CommandCode.ofByte q.code with
      | some code => d.accept code q
      | none => d

/-- The byte written to GO while the code register names `code` (none: no command); the value has no effect. -/
def State.go (s : State) (code : Option CommandCode) : State :=
  if CommandCode.ofByte s.desc.code = code then s.windowWrite 0x2F fun s => { s with dev := s.dev.post s.desc } else s

/-- READ is posted (R67 to R70, R88). -/
def execRead (_value : Byte) (s : State) : Host.Outcome State Fault Refusal := .next (s.go (some .read))

/-- WRITE is posted (R67 to R70, R90). -/
def execWrite (_value : Byte) (s : State) : Host.Outcome State Fault Refusal := .next (s.go (some .write))

/-- DELETE is posted (R67 to R70, R93). -/
def execDelete (_value : Byte) (s : State) : Host.Outcome State Fault Refusal := .next (s.go (some .delete))

/-- ADD is posted (R67 to R70, R94). -/
def execAdd (_value : Byte) (s : State) : Host.Outcome State Fault Refusal := .next (s.go (some .add))

/-- LIST is posted (R67 to R70, R96). -/
def execList (_value : Byte) (s : State) : Host.Outcome State Fault Refusal := .next (s.go (some .list))

/-- OPEN_GROUP is posted (R67 to R70, R110). -/
def execOpenGroup (_value : Byte) (s : State) : Host.Outcome State Fault Refusal := .next (s.go (some .openGroup))

/-- COMMIT_GROUP is posted (R67 to R70, R115). -/
def execCommitGroup (_value : Byte) (s : State) : Host.Outcome State Fault Refusal := .next (s.go (some .commitGroup))

/-- DROP_GROUP is posted (R67 to R70, R119). -/
def execDropGroup (_value : Byte) (s : State) : Host.Outcome State Fault Refusal := .next (s.go (some .dropGroup))

/-- RECLAIM is posted (R67 to R70, R136). -/
def execReclaim (_value : Byte) (s : State) : Host.Outcome State Fault Refusal := .next (s.go (some .reclaim))

/-- FORMAT is posted (R67 to R70, R161). -/
def execFormat (_value : Byte) (s : State) : Host.Outcome State Fault Refusal := .next (s.go (some .format))

/-- RAISE_LOCK is posted (R67 to R70, R171). -/
def execRaiseLock (_value : Byte) (s : State) : Host.Outcome State Fault Refusal := .next (s.go (some .raiseLock))

/-- A code that names no command is posted (R67 to R69). -/
def execCodeNamesNoCommand (_value : Byte) (s : State) : Host.Outcome State Fault Refusal := .next (s.go none)

end Sys2Proof.Machine
end

