-- ==== Sys2Proof/Machine/Dispatch.lean ====
section
/-! DEFINITION. One arm per command, each one call of its meaning. -/
namespace Sys2Proof.Machine
open Sys2Proof

def exec (i : Instr) (s : State) : Host.Outcome State Fault Refusal :=
  match i with
  | .frame idleHigh edges => Sys2Proof.Machine.execFrame idleHigh edges s
  | .frameEnd edges => Sys2Proof.Machine.execFrameEnd edges s
  | .read value => Sys2Proof.Machine.execRead value s
  | .write value => Sys2Proof.Machine.execWrite value s
  | .delete value => Sys2Proof.Machine.execDelete value s
  | .add value => Sys2Proof.Machine.execAdd value s
  | .list value => Sys2Proof.Machine.execList value s
  | .openGroup value => Sys2Proof.Machine.execOpenGroup value s
  | .commitGroup value => Sys2Proof.Machine.execCommitGroup value s
  | .dropGroup value => Sys2Proof.Machine.execDropGroup value s
  | .reclaim value => Sys2Proof.Machine.execReclaim value s
  | .format value => Sys2Proof.Machine.execFormat value s
  | .raiseLock value => Sys2Proof.Machine.execRaiseLock value s
  | .codeNamesNoCommand value => Sys2Proof.Machine.execCodeNamesNoCommand value s
  | .takeCommand => Sys2Proof.Machine.execTakeCommand s
  | .pop value => Sys2Proof.Machine.execPop value s
  | .portReset value => Sys2Proof.Machine.execPortReset value s
  | .bufferDataWrite value => Sys2Proof.Machine.execBufferDataWrite value s
  | .bufferDataRead => Sys2Proof.Machine.execBufferDataRead s
  | .notificationFlagsClear value => Sys2Proof.Machine.execNotificationFlagsClear value s
  | .enableMaskWrite value => Sys2Proof.Machine.execEnableMaskWrite value s
  | .configurationWrite addr value entry => Sys2Proof.Machine.execConfigurationWrite addr value entry s
  | .registerWrite addr value => Sys2Proof.Machine.execRegisterWrite addr value s
  | .powerOnReset cut pfwLow millivolts => Sys2Proof.Machine.execPowerOnReset cut pfwLow millivolts s
  | .pinReset pin cut => Sys2Proof.Machine.execPinReset pin cut s
  | .powerWarning source cut => Sys2Proof.Machine.execPowerWarning source cut s
  | .powerWarningDeasserted supply => Sys2Proof.Machine.execPowerWarningDeasserted supply s
  | .timebaseTick => Sys2Proof.Machine.execTimebaseTick s
  | .groupExpiry => Sys2Proof.Machine.execGroupExpiry s
  | .recovery => Sys2Proof.Machine.execRecovery s
  | .lineProgramOutcome result => Sys2Proof.Machine.execLineProgramOutcome result s
  | .bankEraseOutcome remains => Sys2Proof.Machine.execBankEraseOutcome remains s
  | .multiLineReadOutcome => Sys2Proof.Machine.execMultiLineReadOutcome s
  | .reclaimTakeUpWork => Sys2Proof.Machine.execReclaimTakeUpWork s
  | .payloadDecay bank line index bytes => Sys2Proof.Machine.execPayloadDecay bank line index bytes s

end Sys2Proof.Machine
end

