-- ==== Sys2Proof/Safety.lean ====
section
/-! DEFINITION. What a safe run keeps, and the terms in which statements speak: the laws of the manual as predicates of a state, a
device with nothing waiting, what a taken command's checks end it with and the record it programs, and the state after a window byte
or a command that ended at once. -/
namespace Sys2Proof.Machine
open Sys2Proof

/-! ## Laws -/

/-- The canonical form of both addressed memories: the Flash Array's lines rising and none listed that reads erased, and each
buffer's bytes rising and none listed that reads 0x00. -/
def State.memoryWf (s : State) : Bool :=
  Store.wf Line.erased s.flash && s.dev.buffers.all fun b => Store.wf 0 b.bytes

/-- The configuration registers hold values of their ranges (R194). -/
def Configuration.inRange (g : Configuration) : Prop :=
  (2 ≤ g.startThreshold ∧ g.startThreshold ≤ 8) ∧ (64 ≤ g.wearGap ∧ g.wearGap ≤ 4096) ∧ g.groupTimeout ≤ 6000

/-- Both memories are canonical and the configuration in range. -/
def State.lawful (s : State) : Prop := s.memoryWf = true ∧ s.cfg.inRange

/-- Queued commands, the executing command if it is attached, and completions not yet popped (R67). -/
def Device.load (d : Device) : Nat := d.queue.length + d.attached + d.fifo.length

/-- The law of credits (R67). -/
def State.creditLaw (s : State) : Prop := s.dev.load ≤ 8

/-- The law of groups: a COMMITTING group has its COMMIT_GROUP under way (R115, R117), and an OPEN one whose end is held has a member
command under way (R120, R121, R122). -/
def Device.groupLaw (d : Device) : Prop :=
  ∀ g, d.group = some g →
    (g.state = .committing → d.ex.any (fun x => x.code = .commitGroup) = true) ∧
    (g.state = .opened → g.endsWithMember = true ∨ g.deadline = some 0 → d.ex.any (fun x => x.member) = true)

/-- The order of the Directory (R44): keys strictly ascending, so at most one entry for any key. -/
def Device.ordered (d : Device) : Prop := d.dir.Pairwise fun a b => a.key < b.key

/-- The law of the power and reset pins (R179, R180, R181, R198): the condition is WARNING while a source asserts; the debounce is IDLE
then and in NORMAL, and is not IDLE in WARNING with no source asserting; no frame is in progress while RST# is LOW or the supply is below
the brown-out level. -/
def State.powerLaw (s : State) : Prop :=
  (powerAsserted s.cfg s.power = true → s.power.warning = true) ∧
  (s.power.debounce = .idle ↔ powerAsserted s.cfg s.power = true ∨ s.power.warning = false) ∧
  (s.rstLow = true ∨ s.power.vdd < 1600 → s.port.frame = none)

/-- The commands that reset the part in a state: the power-on reset, a supply that comes below the brown-out level or leaves it (R181),
a LOW pulse of at least 1 µs on RST#, and the rise of RST# (R198). -/
def Instr.resets (s : State) : Instr → Prop
  | .powerOnReset _ _ _ => True
  | .powerWarning source _ => s.power.vdd < 1600 ∨ ∃ mv between, source = .supply mv between ∧ mv < 1600
  | .powerWarningDeasserted supply => s.power.vdd < 1600 ∨ supply.millivolts < 1600
  | .pinReset (.pulse n) _ => s.rstLow = false ∧ 1000 ≤ n
  | .pinReset .rises _ => s.rstLow = true
  | _ => False

/-- Every latched flag set in `f` is set in `f'` (R195). -/
def Flags.within (f f' : Flags) : Prop :=
  (f.spaceLow = true → f'.spaceLow = true) ∧ (f.mounted = true → f'.mounted = true) ∧
  (f.groupExpired = true → f'.groupExpired = true) ∧ (f.powerWarn = true → f'.powerWarn = true) ∧
  (f.powerOk = true → f'.powerOk = true) ∧ (f.degraded = true → f'.degraded = true) ∧ (f.overrun = true → f'.overrun = true)

/-! ## A device with nothing waiting -/

/-- The stages in which the executing command waits for no event but the outcome of a flash request, or for the Reclaim Engine. -/
def Stage.steady : Stage → Bool
  | .checking _ => false
  | .reading _ => true
  | .writing w =>
    match w.stage with
    | .waitOpen => false
    | .opening _ _ => true
    | .waitSpace => false
    | .programming _ => true
  | .reclaimHeld => true
  | .repairWait => false
  | .formatWait => false
  | .formatErase _ _ => true
  | .formatHeader _ _ _ => true

/-- No flash request waits, no engine is in a wait that the end of a step could end, and no erase is suspended without an operation
beside it: the end of a step changes nothing. -/
structure Device.AtRest (d : Device) : Prop where
  command : d.fc.waitCommand = none
  reclaim : d.fc.waitReclaim = none
  mount : d.fc.waitMount = none
  steady : ∀ x, d.ex = some x → x.stage.steady = true
  writer : ∀ w, d.reclaim.job.writer = some w → w.stage ≠ .waitOpen
  erase : ∀ e, d.fc.erase = some e → e.suspended = true → d.fc.op ≠ none

/-- The Flash Controller is free, the fairness count aside (R13). -/
structure FlashController.Free (fc : FlashController) : Prop where
  op : fc.op = none
  erase : fc.erase = none
  command : fc.waitCommand = none
  reclaim : fc.waitReclaim = none
  mount : fc.waitMount = none
  decided : fc.decided = none

/-- One operation is in progress at the Flash Controller, alone, and nothing waits (R13). -/
structure FlashController.Alone (fc : FlashController) (who : Requester) (r : Request) : Prop where
  op : fc.op = some (who, r)
  erase : fc.erase = none
  command : fc.waitCommand = none
  reclaim : fc.waitReclaim = none
  mount : fc.waitMount = none
  decided : fc.decided = none

/-- The Reclaim Engine waits for no open. -/
def Reclaim.steady (r : Reclaim) : Prop := ∀ w, r.job.writer = some w → w.stage ≠ .waitOpen

/-- An IDLE Command Engine with `p` at the head of the queue, a store state in which the general checks of R74 pass, and the condition
NORMAL. -/
structure State.Turn (s : State) (p : Posted) (rest : List Posted) : Prop where
  idle : s.dev.ex = none
  queue : s.dev.queue = p :: rest
  runs : s.dev.store = .ready ∨ (s.dev.store = .degraded ∧ p.code.readOnlyRefused = false) ∨ (s.dev.store = .blank ∧ p.code = .format)
  normal : s.power.warning = false
  writer : s.dev.reclaim.steady
  groups : s.dev.groupLaw

/-- The same, with the Flash Controller free. -/
structure State.Ready (s : State) (p : Posted) (rest : List Posted) : Prop extends State.Turn s p rest where
  free : s.dev.fc.Free

/-- The executing command, if any, waits for nothing but a flash outcome or the Reclaim Engine, and the Reclaim Engine waits for no
open. -/
structure Device.Steady (d : Device) : Prop where
  command : ∀ x, d.ex = some x → x.stage.steady = true
  writer : d.reclaim.steady

/-- The executing command `x`, no FORMAT, programs line `r.at_` of the record of `w`, alone at the Flash Controller, onto an erased
line (R99). -/
structure State.Programming (s : State) (x : Executing) (w : Writer) (r : Reservation) : Prop where
  command : s.dev.ex = some x
  noFormat : x.format = none
  stage : x.stage = .writing w
  reserved : w.stage = .programming r
  alone : s.dev.fc.Alone .command (.program r.bank (r.line + r.at_) (w.record.line r.seq r.at_))
  erased : s.flash.line r.bank (r.line + r.at_) = Line.erased
  writer : s.dev.reclaim.steady

/-- The same with anything else at the Flash Controller: an erase beside the program, other requests waiting. -/
structure State.LineInProgress (s : State) (x : Executing) (w : Writer) (r : Reservation) : Prop where
  command : s.dev.ex = some x
  noFormat : x.format = none
  stage : x.stage = .writing w
  reserved : w.stage = .programming r
  op : s.dev.fc.op = some (.command, .program r.bank (r.line + r.at_) (w.record.line r.seq r.at_))
  erased : s.flash.line r.bank (r.line + r.at_) = Line.erased
  writer : s.dev.reclaim.steady

/-- FORMAT executing at a stage in the condition NORMAL, with an erase or header program granted to it (R161 to R164). -/
structure State.Formatting (s : State) (x : Executing) (f : FormatProgress) (stage : Stage) : Prop where
  command : s.dev.ex = some x
  code : x.code = .format
  noMember : x.member = false
  progress : x.format = some f
  granted : f.granted = true
  at_ : x.stage = stage
  normal : s.power.warning = false
  writer : s.dev.reclaim.steady

/-! ## Window bytes -/

/-- A write frame whose pointer is at an address (R191). -/
def State.writingAt (s : State) (a : Addr) : Prop := s.port.frame = some .writing ∧ s.port.pointer = a

/-- The state whose port has taken one data byte of a write frame (R191). -/
def State.byteTaken (s : State) : State :=
  { s with
    port := { s.port with
      capture := none
      pointer := if s.port.pointer = 0x30 then s.port.pointer else s.port.pointer + 1
      sent := s.port.sent ++ [0xFF] } }

/-- The state whose port has sent one data byte `b` of a read frame, `capture` held for the next (R191, R192). -/
def State.byteSent (s : State) (b : Byte) (capture : Option (Addr × Byte)) : State :=
  { s with
    port := { s.port with
      capture := capture
      pointer := if s.port.pointer = 0x30 then s.port.pointer else s.port.pointer + 1
      sent := s.port.sent ++ [b] } }

/-- The command that a write to GO is while the code register names `code` (none: no command). -/
def Instr.goWrite (v : Byte) : Option CommandCode → Instr
  | some .read => .read v
  | some .write => .write v
  | some .delete => .delete v
  | some .add => .add v
  | some .list => .list v
  | some .openGroup => .openGroup v
  | some .commitGroup => .commitGroup v
  | some .dropGroup => .dropGroup v
  | some .reclaim => .reclaim v
  | some .format => .format v
  | some .raiseLock => .raiseLock v
  | none => .codeNamesNoCommand v

/-- The address at which a window byte other than GO acts. -/
def Instr.byteAddress : Instr → Option Addr
  | .pop _ => some 0x18
  | .portReset _ => some 0x7F
  | .bufferDataWrite _ => some 0x30
  | .notificationFlagsClear _ => some 0x50
  | .enableMaskWrite _ => some 0x51
  | .configurationWrite a _ _ => if Addr.isConfiguration a then some a else none
  | .registerWrite a _ => if Addr.hasOwnRow a then none else some a
  | _ => none

/-- A window byte received in a write frame: GO for the code the register names, or a byte that acts at an address. -/
def Instr.isWriteByte (s : State) (i : Instr) : Prop :=
  Instr.byteAddress i ≠ none ∨ ∃ v, i = Instr.goWrite v (CommandCode.ofByte s.desc.code)

/-! ## Commands that end at once -/

/-- The device after the command at the head of the queue was taken and ended at once (R74, R79). -/
def Device.headEnded (d : Device) (p : Posted) (rest : List Posted) (status : Status) (result : Nat) : Device :=
  ({ d with queue := rest }.releaseBuffer p.code p.desc.buffer).placeCompletion p.desc.tag status result

/-- The state after it. -/
def State.headEnded (s : State) (p : Posted) (rest : List Posted) (status : Status) (result : Nat) : State :=
  { s with dev := s.dev.headEnded p rest status result }

/-- The device after the executing command `x` ended: IDLE, its buffer the host's, its completion placed unless it is detached
(R74, R79, R85). -/
def Device.executingEnded (d : Device) (x : Executing) (status : Status) (result : Nat) : Device :=
  if x.detached then { d with ex := none }
  else ({ d with ex := none }.releaseBuffer x.code x.desc.buffer).placeCompletion x.desc.tag status result

/-! ## What the commands' own checks end them with -/

/-- READ (R88). -/
def Device.readRefusal (d : Device) (q : Descriptor) : Option Status :=
  if isUserKey q.key = false then some .badKey
  else if 256 < q.length.toNat ∨ 256 < q.offset.toNat + q.length.toNat then some .badLength
  else
    match d.entry q.key with
    | none => some .notFound
    | some e =>
      if e.state = .tombstone then some .notFound
      else if e.cls = .hidden ∧ d.level ≠ .opened then some .locked
      else if e.state = .damaged then some .corrupt
      else none

/-- Whether a command on this key would make the group's seventeenth key (R90, check 6). -/
def Device.seventeenth (d : Device) (k : Key) : Bool :=
  match d.group with
  | none => false
  | some g => (d.member k).isNone && 16 ≤ g.members.length

/-- The key as a command's checks see it: the member entry in an open group, else the Directory entry (R87, R111). -/
def Device.seen (d : Device) (k : Key) : Option KeyView :=
  match d.member k with
  | some m => some { cls := m.cls, state := m.state, loc := m.loc, length := m.length }
  | none =>
    match d.entry k with
    | some e => some { cls := e.cls, state := e.state, loc := e.loc, length := e.length }
    | none => none

/-- WRITE (R90, R91). -/
def Device.writeRefusal (d : Device) (q : Descriptor) : Option Status :=
  if isUserKey q.key = false then some .badKey
  else if 256 < q.length.toNat then some .badLength
  else if classField q.cls = .nothing then some .badClass
  else
    match d.seen q.key with
    | some v =>
      if v.cls = .once ∨ v.cls = .counter then some .classDenied
      else if classField q.cls ≠ .any ∧ classField q.cls ≠ .named v.cls then some .badClass
      else if d.seventeenth q.key = true then some .groupFull
      else none
    | none =>
      if classField q.cls = .any then some .badClass
      else if classField q.cls = .named .counter then some .classDenied
      else if d.level = .final then some .frozen
      else if d.seventeenth q.key = true then some .groupFull
      else if 376 ≤ d.userSlots then some .directoryFull
      else none

/-- DELETE (R93). -/
def Device.deleteRefusal (d : Device) (q : Descriptor) : Option Status :=
  if isUserKey q.key = false then some .badKey
  else
    match d.seen q.key with
    | none => some .notFound
    | some v =>
      if v.state = .tombstone then some .notFound
      else if v.cls = .once ∨ v.cls = .counter then some .classDenied
      else if d.level = .final then some .locked
      else if d.seventeenth q.key = true then some .groupFull
      else none

/-- ADD (R94). -/
def Device.addRefusal (d : Device) (q : Descriptor) : Option Status :=
  if isUserKey q.key = false then some .badKey
  else if q.argument = 0 then some .badArgument
  else
    match d.seen q.key with
    | some v =>
      if v.cls ≠ .counter ∨ v.state = .damaged then some .classDenied
      else if d.seventeenth q.key = true then some .groupFull
      else none
    | none =>
      if d.level = .final then some .frozen
      else if d.seventeenth q.key = true then some .groupFull
      else if 376 ≤ d.userSlots then some .directoryFull
      else none

/-- OPEN_GROUP, before it asks for a sequence (R110). -/
def Device.openGroupRefusal (d : Device) (q : Descriptor) : Option Status :=
  if d.group.isSome then some .groupOpen
  else if 8 ≤ d.commits.length then some .groupTableFull
  else if 6000 < q.argument.toNat then some .badArgument
  else none

/-- RECLAIM (R136): the bank it names is neither FULL nor RECLAIMING, or the argument names none. -/
def Device.reclaimRefusal (d : Device) (q : Descriptor) : Option Status :=
  if q.argument.toNat = 0xFF then none
  else if h : q.argument.toNat < 32 then
    if (d.bank ⟨q.argument.toNat, h⟩).state = .full ∨ (d.bank ⟨q.argument.toNat, h⟩).state = .reclaiming then none
    else some .badArgument
  else some .badArgument

/-- RAISE_LOCK (R171). -/
def Device.raiseLockRefusal (d : Device) (q : Descriptor) : Option Status :=
  if 2 < q.argument.toNat ∨ q.argument.toNat ≤ d.level.number then some .badArgument else none

/-- The status that the command's own checks end it with, if they refuse it. -/
def Device.refusalFor (d : Device) (p : Posted) : Option Status :=
  match p.code with
  | .read => d.readRefusal p.desc
  | .write => d.writeRefusal p.desc
  | .delete => d.deleteRefusal p.desc
  | .add => d.addRefusal p.desc
  | .list => none
  | .openGroup => d.openGroupRefusal p.desc
  | .commitGroup => if d.group = none then some .noGroup else none
  | .dropGroup => if d.group = none then some .noGroup else none
  | .reclaim => d.reclaimRefusal p.desc
  | .format => if d.level = .final ∨ d.generation = some 0xFFFFFFFF then some .locked else none
  | .raiseLock => d.raiseLockRefusal p.desc

/-! ## Commands that place a record -/

/-- Whether a command taken now joins the open group (R111): a WRITE, DELETE or ADD while a group is open. -/
def Device.joins (d : Device) (p : Posted) : Bool := p.code.joinsGroup && d.group.isSome

/-- The head command as the executing command at a stage. -/
def Device.executing (d : Device) (p : Posted) (stage : Stage) : Executing :=
  { code := p.code, desc := p.desc, detached := false, member := d.joins p, stage := stage, format := none }

/-- The group id a member's record carries (R92). -/
def Device.groupId (d : Device) : Option Nat :=
  match d.group with
  | none => none
  | some g => some g.id

/-- The class a WRITE's record carries (R87): the key's own, or for a new key the class the command gives. -/
def Device.recordClass (d : Device) (q : Descriptor) : RecClass :=
  match d.seen q.key, classField q.cls with
  | some v, _ => v.cls
  | none, .named c => c
  | none, _ => .plain

/-- The bytes a WRITE takes from the buffer it names (R73). -/
def Device.taken256 (d : Device) (q : Descriptor) : List Byte :=
  match bufferIndex q.buffer with
  | some i => (List.range q.length.toNat).map fun k => (d.buffer i).byte k
  | none => []

/-- The record that the head command programs once its checks have passed (R92, R93, R95, R115, R172): none for a command that
programs none, for an ADD of an existing counter, which reads first, and for a COMMIT_GROUP without a group or without members. -/
def Device.recordFor (d : Device) (p : Posted) : Option RecordSpec :=
  match p.code with
  | .write =>
    some { key := p.desc.key, kind := .data, cls := d.recordClass p.desc, payload := d.taken256 p.desc, gid := d.groupId }
  | .delete =>
    match d.seen p.desc.key with
    | some v => some { key := p.desc.key, kind := .tombstone, cls := v.cls, payload := [], gid := d.groupId }
    | none => none
  | .add =>
    match d.seen p.desc.key with
    | some _ => none
    | none =>
      some { key := p.desc.key, kind := .data, cls := .counter, payload := bytesOf 8 p.desc.argument.toNat, gid := d.groupId }
  | .commitGroup =>
    match d.group with
    | none => none
    | some g =>
      if g.members = [] then none
      else some { key := 0xFF10, kind := .commit, cls := .plain, payload := bytesOf 4 g.id ++ bytesOf 2 g.members.length, gid := none }
  | .raiseLock =>
    if d.repairing then none
    else some { key := 0xFF01, kind := .data, cls := .plain, payload := [BitVec.ofNat 8 p.desc.argument.toNat], gid := none }
  | _ => none

/-- The group once the head command was taken: COMMIT_GROUP makes it COMMITTING and removes its deadline (R115). -/
def Device.groupTaken (d : Device) (p : Posted) : Option GroupContext :=
  match p.code, d.group with
  | .commitGroup, some g => some { g with state := .committing, deadline := none }
  | _, g => g

/-! ## Commands between whose taking and step the warning comes (R182, R184; log entry 40) -/

/-- The head command as the engine has taken it, its step still to come, with the payload of a WRITE (R73) and the group timeout as
configured (R110). -/
def State.headExecuting (s : State) (p : Posted) : Executing :=
  s.dev.executing p (.checking { payload := if p.code = .write then s.dev.taken256 p.desc else [], timeout := s.cfg.groupTimeout })

/-- The device once the head command was taken and its general checks passed. -/
def State.headTaken (s : State) (p : Posted) (rest : List Posted) : Device :=
  { s.dev with queue := rest, group := s.dev.groupTaken p, ex := some (s.headExecuting p) }

/-- The head command can be taken and nothing waits; no erase is the Command Engine's, and the supply is not below the brown-out level. -/
structure State.MeetsWarning (s : State) (p : Posted) (rest : List Posted) : Prop where
  turn : s.Turn p rest
  rest : s.dev.AtRest
  undecided : s.dev.fc.decided = none
  erase : ∀ e, s.dev.fc.erase = some e → e.requester ≠ .command
  supply : 1600 ≤ s.power.vdd

/-- The device whose OPEN group, if it has one, has ended (R122). -/
def Device.groupWarned (d : Device) : Device :=
  match d.group with
  | some g => if g.state = .opened then d.endGroup else d
  | none => d

/-- The device after the entry to WARNING, the step of the taken command `x` apart: POWER_WARN is set, the fairness count is 0,
an erase in progress is abandoned and an OPEN group has ended, at once, or with `x` if that is a member command (R16, R122, R195). -/
def Device.underWarning (d : Device) (x : Executing) : Device :=
  let e := { d with flags := { d.flags with powerWarn := true }, fc := { d.fc with fairness := 0 } }
  if x.member then e.abandonErase.groupWarned else e.groupWarned.abandonErase

/-- The device that the checks of `x` then see: a member command's group is there until the command ends (R122). -/
def Device.judging (d : Device) (x : Executing) : Device := if x.member then d else d.underWarning x

/-- The state after PFW# went LOW in the condition NORMAL, with the device it leaves. -/
def State.pfwLow (s : State) (cut : CutShort) (d : Device) : State :=
  { s with
    flash := s.abandonedFlash cut.erase
    power := { s.power with pfwLow := true, warning := true, debounce := .idle }
    dev := d }

/-- A writer of the Command Engine at a stage. -/
def writerAt (record : RecordSpec) (stage : WriterStage) : Writer :=
  { record := record, fixedSeq := none, faulted := false, stage := stage }

/-- Whether a span fits the ACTIVE bank `b` at its append position (R37, R104). -/
def Device.fitsIn (d : Device) (b : BankId) (span : Nat) : Prop :=
  d.activeBank = some b ∧ 3 + (d.bank b).used + span ≤ 128

/-- No ACTIVE bank can hold the span. -/
def Device.fitsNowhere (d : Device) (span : Nat) : Prop :=
  ∀ b, d.activeBank = some b → 128 < 3 + (d.bank b).used + span

/-- The Flash Controller after a grant to a requester while it was free and nothing else waited (R13, R15). -/
def FlashController.granted (fc : FlashController) (who : Requester) (r : Request) : FlashController :=
  match r with
  | .erase b =>
    { fc with
      erase := some { requester := who, bank := b, suspended := false, count := 0 }
      fairness := if who = .mount then fc.fairness else 0 }
  | _ => { fc with op := some (who, r), fairness := if who = .mount then fc.fairness else 0 }

/-- The Flash Controller after its operation ended and the next request, the only one, was granted. -/
def FlashController.regranted (fc : FlashController) (who : Requester) (r : Request) : FlashController :=
  FlashController.granted { fc with op := none } who r

end Sys2Proof.Machine
end

