-- ==== Sys2Proof/Certificates/Slice0/Obligations.lean ====
section
/-! DEFINITION. The statements about the ZJ-6432, for the provers. Each docstring names the rules of spec/ behind it, and the log entry
where a clause is the model's choice. -/
open Sys2Proof Sys2Proof.Machine

/-! ## One step -/

/-- A step takes the command at the front of the queue and executes it on the state with the queue's rest; no command changes the
queue. With no command waiting the block idles (the model's choice, log entry 24). -/
def Obligations.StepRunsFrontCommand : Prop :=
  (∀ (c : Instr) (rest : List Instr) (s : State), s.pending = c :: rest → step s = exec c { s with pending := rest }) ∧
  (∀ (c : Instr) (s t : State), exec c s = .next t → t.pending = s.pending) ∧
  (∀ s : State, s.pending = [] → step s = .next s)

/-! ## The pins of the port (R188 to R192, R196, R198) -/

/-- CS# falls, the port held neither by RST# nor by a brown-out (R188, R189, R190, section 11.6): for the header bytes that the SCK edges
complete, the frame state, the pointer, the bytes on SDO, and what the status summary byte shows. CS# rises: the frame and its capture
end, and a partial byte has no other effect (R192). A held port ignores CS# (R181, R198). A fall of CS# in a frame and a rise without
one cannot occur and change nothing (log entry 6); `sent` is the model's record of the bytes on SDO (log entry 5). -/
def Obligations.FramesOpenAndEnd : Prop :=
  (∀ s : State,
    s.summary.getLsbD 7 = s.irqAsserted ∧
    s.summary.getLsbD 6 = !s.dev.fifo.isEmpty ∧
    s.summary.getLsbD 5 = s.power.warning ∧
    (s.summary.getLsbD 4 = true ↔ s.dev.commandPhase = .waitingSpace) ∧
    s.summary.setWidth 4 = BitVec.ofNat 4 s.dev.store.code) ∧
  (∀ (s : State) (idleHigh : Bool) (edges : List SckEdge) (bytes : List Byte), bytes = wholeBytes (sampled edges) →
    (s.rstLow = true ∨ s.power.vdd < 1600 ∨ s.port.frame ≠ none → exec (.frame idleHigh edges) s = .next s) ∧
    (s.rstLow = false → 1600 ≤ s.power.vdd → s.port.frame = none →
      (bytes = [] →
        exec (.frame idleHigh edges) s =
          .next { s with
            port := { s.port with frame := some .header1, idleHigh := idleHigh, capture := none, sent := [s.summary] } }) ∧
      (∀ code : Byte, bytes = [code] →
        exec (.frame idleHigh edges) s =
          .next { s with
            port := { s.port with
              frame := some (if code = 0xA5 then .header2 false else if code = 0x5A then .header2 true else .ignoring)
              idleHigh := idleHigh, capture := none, sent := [s.summary] } }) ∧
      (∀ code address : Byte, bytes = [code, address] →
        (code = 0xA5 ∨ code = 0x5A →
          exec (.frame idleHigh edges) s =
            .next { s with
              port := { s.port with
                frame := some (if code = 0xA5 then .reading else .writing)
                pointer := address.setWidth 7
                idleHigh := idleHigh, capture := none, sent := [s.summary, BitVec.ofNat 8 s.dev.credits] } }) ∧
        (code ≠ 0xA5 ∧ code ≠ 0x5A →
          exec (.frame idleHigh edges) s =
            .next { s with
              port := { s.port with
                frame := some .ignoring, idleHigh := idleHigh, capture := none, sent := [s.summary, 0xFF] } })))) ∧
  (∀ (s : State) (edges : List SckEdge),
    (s.port.frame ≠ none →
      exec (.frameEnd edges) s = .next { s with port := { s.port with frame := none, capture := none } }) ∧
    (s.port.frame = none → exec (.frameEnd edges) s = .next s))

/-- Bits on SDI and SDO (R188, R198): a byte travels most significant bit first and is sampled at the rising edges of SCK. In a frame of
a port that is not held, SDO is driven with bit `n` of the bytes sent and the byte under way once `n` more bits have been driven than
the first: that one at the fall of CS# in mode 0 and at the first falling edge in mode 3, each later one at a falling edge. While CS# is
HIGH, RST# is LOW or the supply is below the brown-out level, SDO is high impedance; it is in mode 3 before the first falling edge too
(the model's choice, log entry 5). -/
def Obligations.BitsOnTheWires : Prop :=
  (∀ (b : Byte) (edges : List SckEdge),
    sampled edges = (List.range 8).map (fun i => b.getLsbD (7 - i)) → wholeBytes (sampled edges) = [b]) ∧
  (∀ (sdi : Bool) (edges : List SckEdge), sampled (.falls :: .rises sdi :: edges) = sdi :: sampled edges) ∧
  (∀ (s : State) (edges : List SckEdge) (bytes : List Byte) (falls : Nat), bytes = s.port.sent ++ [s.nextByte] →
    falls = (edges.filter fun e => decide (e = SckEdge.falls)).length →
    (s.port.frame = none ∨ s.rstLow = true ∨ s.power.vdd < 1600 → s.sdo edges = none) ∧
    (s.port.frame ≠ none → s.rstLow = false → 1600 ≤ s.power.vdd →
      (s.port.idleHigh = true → falls = 0 → s.sdo edges = none) ∧
      (∀ n : Nat, n + (if s.port.idleHigh then 1 else 0) = falls → n < 8 * bytes.length →
        s.sdo edges = some ((bytes.getD (n / 8) 0).getLsbD (7 - n % 8)))))

/-- The register map (section 11.6, R67, R80, R149, R159, R191, R195): what a read of each window address returns, the data port apart.
The flags register bit by bit; the completion head, 0xFF while the FIFO is empty; actions and unlisted addresses read 0x00. -/
def Obligations.RegisterMap : Prop :=
  ∀ s : State,
    (s.register 0x00 = 0x64 ∧ s.register 0x01 = 0x01 ∧ s.register 0x02 = BitVec.ofNat 8 s.dev.store.code ∧
      s.register 0x03 = BitVec.ofNat 8 s.dev.level.number ∧ s.register 0x04 = (if s.power.warning then 1 else 0) ∧
      s.register 0x05 = BitVec.ofNat 8 (8 - s.dev.load) ∧ s.register 0x06 = BitVec.ofNat 8 s.dev.freeCount ∧
      s.register 0x07 = BitVec.ofNat 8 (s.dev.banksIn .bad).length) ∧
    (s.register 0x08 = BitVec.ofNat 8 (s.dev.dir.length / 256) ∧ s.register 0x09 = BitVec.ofNat 8 s.dev.dir.length ∧
      s.register 0x0A = BitVec.ofNat 8 (s.dev.deadTotal / 256) ∧ s.register 0x0B = BitVec.ofNat 8 s.dev.deadTotal ∧
      s.register 0x0C = (match s.dev.mountOutcome with
        | .none => 0
        | .ready => 1
        | .degraded => 2
        | .blank => 3) ∧
      s.register 0x0D = BitVec.ofNat 8 s.dev.banksHanded ∧
      (∀ i : Fin 8, (s.register 0x0E).getLsbD i.val =
        [s.dev.causes.sequence, s.dev.causes.epoch, s.dev.causes.banks, s.dev.causes.bankMap, s.dev.causes.reclaim,
          s.dev.causes.directory, s.dev.causes.commit, false].getD i.val false) ∧
      s.register 0x0F = BitVec.ofNat 8
        (s.dev.commits.length +
          16 * (match s.dev.group with
            | none => 0
            | some g => if g.state = .opened then 1 else 2))) ∧
    ((s.dev.fifo = [] → ∀ a : Addr, 0x10 ≤ a.toNat → a.toNat ≤ 0x13 → s.register a = 0xFF) ∧
      (∀ c rest, s.dev.fifo = c :: rest →
        s.register 0x10 = c.tag ∧ s.register 0x11 = BitVec.ofNat 8 c.status.value ∧
        s.register 0x12 = BitVec.ofNat 8 (c.result / 256) ∧ s.register 0x13 = BitVec.ofNat 8 c.result) ∧
      s.register 0x14 = BitVec.ofNat 8 s.dev.fifo.length ∧ s.register 0x15 = BitVec.ofNat 8 s.dev.queue.length ∧
      s.register 0x16 = (match s.dev.commandPhase with
        | .idle => 0
        | .executing => 1
        | .waitingSpace => 2) ∧
      s.register 0x17 = (match s.dev.reclaimPhase with
        | .idle => 0
        | .erasing => 1
        | .selecting => 2
        | .copying => 3
        | .retiring => 4
        | .halted => 5)) ∧
    (s.register 0x20 = s.desc.code ∧ s.register 0x21 = s.desc.tag ∧ s.register 0x22 = s.desc.key.extractLsb' 8 8 ∧
      s.register 0x23 = s.desc.key.setWidth 8 ∧ s.register 0x24 = s.desc.buffer ∧ s.register 0x25 = s.desc.offset ∧
      s.register 0x26 = s.desc.length.extractLsb' 8 8 ∧ s.register 0x27 = s.desc.length.setWidth 8 ∧
      s.register 0x28 = s.desc.cls ∧ s.register 0x29 = s.desc.argument.extractLsb' 24 8 ∧
      s.register 0x2A = s.desc.argument.extractLsb' 16 8 ∧ s.register 0x2B = s.desc.argument.extractLsb' 8 8 ∧
      s.register 0x2C = s.desc.argument.setWidth 8 ∧ s.register 0x31 = BitVec.ofNat 8 s.select.val ∧
      s.register 0x32 = (s.dev.buffer s.select).pointer) ∧
    (s.register 0x40 = BitVec.ofNat 8 s.cfg.startThreshold ∧ s.register 0x41 = BitVec.ofNat 8 (s.cfg.wearGap / 256) ∧
      s.register 0x42 = BitVec.ofNat 8 s.cfg.wearGap ∧ s.register 0x43 = BitVec.ofNat 8 (s.cfg.groupTimeout / 256) ∧
      s.register 0x44 = BitVec.ofNat 8 s.cfg.groupTimeout ∧ s.register 0x45 = (if s.cfg.suspendEnable then 1 else 0) ∧
      s.register 0x46 = (match s.cfg.supplyThreshold with
        | .disabled => 0
        | .v20 => 1
        | .v24 => 2
        | .v28 => 3) ∧
      (∀ i : Fin 8, (s.register 0x50).getLsbD i.val =
        [!s.dev.fifo.isEmpty, s.dev.flags.spaceLow, s.dev.flags.mounted, s.dev.flags.groupExpired, s.dev.flags.powerWarn,
          s.dev.flags.powerOk, s.dev.flags.degraded, s.dev.flags.overrun].getD i.val false) ∧
      s.register 0x51 = s.mask) ∧
    ∀ a : Addr,
      (0x18 ≤ a.toNat ∧ a.toNat < 0x20) ∨ (0x2D ≤ a.toNat ∧ a.toNat < 0x30) ∨ (0x33 ≤ a.toNat ∧ a.toNat < 0x40) ∨
        (0x47 ≤ a.toNat ∧ a.toNat < 0x50) ∨ 0x52 ≤ a.toNat → s.register a = 0

/-- R196: IRQ# is LOW exactly while a set flag is enabled and RST# is not LOW. A byte written to the enable mask is the mask as soon as it
has completed, and one written to the flags register clears the latched flags whose bits are 1, so that IRQ# follows both at once. The
mask is 0x00, and IRQ# released, after a power-on reset and a pin reset; a port reset keeps the mask. -/
def Obligations.InterruptFollowsEnabledFlags : Prop :=
  (∀ s : State,
    s.irqAsserted = true ↔ s.rstLow = false ∧ ∃ i : Fin 8, (s.register 0x50).getLsbD i.val = true ∧ s.mask.getLsbD i.val = true) ∧
  (∀ (s : State) (v : Byte),
    (s.writingAt 0x51 → exec (.enableMaskWrite v) s = .next { s.byteTaken with mask := v }) ∧
    (s.writingAt 0x50 →
      exec (.notificationFlagsClear v) s =
        .next { s.byteTaken with
          dev := { s.dev with
            flags :=
              { spaceLow := s.dev.flags.spaceLow && !v.getLsbD 1
                mounted := s.dev.flags.mounted && !v.getLsbD 2
                groupExpired := s.dev.flags.groupExpired && !v.getLsbD 3
                powerWarn := s.dev.flags.powerWarn && !v.getLsbD 4
                powerOk := s.dev.flags.powerOk && !v.getLsbD 5
                degraded := s.dev.flags.degraded && !v.getLsbD 6
                overrun := s.dev.flags.overrun && !v.getLsbD 7 } } }) ∧
    (s.writingAt 0x7F → ∃ t, exec (.portReset v) s = .next t ∧ t.mask = s.mask)) ∧
  (∀ (s : State) (i : Instr), Instr.resets s i → ∃ t, exec i s = .next t ∧ t.mask = 0 ∧ t.irqAsserted = false)

/-- What window bytes reach. In an IGNORING frame only 0xFF goes out on SDO (R189), and in a frame that is not a write frame at its address
the event cannot occur and changes nothing (log entry 6); the same for GO, and for a GO that names another command than the code register
does. In any frame, the host's frames and window bytes, but for the port reset and the supply threshold register, reach neither the array, nor
the power condition, nor any engine or table, nor the executing command: of the blocks behind the window they change the queue, the FIFO, the
buffers and the flags alone (R76, R194). -/
def Obligations.WindowBytesReach : Prop :=
  ((∀ (s : State) (i : Instr) (a : Addr), Instr.byteAddress i = some a →
    (s.port.frame = some .ignoring →
      exec i s = .next { s with port := { s.port with sent := s.port.sent ++ [0xFF] } }) ∧
    (s.port.frame ≠ some .ignoring ∧ ¬s.writingAt a → exec i s = .next s)) ∧
  (∀ (s : State) (v : Byte),
    (s.port.frame = some .ignoring →
      exec (Instr.goWrite v (CommandCode.ofByte s.desc.code)) s =
        .next { s with port := { s.port with sent := s.port.sent ++ [0xFF] } }) ∧
    (s.port.frame ≠ some .ignoring ∧ ¬s.writingAt 0x2F →
      exec (Instr.goWrite v (CommandCode.ofByte s.desc.code)) s = .next s)) ∧
  (∀ (s : State) (v : Byte) (code : Option CommandCode), code ≠ CommandCode.ofByte s.desc.code →
    exec (Instr.goWrite v code) s = .next s)) ∧
  ∀ (i : Instr) (s t : State), exec i s = .next t →
    ((∃ high edges, i = .frame high edges) ∨ (∃ edges, i = .frameEnd edges) ∨ i = .bufferDataRead ∨ Instr.isWriteByte s i) →
    (∀ v, i ≠ .portReset v) → (∀ v r, i ≠ .configurationWrite 0x46 v r) →
    t.flash = s.flash ∧ t.power = s.power ∧ t.rstLow = s.rstLow ∧
      t.dev = { s.dev with queue := t.dev.queue, fifo := t.dev.fifo, buffers := t.dev.buffers, flags := t.dev.flags }

/-- A data byte of a read frame, the data port apart: the register at the pointer as it stands, or the captured less significant byte
of a two-byte status value, which is captured when the more significant byte is sent (R191, R192). A frame that is IGNORING sends
0xFF; in any other the event cannot occur (log entries 6 and 23). In a read frame no command but a data byte of the frame, the frame's
end, RST# going LOW and the resets changes the port: a captured half stays until it is sent or the frame ends (R192). -/
def Obligations.ReadByteSendsRegister : Prop :=
  (∀ s : State,
    (s.port.frame = some .reading → s.port.pointer ≠ 0x30 → ∀ capture,
      capture = (if s.port.pointer = 0x08 ∨ s.port.pointer = 0x0A then some (s.port.pointer + 1, s.register (s.port.pointer + 1))
        else none) →
      (∀ v, s.port.capture = some (s.port.pointer, v) → s.port.pointer = 0x09 ∨ s.port.pointer = 0x0B →
        exec .bufferDataRead s = .next (s.byteSent v capture)) ∧
      ((∀ v, s.port.capture ≠ some (s.port.pointer, v)) ∨ (s.port.pointer ≠ 0x09 ∧ s.port.pointer ≠ 0x0B) →
        exec .bufferDataRead s = .next (s.byteSent (s.register s.port.pointer) capture))) ∧
    (s.port.frame = some .ignoring →
      exec .bufferDataRead s = .next { s with port := { s.port with sent := s.port.sent ++ [0xFF] } }) ∧
    (s.port.frame ≠ some .reading ∧ s.port.frame ≠ some .ignoring → exec .bufferDataRead s = .next s)) ∧
  (∀ (i : Instr) (s t : State), s.port.frame = some .reading → i ≠ .bufferDataRead → (∀ edges, i ≠ .frameEnd edges) →
    ¬Instr.resets s i → (∀ cut, i ≠ .pinReset .low cut) → exec i s = .next t → t.port = s.port)

/-- The buffer data port (R72, R191). A byte read is the selected buffer's at its pointer, or 0xFF when the engine owns it. A byte
written is stored there when the host owns the buffer and ignored when the engine does, and every other byte of the buffer keeps its
value. Either way the pointer rises by one, from 255 to 0, and the window address stays. -/
def Obligations.DataPortReadAndWritten : Prop :=
  (∀ s : State, s.port.frame = some .reading → s.port.pointer = 0x30 → ∀ b, b = s.dev.buffer s.select →
    exec .bufferDataRead s =
      .next { s.byteSent (if b.owner = .host then b.byte b.pointer.toNat else 0xFF) none with
        dev := s.dev.setBuffer s.select { b with pointer := b.pointer + 1 } }) ∧
  (∀ (s : State) (v : Byte), s.writingAt 0x30 → ∃ b : Buffer,
    exec (.bufferDataWrite v) s = .next { s.byteTaken with dev := s.dev.setBuffer s.select b } ∧
    b.owner = (s.dev.buffer s.select).owner ∧
    b.pointer = (s.dev.buffer s.select).pointer + 1 ∧
    ∀ k : Nat, b.byte k =
      if (s.dev.buffer s.select).owner = .host ∧ k = (s.dev.buffer s.select).pointer.toNat then v
      else (s.dev.buffer s.select).byte k)

/-! ## Registers that the host reads and writes (R71, R80, R193 to R197) -/

/-- What the completion head registers show, that each byte read of them gives the head as it stands and pops nothing, that a
completion placed behind others leaves the head alone, and what POP does (R80). BUFFER_DATA_READ stands for the read of any register
(the model's choice, log entry 23). -/
def Obligations.CompletionHeadAndPop : Prop :=
  (∀ (s : State) (c : Completion) (rest : List Completion), s.dev.fifo = c :: rest →
    s.register 0x10 = c.tag ∧ s.register 0x11 = BitVec.ofNat 8 c.status.value ∧
    s.register 0x12 = BitVec.ofNat 8 (c.result / 256) ∧ s.register 0x13 = BitVec.ofNat 8 c.result) ∧
  (∀ s : State, s.dev.fifo = [] →
    s.register 0x10 = 0xFF ∧ s.register 0x11 = 0xFF ∧ s.register 0x12 = 0xFF ∧ s.register 0x13 = 0xFF) ∧
  (∀ st : Status, BitVec.ofNat 8 st.value ≠ (0xFF : Byte)) ∧
  (∀ s : State, s.port.frame = some .reading → 0x10 ≤ s.port.pointer.toNat ∧ s.port.pointer.toNat ≤ 0x13 →
    exec .bufferDataRead s = .next (s.byteSent (s.register s.port.pointer) none)) ∧
  (∀ (s : State) (c : Completion) (k : Fin 4), s.dev.fifo ≠ [] →
    { s with dev := { s.dev with fifo := s.dev.fifo ++ [c] } }.register (BitVec.ofNat 7 (0x10 + k.val)) =
      s.register (BitVec.ofNat 7 (0x10 + k.val))) ∧
  (∀ (s : State) (v : Byte), s.writingAt 0x18 →
    (∀ c rest, s.dev.fifo = c :: rest →
      exec (.pop v) s = .next { s.byteTaken with dev := { s.dev with fifo := rest } } ∧
      (s.creditLaw → { s.dev with fifo := rest }.credits = s.dev.credits + 1)) ∧
    (s.dev.fifo = [] → exec (.pop v) s = .next s.byteTaken)) ∧
  (∀ d : Device, d.flagsByte.getLsbD 0 = false ↔ d.fifo = [])

/-- The configuration registers (R179, R193, R194): a byte in range is stored, a byte out of range is ignored; the more significant byte
of a two-byte register goes to its holding byte, and the less significant one forms the value. A supply threshold above 3 is ignored; a
setting is stored and reaches the comparator at once: where the condition is NORMAL and the new threshold asserts, the condition becomes
WARNING and POWER_WARN is set; the blocks answer as they do when PFW# asserts (R179; log entry 40). -/
def Obligations.ConfigurationRegisters : Prop :=
  (∀ (s : State) (v : Byte) (r : WarningEntry),
    (s.writingAt 0x40 →
      exec (.configurationWrite 0x40 v r) s =
        .next { s.byteTaken with
          cfg := if 2 ≤ v.toNat ∧ v.toNat ≤ 8 then { s.cfg with startThreshold := v.toNat } else s.cfg }) ∧
    (s.writingAt 0x41 →
      exec (.configurationWrite 0x41 v r) s = .next { s.byteTaken with cfg := { s.cfg with wearGapHold := v } }) ∧
    (s.writingAt 0x42 → ∀ n, n = 256 * s.cfg.wearGapHold.toNat + v.toNat →
      exec (.configurationWrite 0x42 v r) s =
        .next { s.byteTaken with
          cfg := if 64 ≤ n ∧ n ≤ 4096 then { s.cfg with wearGap := n, wearGapHold := BitVec.ofNat 8 (n / 256) } else s.cfg }) ∧
    (s.writingAt 0x43 →
      exec (.configurationWrite 0x43 v r) s = .next { s.byteTaken with cfg := { s.cfg with groupTimeoutHold := v } }) ∧
    (s.writingAt 0x44 → ∀ n, n = 256 * s.cfg.groupTimeoutHold.toNat + v.toNat →
      exec (.configurationWrite 0x44 v r) s =
        .next { s.byteTaken with
          cfg := if n ≤ 6000 then { s.cfg with groupTimeout := n, groupTimeoutHold := BitVec.ofNat 8 (n / 256) } else s.cfg }) ∧
    (s.writingAt 0x45 →
      exec (.configurationWrite 0x45 v r) s =
        .next { s.byteTaken with
          cfg :=
            if v = 0 then { s.cfg with suspendEnable := false }
            else if v = 1 then { s.cfg with suspendEnable := true } else s.cfg })) ∧
  (∀ (s : State) (v : Byte) (r : WarningEntry), s.writingAt 0x46 →
    (3 < v.toNat → s.powerLaw → exec (.configurationWrite 0x46 v r) s = .next s.byteTaken) ∧
    (∀ (t : SupplyThreshold) (cfg : Configuration), v.toNat = t.number → cfg = { s.cfg with supplyThreshold := t } →
      (powerAsserted cfg s.power = false → s.power.warning = false →
        exec (.configurationWrite 0x46 v r) s = .next { s.byteTaken with cfg := cfg }) ∧
      (powerAsserted cfg s.power = false → s.power.warning = true →
        exec (.configurationWrite 0x46 v r) s =
          .next { s.byteTaken with
            cfg := cfg
            power := { s.power with debounce := if s.power.debounce = .idle then .pending else s.power.debounce } }) ∧
      (powerAsserted cfg s.power = true → s.power.warning = true →
        exec (.configurationWrite 0x46 v r) s =
          .next { s.byteTaken with cfg := cfg, power := { s.power with debounce := .idle } }) ∧
      (powerAsserted cfg s.power = true → s.power.warning = false → ∃ u,
        exec (.configurationWrite 0x46 v r) s = .next u ∧ u.cfg = cfg ∧ u.port = s.byteTaken.port ∧
        u.power = { s.power with warning := true, debounce := .idle } ∧ u.dev.flags.powerWarn = true ∧
        (1600 ≤ s.power.vdd → ∀ w cut, cut.erase = r.erase →
          exec (.powerWarning (.pfw r.between) cut) { s with cfg := cfg } = .next w → u.dev = w.dev ∧ u.flash = w.flash))))

/-- A descriptor byte is stored in its field, the more significant bytes first; a byte written to a read-only or an unlisted address is
ignored (R65, R191, R193, section 11.6). -/
def Obligations.DescriptorByteStored : Prop :=
  ∀ (s : State) (v : Byte) (a : Addr), s.writingAt a → Addr.hasOwnRow a = false → a ≠ 0x31 → a ≠ 0x32 →
    exec (.registerWrite a v) s =
      .next { s.byteTaken with
        desc :=
          if a = 0x20 then { s.desc with code := v }
          else if a = 0x21 then { s.desc with tag := v }
          else if a = 0x22 then { s.desc with key := v ++ s.desc.key.setWidth 8 }
          else if a = 0x23 then { s.desc with key := s.desc.key.extractLsb' 8 8 ++ v }
          else if a = 0x24 then { s.desc with buffer := v }
          else if a = 0x25 then { s.desc with offset := v }
          else if a = 0x26 then { s.desc with length := v ++ s.desc.length.setWidth 8 }
          else if a = 0x27 then { s.desc with length := s.desc.length.extractLsb' 8 8 ++ v }
          else if a = 0x28 then { s.desc with cls := v }
          else if a = 0x29 then { s.desc with argument := v ++ s.desc.argument.setWidth 24 }
          else if a = 0x2A then { s.desc with argument := s.desc.argument.extractLsb' 24 8 ++ v ++ s.desc.argument.setWidth 16 }
          else if a = 0x2B then { s.desc with argument := s.desc.argument.extractLsb' 16 16 ++ v ++ s.desc.argument.setWidth 8 }
          else if a = 0x2C then { s.desc with argument := s.desc.argument.extractLsb' 8 24 ++ v }
          else s.desc }

/-- The buffer select and the buffer pointer register, written and read, and what the resets leave of the four buffers (R71).
BUFFER_DATA_READ stands for the read of any register (the model's choice, log entry 23). -/
def Obligations.BufferSelectAndPointer : Prop :=
  (∀ (s : State) (v : Byte), s.writingAt 0x31 →
    (∀ i : Fin 4, v.toNat = i.val → exec (.registerWrite 0x31 v) s = .next { s.byteTaken with select := i }) ∧
    (3 < v.toNat → exec (.registerWrite 0x31 v) s = .next s.byteTaken)) ∧
  (∀ s : State, s.port.frame = some .reading → s.port.pointer = 0x31 →
    exec .bufferDataRead s = .next (s.byteSent (BitVec.ofNat 8 s.select.val) none)) ∧
  (∀ (s : State) (v : Byte), s.writingAt 0x32 → ∃ u,
    exec (.registerWrite 0x32 v) s = .next { s.byteTaken with dev := u } ∧
    u = { s.dev with buffers := u.buffers } ∧
    ∀ j, u.buffer j = if j = s.select then { s.dev.buffer j with pointer := v } else s.dev.buffer j) ∧
  (∀ s : State, s.port.frame = some .reading → s.port.pointer = 0x32 →
    exec .bufferDataRead s = .next (s.byteSent (s.dev.buffer s.select).pointer none)) ∧
  (∀ (s : State) (i : Instr), Instr.resets s i ∨ (i = .portReset 0xC3 ∧ s.writingAt 0x7F) →
    ∃ t, exec i s = .next t ∧ t.select = 0 ∧
      ∀ j, (t.dev.buffer j).owner = .host ∧ (t.dev.buffer j).pointer = 0 ∧ ∀ k, (t.dev.buffer j).byte k = 0)

/-- The port reset (R85, R121, R197): 0xC3 empties the host's side and detaches the executing command, any other value is ignored; an
OPEN group ends, or is marked to end with the member command under way, and a COMMITTING one is left. Nothing else changes. -/
def Obligations.PortResetEmptiesHostSide : Prop :=
  ∀ (s : State) (v : Byte), s.writingAt 0x7F →
    (v ≠ 0xC3 → exec (.portReset v) s = .next s.byteTaken) ∧
    (v = 0xC3 → ∃ d : Device,
      exec (.portReset v) s =
        .next { s.byteTaken with
          desc := {}
          select := 0
          dev := { d with
            queue := [], fifo := [], buffers := Vector.replicate 4 { bytes := [], owner := .host, pointer := 0 }, flags := {}
            ex := s.dev.ex.map fun x => { x with detached := true } } } ∧
      (s.dev.group = none → d = s.dev) ∧
      (∀ g, s.dev.group = some g →
        (g.state = .committing → d = s.dev) ∧
        (g.state = .opened → s.dev.ex.any (fun x => x.member) = true →
          d = { s.dev with group := some { g with endsWithMember := true } }) ∧
        (g.state = .opened → s.dev.ex.any (fun x => x.member) = false → d = s.dev.endGroup)))

/-! ## Posting (R66 to R70, R76) -/

/-- R68: a GO without a credit posts nothing and sets OVERRUN, nothing else; OVERRUN stays set until the host clears it, by a write
to the flags register or a port reset, or a power-on or pin reset clears it. -/
def Obligations.GoWithoutCredit : Prop :=
  (∀ (s : State) (v : Byte), s.writingAt 0x2F → s.dev.credits = 0 →
    exec (Instr.goWrite v (CommandCode.ofByte s.desc.code)) s =
      .next { s.byteTaken with dev := { s.dev with flags := { s.dev.flags with overrun := true } } }) ∧
  (∀ (i : Instr) (s t : State), exec i s = .next t → s.dev.flags.overrun = true → t.dev.flags.overrun = false →
    (∃ v : Byte, i = .notificationFlagsClear v ∧ v.getLsbD 7 = true ∧ s.writingAt 0x50) ∨
    (i = .portReset 0xC3 ∧ s.writingAt 0x7F) ∨ Instr.resets s i)

/-- With a credit, the checks of R69 in their order place a completion at once and take the credit; a posting that passes them enters
the queue's tail, takes the credit, and makes the buffer it names ENGINE-owned (R70). -/
def Obligations.PostingCheckedOrAccepted : Prop :=
  ∀ (s : State) (v : Byte) (code : Option CommandCode), s.writingAt 0x2F → s.dev.credits ≠ 0 →
    code = CommandCode.ofByte s.desc.code →
    (∀ st : Status,
      ((code = none ∧ st = .badCommand) ∨
        ∃ c, code = some c ∧ (c = .read ∨ c = .write ∨ c = .add ∨ c = .list) ∧
          ((3 < s.desc.buffer.toNat ∧ st = .badArgument) ∨
            ∃ i : Fin 4, s.desc.buffer.toNat = i.val ∧ (s.dev.buffer i).owner = .engine ∧ st = .bufferBusy)) →
      ∀ d : Device, d = { s.dev with fifo := s.dev.fifo ++ [{ tag := s.desc.tag, status := st, result := 0 }] } →
        exec (Instr.goWrite v code) s = .next { s.byteTaken with dev := d } ∧ d.credits + 1 = s.dev.credits) ∧
    (∀ c : CommandCode, code = some c → ∀ d : Device,
      d = { s.dev with queue := s.dev.queue ++ [{ code := c, desc := s.desc }] } →
        d.credits + 1 = s.dev.credits ∧
        (c ≠ .read ∧ c ≠ .write ∧ c ≠ .add ∧ c ≠ .list →
          exec (Instr.goWrite v code) s = .next { s.byteTaken with dev := d }) ∧
        (c = .read ∨ c = .write ∨ c = .add ∨ c = .list →
          ∀ i : Fin 4, s.desc.buffer.toNat = i.val → (s.dev.buffer i).owner = .host →
            exec (Instr.goWrite v code) s =
              .next { s.byteTaken with dev := d.setBuffer i { s.dev.buffer i with owner := .engine } })) ∧
    (code = none ↔ s.desc.code = 0 ∨ 0x0B < s.desc.code.toNat)

/-! ## Taking a command (R74, R75, R82) -/

/-- No command is taken while the engine is not IDLE, the queue is empty or the store is MOUNTING (R74, R85). A command taken under
WARNING, in BLANK or in DEGRADED meets the general checks in their order (R74, R75); one that passes them meets its own checks, each in
the order its chapter gives (`Device.refusalFor`). The first check that refuses ends the command at once with its status and result 0, and
nothing else changes (R82, R86, R88, R90, R91, R93, R94, R110, R115, R136, R161, R171). Where an entry to WARNING comes between the taking
of a command and its step (R182, R184; the model's form, log entry 40), the general checks are made before it and the command's own after
it: one that they refuse ends with that status, and a READ, WRITE, DELETE or ADD that passes them ends POWER_ABORT at its first request,
without a span and without a sequence; an OPEN group, its own too, ends (R122). With nothing to take, such an entry is as any other. -/
def Obligations.ChecksEndCommand : Prop :=
  (∀ s : State, s.dev.AtRest → s.dev.ex ≠ none ∨ s.dev.queue = [] ∨ s.dev.store = .mounting → exec .takeCommand s = .next s) ∧
  (∀ (s : State) (p : Posted) (rest : List Posted) (st : Status),
    s.dev.AtRest → s.dev.groupLaw → s.dev.ex = none → s.dev.queue = p :: rest → s.dev.store ≠ .mounting →
    ((s.power.warning = true ∧ st = .powerAbort) ∨
      (s.power.warning = false ∧ s.dev.store = .blank ∧ p.code ≠ .format ∧ st = .notFormatted) ∨
      (s.power.warning = false ∧ s.dev.store = .degraded ∧ st = .readOnly ∧
        (p.code = .write ∨ p.code = .delete ∨ p.code = .add ∨ p.code = .openGroup ∨ p.code = .commitGroup ∨
          p.code = .raiseLock))) →
    exec .takeCommand s = .next (s.headEnded p rest st 0)) ∧
  (∀ (s : State) (p : Posted) (rest : List Posted) (st : Status),
    s.Turn p rest → s.dev.AtRest → s.dev.refusalFor p = some st → exec .takeCommand s = .next (s.headEnded p rest st 0)) ∧
  (∀ (s : State) (cut : CutShort), s.dev.AtRest → s.dev.ex ≠ none ∨ s.dev.queue = [] ∨ s.dev.store = .mounting →
    exec (.powerWarning (.pfw true) cut) s = exec (.powerWarning (.pfw false) cut) s) ∧
  (∀ (s : State) (p : Posted) (rest : List Posted) (st : Status) (cut : CutShort),
    s.dev.AtRest → s.dev.groupLaw → s.dev.ex = none → s.dev.queue = p :: rest → s.power.warning = false →
    (s.dev.store = .blank ∧ p.code ≠ .format ∧ st = .notFormatted) ∨
      (s.dev.store = .degraded ∧ p.code.readOnlyRefused = true ∧ st = .readOnly) →
    exec (.powerWarning (.pfw true) cut) s = exec (.powerWarning (.pfw false) cut) (s.headEnded p rest st 0)) ∧
  (∀ (s : State) (p : Posted) (rest : List Posted) (cut : CutShort) (h : Device) (x : Executing),
    s.MeetsWarning p rest → h = s.headTaken p rest → x = s.headExecuting p →
    (∀ st, (h.judging x).refusalFor p = some st →
      exec (.powerWarning (.pfw true) cut) s = .next (s.pfwLow cut ((h.underWarning x).executingEnded x st 0))) ∧
    ((h.judging x).refusalFor p = none →
      p.code = .write ∨ p.code = .delete ∨ p.code = .add ∨
        (p.code = .read ∧ ∃ e, s.dev.entry p.desc.key = some e ∧ e.loc ≠ none) →
      exec (.powerWarning (.pfw true) cut) s = .next (s.pfwLow cut ((h.underWarning x).executingEnded x .powerAbort 0))))

/-- The first request of a command whose checks pass. A READ, and an ADD of an existing counter, read the whole record at the location of
the entry (for an ADD in an open group, of the member entry if there is one) in one multi-line read (R88, R89, R95, R111). A WRITE, a
DELETE, an ADD that creates its counter, a COMMIT_GROUP with members and a RAISE_LOCK whose record fits the ACTIVE bank reserve its span at
the append position, take the next sequence with it and request the header line (R92, R93, R95, R98, R99, R104 case 1, R115, R172). -/
def Obligations.CommandRequestsRecord : Prop :=
  (∀ (s : State) (p : Posted) (rest : List Posted) (loc : Location) (length : Nat),
    s.Ready p rest → s.dev.refusalFor p = none →
    ((p.code = .read ∧ ∃ e, s.dev.entry p.desc.key = some e ∧ e.loc = some loc ∧ e.length = length) ∨
      (p.code = .add ∧ ∃ v, s.dev.seen p.desc.key = some v ∧ v.loc = some loc ∧ v.length = length)) →
    exec .takeCommand s =
      .next { s with
        dev := { s.dev with
          queue := rest
          ex := some (s.dev.executing p (.reading loc))
          fc := s.dev.fc.granted .command (.read loc.bank loc.line (2 + (length + 15) / 16)) } }) ∧
  (∀ (s : State) (p : Posted) (rest : List Posted) (record : RecordSpec) (b : BankId) (line : Nat),
    s.Ready p rest → s.dev.refusalFor p = none → s.dev.recordFor p = some record → s.dev.fitsIn b record.span →
    s.dev.nextSeq ≤ 0xFFFFFF00 → line = 3 + (s.dev.bank b).used →
    exec .takeCommand s =
      .next { s with
        dev := { s.dev.setBank b { s.dev.bank b with used := (s.dev.bank b).used + record.span } with
          queue := rest
          group := s.dev.groupTaken p
          nextSeq := s.dev.nextSeq + 1
          ex := some (s.dev.executing p (.writing (writerAt record
            (.programming { bank := b, line := line, seq := s.dev.nextSeq, at_ := 0 }))))
          fc := s.dev.fc.granted .command (.program b line
            (.recordHeader
              { key := record.key, kind := record.kind, cls := record.cls, length := record.payload.length, seq := s.dev.nextSeq
                gid := record.gid } 0)) } })

/-- A record that fits no ACTIVE bank, the other cases of R104: with an open in progress the command waits for it; with two FREE
banks it opens one, with the next epoch, and requests its open line; otherwise it is WAITING_SPACE with the urgent mark set, and has
reserved nothing and taken no sequence (R78, R98, R101, R102). The bank opened has the lowest erase count of the FREE banks, ties to the
lowest index (R102). With the sequence counter above 0xFFFF_FF00, a command that asks for a sequence makes the store DEGRADED with cause
SEQUENCE and ends READ_ONLY, a COMMIT_GROUP aborting its group; with the epoch counter above it, a command that has to open a bank does the
same with cause EPOCH (R34, R35, R110, R117, R149). -/
def Obligations.CommandOpensOrWaits : Prop :=
  ((∀ (s : State) (p : Posted) (rest : List Posted) (record : RecordSpec),
    s.Turn p rest → s.dev.refusalFor p = none → s.dev.recordFor p = some record → s.dev.fitsNowhere record.span →
    s.dev.nextSeq ≤ 0xFFFFFF00 →
    (s.dev.openMark ≠ none → s.dev.AtRest →
      exec .takeCommand s =
        .next { s with
          dev := { s.dev with
            queue := rest
            group := s.dev.groupTaken p
            ex := some (s.dev.executing p (.writing (writerAt record .waitOpen))) } }) ∧
    (∀ b, s.dev.fc.Free → s.dev.openMark = none → 2 ≤ s.dev.freeCount → s.dev.freeToOpen = some b →
      s.dev.nextEpoch ≤ 0xFFFFFF00 →
      exec .takeCommand s =
        .next { s with
          dev := { s.dev with
            queue := rest
            group := s.dev.groupTaken p
            openMark := some (b, .command)
            nextEpoch := s.dev.nextEpoch + 1
            ex := some (s.dev.executing p (.writing (writerAt record (.opening b s.dev.nextEpoch))))
            fc := s.dev.fc.granted .command (.program b 1 (.openLine s.dev.nextEpoch 0)) } }) ∧
    (s.dev.AtRest → s.dev.openMark = none → s.dev.freeCount < 2 → ∃ d : Device,
      d = { s.dev with
        queue := rest
        group := s.dev.groupTaken p
        ex := some (s.dev.executing p (.writing (writerAt record .waitSpace))) } ∧
      exec .takeCommand s = .next { s with dev := d } ∧ d.commandPhase = .waitingSpace ∧ d.urgent = true)) ∧
  (∀ (d : Device) (b : BankId), d.freeToOpen = some b ↔
    (d.bank b).state = .free ∧
      ∀ b', (d.bank b').state = .free →
        (d.bank b).wear < (d.bank b').wear ∨ ((d.bank b).wear = (d.bank b').wear ∧ b ≤ b'))) ∧
  (∀ (s : State) (p : Posted) (rest : List Posted), s.Turn p rest → s.dev.AtRest → s.dev.refusalFor p = none →
    (0xFFFFFF00 < s.dev.nextSeq → p.code = .openGroup ∨ (p.code ≠ .commitGroup ∧ s.dev.recordFor p ≠ none) →
      exec .takeCommand s =
        .next { s with
          dev := { s.dev.headEnded p rest .readOnly 0 with
            store := .degraded, causes := { s.dev.causes with sequence := true }
            flags := { s.dev.flags with degraded := true } } }) ∧
    (0xFFFFFF00 < s.dev.nextSeq → p.code = .commitGroup ∧ s.dev.recordFor p ≠ none →
      exec .takeCommand s =
        .next { s with
          dev := { s.dev.endGroup.headEnded p rest .readOnly 0 with
            store := .degraded, causes := { s.dev.causes with sequence := true }
            flags := { s.dev.flags with degraded := true } } }) ∧
    (∀ record, s.dev.recordFor p = some record → p.code ≠ .commitGroup → s.dev.fitsNowhere record.span → s.dev.openMark = none →
      2 ≤ s.dev.freeCount → s.dev.nextSeq ≤ 0xFFFFFF00 → 0xFFFFFF00 < s.dev.nextEpoch →
      exec .takeCommand s =
        .next { s with
          dev := { s.dev.headEnded p rest .readOnly 0 with
            store := .degraded, causes := { s.dev.causes with epoch := true }
            flags := { s.dev.flags with degraded := true } } }))

/-- LIST (R73, R96, R97, section 11.6): from the start key on in the Directory's order, no system key and no TOMBSTONE entry, at most
sixteen entries of sixteen bytes from byte 0 of the buffer on, the bytes beyond them kept; it ends OK with their number. The length of a
HIDDEN key shows as 0 at CLOSED and FINAL. A LIST between whose taking and step the warning comes ends as a LIST taken without it does, with
the same buffers and the same completion (R184; log entry 40). -/
def Obligations.ListWritesEntries : Prop :=
  (∀ (s : State) (p : Posted) (rest : List Posted) (i : Fin 4), s.Turn p rest → s.dev.AtRest → p.code = .list →
    p.desc.buffer.toNat = i.val → ∀ (entries : List DirEntry) (bytes : List Byte),
    entries =
      (s.dev.dir.filter fun e =>
        decide (p.desc.argument.toNat % 65536 ≤ e.key.toNat ∧ 1 ≤ e.key.toNat ∧ e.key.toNat ≤ 0xFEFF ∧
          e.state ≠ .tombstone)).take 16 →
    bytes =
      (entries.map fun e =>
        [e.key.extractLsb' 8 8, e.key.setWidth 8,
          (match e.cls with
          | .plain => 0x01
          | .once => 0x02
          | .counter => 0x03
          | .hidden => 0x04),
          (if e.state = .live then 0x01 else 0x03)] ++
        (if e.cls = .hidden ∧ s.dev.level ≠ .opened then [0, 0] else [BitVec.ofNat 8 (e.length / 256), BitVec.ofNat 8 e.length]) ++
        [BitVec.ofNat 8 (e.seq / 16777216), BitVec.ofNat 8 (e.seq / 65536), BitVec.ofNat 8 (e.seq / 256), BitVec.ofNat 8 e.seq,
          0, 0, 0, 0, 0, 0]).flatten →
    ∃ d : Device,
      exec .takeCommand s = .next { s with dev := d } ∧
      d = { s.dev with
        queue := rest
        fifo := s.dev.fifo ++ [{ tag := p.desc.tag, status := .ok, result := entries.length }]
        buffers := d.buffers } ∧
      (∀ j, (d.buffer j).owner = if j = i then .host else (s.dev.buffer j).owner) ∧
      (∀ j, (d.buffer j).pointer = (s.dev.buffer j).pointer) ∧
      ∀ j (k : Nat), (d.buffer j).byte k = if j = i ∧ k < bytes.length then bytes.getD k 0 else (s.dev.buffer j).byte k) ∧
  (∀ (s : State) (p : Posted) (rest : List Posted) (cut : CutShort), s.MeetsWarning p rest → p.code = .list → ∃ t u : State,
    exec .takeCommand s = .next t ∧ exec (.powerWarning (.pfw true) cut) s = .next u ∧
    u = s.pfwLow cut { (s.headTaken p rest).underWarning (s.headExecuting p) with
      ex := none, buffers := t.dev.buffers, fifo := t.dev.fifo } ∧
    ∃ n : Nat, t.dev.fifo = s.dev.fifo ++ [{ tag := p.desc.tag, status := .ok, result := n }])

/-! ## Groups (R110 to R122) -/

/-- OPEN_GROUP: the sequence it takes is the group's id; the group is OPEN and empty, with a deadline of ten ticks for each unit of its
timeout, the configured one for argument 0, and none for a timeout of 0 (R110). DROP_GROUP ends the group without commit and ends OK;
COMMIT_GROUP of a group without members removes the context and ends OK (R115, R119). A group that ends without commit: each bank's dead
lines rise by the spans of the LIVE and TOMBSTONE members whose records lie in it, in every bank state (the model's reading where FORMAT
has made it FREE or BAD, log entry 37), the context, its user slots and the moved-member pairs go, and nothing else changes: no Directory
entry, no Commit Table entry, no tagged count (R118). Where the power warning comes between the taking of such a command and its step (R122,
R182, R184; log entry 40): OPEN_GROUP ends POWER_ABORT, no context is created and the sequence taken as its id is consumed, the exhausted
counter ending it as without the warning; DROP_GROUP ends NO_GROUP, its group having ended; COMMIT_GROUP, whose group is COMMITTING from its
taking, ends OK without members, and otherwise POWER_ABORT, the group ending. -/
def Obligations.GroupOpenedAndEnded : Prop :=
  (∀ (s : State) (p : Posted) (rest : List Posted), s.Turn p rest → s.dev.AtRest → p.code = .openGroup →
    s.dev.refusalFor p = none → s.dev.nextSeq ≤ 0xFFFFFF00 → ∀ timeout : Nat,
    timeout = (if p.desc.argument = 0 then s.cfg.groupTimeout else p.desc.argument.toNat) →
    exec .takeCommand s =
      .next { s with
        dev := { s.dev.headEnded p rest .ok 0 with
          nextSeq := s.dev.nextSeq + 1
          group := some
            { id := s.dev.nextSeq, state := .opened, deadline := if timeout = 0 then none else some (10 * timeout), members := []
              records := [], endsWithMember := false } } }) ∧
  (∀ (s : State) (p : Posted) (rest : List Posted) (g : GroupContext), s.Turn p rest → s.dev.AtRest → s.dev.group = some g →
    (p.code = .dropGroup → exec .takeCommand s = .next { s with dev := s.dev.endGroup.headEnded p rest .ok 0 }) ∧
    (p.code = .commitGroup → g.members = [] →
      exec .takeCommand s = .next { s with dev := { s.dev with group := none }.headEnded p rest .ok 0 })) ∧
  (∀ (d : Device) (g : GroupContext), d.group = some g → ∃ e : Device, d.endGroup = e ∧
    e = { d with banks := e.banks, group := none, reclaim := { d.reclaim with moved := [] } } ∧
    (∀ b, e.bank b =
      { d.bank b with
        dead := (d.bank b).dead +
          ((g.members.filter fun m => decide (m.state ≠ .damaged) && m.loc.any fun l => decide (l.bank = b)).map fun m =>
            2 + (m.length + 15) / 16).sum }) ∧
    e.userSlots = (d.dir.filter fun x => isUserKey x.key).length) ∧
  (∀ (s : State) (p : Posted) (rest : List Posted) (cut : CutShort) (x : Executing) (d : Device), s.MeetsWarning p rest →
    x = s.headExecuting p → d = (s.headTaken p rest).underWarning x →
    (p.code = .openGroup → d.refusalFor p = none →
      (d.nextSeq ≤ 0xFFFFFF00 →
        exec (.powerWarning (.pfw true) cut) s =
          .next (s.pfwLow cut { d.executingEnded x .powerAbort 0 with nextSeq := d.nextSeq + 1, group := none })) ∧
      (0xFFFFFF00 < d.nextSeq →
        exec (.powerWarning (.pfw true) cut) s =
          .next (s.pfwLow cut { d.executingEnded x .readOnly 0 with
            store := StoreState.degraded, causes := { d.causes with sequence := true }, flags := { d.flags with degraded := true } }))) ∧
    (p.code = .dropGroup → exec (.powerWarning (.pfw true) cut) s = .next (s.pfwLow cut (d.executingEnded x .noGroup 0))) ∧
    (∀ g, p.code = .commitGroup → s.dev.group = some g →
      (g.members = [] →
        exec (.powerWarning (.pfw true) cut) s = .next (s.pfwLow cut ({ d with group := none }.executingEnded x .ok 0))) ∧
      (g.members ≠ [] → exec (.powerWarning (.pfw true) cut) s = .next (s.pfwLow cut (d.endGroup.executingEnded x .powerAbort 0)))))

/-! ## RECLAIM, RAISE_LOCK and FORMAT (R136, R161 to R167, R171) -/

/-- RECLAIM answers 0xFF at once when the Reclaim Engine is HALTED or cause COMMIT is present, and otherwise places its request and
waits (R136). RAISE_LOCK waits while a lock repair is held (R171). FORMAT makes the store FORMATTING with no cause, and waits while
the Reclaim Engine holds work (R161). Where the power warning comes between the taking of a RECLAIM or a RAISE_LOCK that its checks pass and
its step, it ends POWER_ABORT with no request placed and no wait, but for the RECLAIM that is answered 0xFF at once (R182, R184; log entry
40). -/
def Obligations.CommandsWaitForReclaim : Prop :=
  (∀ (s : State) (p : Posted) (rest : List Posted), s.Turn p rest → s.dev.AtRest → s.dev.refusalFor p = none →
    (p.code = .reclaim →
      (s.dev.reclaimPhase = .halted ∨ s.dev.causes.commit = true → exec .takeCommand s = .next (s.headEnded p rest .ok 0xFF)) ∧
      (s.dev.reclaimPhase ≠ .halted ∧ s.dev.causes.commit = false →
        exec .takeCommand s =
          .next { s with
            dev := { s.dev with
              queue := rest
              ex := some (s.dev.executing p .reclaimHeld)
              reclaim := { s.dev.reclaim with request := some p.desc.argument.toNat } } })) ∧
    (p.code = .raiseLock → s.dev.repairing = true →
      exec .takeCommand s =
        .next { s with dev := { s.dev with queue := rest, ex := some (s.dev.executing p .repairWait) } }) ∧
    (p.code = .format → s.dev.reclaimPhase ≠ .idle → s.dev.reclaimPhase ≠ .halted →
      exec .takeCommand s =
        .next { s with
          dev := { s.dev with
            queue := rest
            store := .formatting
            causes := {}
            ex := some { s.dev.executing p .formatWait with
              format := some
                { prior := s.dev.store, priorCauses := s.dev.causes, granted := false, committed := false, todo := [] } } } })) ∧
  (∀ (s : State) (p : Posted) (rest : List Posted) (cut : CutShort) (x : Executing) (d : Device), s.MeetsWarning p rest →
    x = s.headExecuting p → d = (s.headTaken p rest).underWarning x → d.refusalFor p = none →
    (p.code = .reclaim →
      (d.reclaimPhase = .halted ∨ d.causes.commit = true →
        exec (.powerWarning (.pfw true) cut) s = .next (s.pfwLow cut (d.executingEnded x .ok 0xFF))) ∧
      (d.reclaimPhase ≠ .halted ∧ d.causes.commit = false →
        exec (.powerWarning (.pfw true) cut) s = .next (s.pfwLow cut (d.executingEnded x .powerAbort 0)))) ∧
    (p.code = .raiseLock → exec (.powerWarning (.pfw true) cut) s = .next (s.pfwLow cut (d.executingEnded x .powerAbort 0))))

/-- FORMAT with the Reclaim Engine IDLE or HALTED (R161, R162, R163): an IDLE engine becomes HALTED for FORMAT; the anchor is the first
BLANK bank, else the FREE bank an open would choose, else the head of the erase list, else a FULL or RECLAIMING bank with the fewest
needed records, in every device. A BLANK anchor's header is requested with the next generation, any other anchor's erase. -/
def Obligations.FormatBegins : Prop :=
  (∀ (d : Device) (b : BankId), d.formatAnchor = some b →
    (∀ c cs, d.banksIn .blank = c :: cs → b = c) ∧
    (d.banksIn .blank = [] → ∀ c, d.freeToOpen = some c → b = c) ∧
    (d.banksIn .blank = [] → d.freeToOpen = none → ∀ c cs, d.reclaim.eraseList = c :: cs → b = c) ∧
    (d.banksIn .blank = [] → d.freeToOpen = none → d.reclaim.eraseList = [] →
      ((d.bank b).state = .full ∨ (d.bank b).state = .reclaiming) ∧
        ∀ c, (d.bank c).state = .full ∨ (d.bank c).state = .reclaiming → d.neededIn b ≤ d.neededIn c)) ∧
  ∀ (s : State) (p : Posted) (rest : List Posted) (b : BankId), s.Ready p rest → p.code = .format → s.dev.refusalFor p = none →
    s.dev.reclaimPhase = .idle ∨ s.dev.reclaimPhase = .halted → s.dev.formatAnchor = some b →
    ∃ (stage : Stage) (r : Request),
      exec .takeCommand s =
        .next { s with
          dev := { s.dev with
            queue := rest
            store := .formatting
            causes := {}
            reclaim := if s.dev.reclaimPhase = .idle then { s.dev.reclaim with job := .halted .format } else s.dev.reclaim
            ex := some { s.dev.executing p stage with
              format := some
                { prior := s.dev.store, priorCauses := s.dev.causes, granted := true, committed := false, todo := [] } }
            fc := s.dev.fc.granted .command r } } ∧
      ((s.dev.bank b).state ≠ .blank → stage = .formatErase b false ∧ r = .erase b) ∧
      ((s.dev.bank b).state = .blank → ∀ count generation : Nat, count = s.dev.nextEraseCount b →
        generation = (match s.dev.generation with
          | none => 1
          | some g => g + 1) →
        stage = .formatHeader b false count ∧ r = .program b 0 (.bankHeader generation count 0))

/-- FORMAT's work on a bank (R63, R133, R163, R164): an erase that verifies is followed by the header, with the erase count of R63 and the
new generation; a first failed attempt, of the erase or of the header, erases the bank again. The anchor's header is the commit point: the
new generation is the current one. The bank whose header verified is FREE; one whose second attempt failed, its erase or its header, is
BAD, with the erase count it had; either leaves the erase list. After the commit point the usable banks other than the anchor follow in
ascending order, a BLANK one with its header directly; before it, an anchor that became BAD is followed by the anchor that R162 then
gives. A header fault sets the suspect mark in every bank state (the model's reading, log entry 36). -/
def Obligations.FormatErasesBanks : Prop :=
  (∀ (s : State) (x : Executing) (f : FormatProgress) (b : BankId) (again : Bool) (e : EraseOp) (fc : FlashController)
      (generation : Nat),
    s.Formatting x f (.formatErase b again) → s.dev.fc.erase = some e → e.requester = .command → e.bank = b → e.suspended = false →
    s.dev.fc.op = none → s.dev.fc.waitCommand = none → s.dev.fc.waitReclaim = none → s.dev.fc.waitMount = none →
    fc = { s.dev.fc with erase := none, decided := none } →
    generation = (match s.dev.generation with
      | none => 1
      | some g => if f.committed then g else g + 1) →
    exec (.bankEraseOutcome []) s =
      .next { s with
        flash := s.flash.eraseBank b []
        dev := { s.dev with
          ex := some { x with stage := .formatHeader b again (s.dev.nextEraseCount b) }
          fc := fc.granted .command (.program b 0 (.bankHeader generation (s.dev.nextEraseCount b) 0)) } } ∧
    (∀ (l : LineId) (bytes : RawLine), again = false → bytes ≠ erasedBytes →
      exec (.bankEraseOutcome [(l, .other bytes)]) s =
        .next { s with
          flash := s.flash.eraseBank b [(l, .other bytes)]
          dev := { s.dev with
            ex := some { x with stage := .formatErase b true }
            fc := fc.granted .command (.erase b) } })) ∧
  (∀ (s : State) (x : Executing) (f : FormatProgress) (b : BankId) (again : Bool) (count generation : Nat) (bytes : RawLine),
    s.Formatting x f (.formatHeader b again count) → s.dev.fc.Alone .command (.program b 0 (.bankHeader generation count 0)) →
    s.flash.line b 0 = Line.erased →
    (again = false →
      exec (.lineProgramOutcome (.other bytes)) s =
        .next { s with
          flash := s.flash.setLine b 0 (.raw bytes)
          dev := { s.dev.setBank b { s.dev.bank b with suspect := true } with
            ex := some { x with stage := .formatErase b true }
            fc := s.dev.fc.regranted .command (.erase b) } }) ∧
    (∀ (d : Device) (left : FormatProgress) (next : BankId) (rest : List BankId),
      d = { s.dev.setBank b
          { state := .free, epoch := none, eraseCount := some count, used := 0, dead := 0, tagged := 0, suspect := false } with
        generation := if f.committed then s.dev.generation else some (match s.dev.generation with
          | none => 1
          | some g => g + 1)
        reclaim := { s.dev.reclaim with eraseList := s.dev.reclaim.eraseList.filter fun c => decide (c ≠ b) } } →
      left = (if f.committed then f
        else { f with committed := true, todo := allBanks.filter fun c => decide ((s.dev.bank c).state ≠ .bad ∧ c ≠ b) }) →
      (s.dev.bank b).state ≠ .bad → left.todo = next :: rest → next ≠ b → ∃ (stage : Stage) (q : Request),
      exec (.lineProgramOutcome .asIntended) s =
        .next { s with
          flash := s.flash.setLine b 0 (.bankHeader generation count 0)
          dev := { d with
            ex := some { x with stage := stage, format := some { left with todo := rest } }
            fc := s.dev.fc.regranted .command q } } ∧
      ((d.bank next).state ≠ .blank → stage = .formatErase next false ∧ q = .erase next) ∧
      ((d.bank next).state = .blank → ∀ n g : Nat, n = d.nextEraseCount next → d.generation = some g →
        stage = .formatHeader next false n ∧ q = .program next 0 (.bankHeader g n 0)))) ∧
  (∀ (s : State) (x : Executing) (f : FormatProgress) (b : BankId) (i : Instr) (flash : Flash) (fc : FlashController) (suspect : Bool)
      (bytes : RawLine) (d : Device),
    (∃ (e : EraseOp) (l : LineId), s.Formatting x f (.formatErase b true) ∧ s.dev.fc.erase = some e ∧ e.requester = .command ∧
      e.bank = b ∧ e.suspended = false ∧ s.dev.fc.op = none ∧ s.dev.fc.waitCommand = none ∧ s.dev.fc.waitReclaim = none ∧
      s.dev.fc.waitMount = none ∧ bytes ≠ erasedBytes ∧ i = .bankEraseOutcome [(l, .other bytes)] ∧
      flash = s.flash.eraseBank b [(l, .other bytes)] ∧ fc = { s.dev.fc with erase := none, decided := none } ∧
      suspect = (s.dev.bank b).suspect) ∨
    (∃ count generation : Nat, s.Formatting x f (.formatHeader b true count) ∧
      s.dev.fc.Alone .command (.program b 0 (.bankHeader generation count 0)) ∧ s.flash.line b 0 = Line.erased ∧
      i = .lineProgramOutcome (.other bytes) ∧ flash = s.flash.setLine b 0 (.raw bytes) ∧ fc = { s.dev.fc with op := none } ∧
      suspect = true) →
    d = { s.dev.setBank b { s.dev.bank b with state := .bad, used := 0, dead := 0, tagged := 0, suspect := suspect } with
      reclaim := { s.dev.reclaim with eraseList := s.dev.reclaim.eraseList.filter fun c => decide (c ≠ b) } } →
    ∀ (next : BankId) (left : FormatProgress),
    (∃ rest, f.committed = true ∧ f.todo = next :: rest ∧ left = { f with todo := rest }) ∨
      (f.committed = false ∧ d.formatAnchor = some next ∧ left = f) → ∃ (stage : Stage) (q : Request),
    exec i s =
      .next { s with
        flash := flash
        dev := { d with ex := some { x with stage := stage, format := some left }, fc := fc.granted .command q } } ∧
    ((d.bank next).state ≠ .blank → stage = .formatErase next false ∧ q = .erase next) ∧
    ((d.bank next).state = .blank → ∀ n g : Nat, n = d.nextEraseCount next →
      g = (match s.dev.generation with
        | none => 1
        | some g => if f.committed then g else g + 1) →
      stage = .formatHeader next false n ∧ q = .program next 0 (.bankHeader g n 0)))

/-- The end of FORMAT (R133, R165, R166). With its last header verified: the tables are empty, the level OPEN, both counters 1, no erase
list. With no BAD bank FORMAT ends OK and the store is READY, or DEGRADED, with its flag, if a cause arose; both outcome registers show it
and the Reclaim Engine is released. With BAD banks too many or too few usable, cause BANKS makes it DEGRADED; otherwise the bank map is
opened a bank for, without SPACE_LOW, with epoch 1. Without a commit point and without a bank to try, FORMAT ends OK and mount runs at
once. The bank map due and lock repair marks are clear from here on (log entry 31). -/
def Obligations.FormatEnds : Prop :=
  (∀ (s : State) (x : Executing) (f : FormatProgress) (b : BankId) (again : Bool) (count generation : Nat) (d : Device) (cause : Bool),
    s.Formatting x f (.formatHeader b again count) → s.dev.fc.Alone .command (.program b 0 (.bankHeader generation count 0)) →
    s.flash.line b 0 = Line.erased → f.committed = true → f.todo = [] → s.dev.reclaim.job = .halted .format ∨ s.dev.reclaim.job = .halted .fault →
    cause = decide (¬∀ c, c ≠ b → (s.dev.bank c).state ≠ .bad) →
    d = { s.dev.setBank b
        { state := .free, epoch := none, eraseCount := some count, used := 0, dead := 0, tagged := 0, suspect := false } with
      dir := [], group := none, commits := [], level := .opened, nextSeq := 1, nextEpoch := 1, openMark := none
      fc := { s.dev.fc with op := none }
      reclaim := { s.dev.reclaim with eraseList := [], moved := [], mapDue := false, repairDue := false } } →
    (cause = false ∨ d.usable.length < 8 ∨ 8 < d.badCount → ∀ causes : Causes,
      causes = { s.dev.causes with banks := s.dev.causes.banks || cause } →
      exec (.lineProgramOutcome .asIntended) s =
        .next { s with
          flash := s.flash.setLine b 0 (.bankHeader generation count 0)
          dev := { d with
            store := if causes.any then StoreState.degraded else .ready
            causes := causes
            flags := { s.dev.flags with degraded := s.dev.flags.degraded || causes.any }
            mountOutcome := if causes.any then MountOutcome.degraded else .ready
            banksHanded := 0
            reclaim := { d.reclaim with job := .idle, victim := none } }.executingEnded x .ok 0 }) ∧
    (cause = true → 8 ≤ d.usable.length → d.badCount ≤ 8 → (∀ c, (d.bank c).state ≠ .active) → ∀ open_ : BankId,
      d.freeToOpen = some open_ → 2 ≤ d.freeCount →
      exec (.lineProgramOutcome .asIntended) s =
        .next { s with
          flash := s.flash.setLine b 0 (.bankHeader generation count 0)
          dev := { d with
            openMark := some (open_, .command)
            nextEpoch := 2
            ex := some { x with stage := .writing (writerAt (mapRecord (d.banksIn .bad)) (.opening open_ 1)) }
            fc := s.dev.fc.regranted .command (.program open_ 1 (.openLine 1 0)) } })) ∧
  (∀ (s : State) (x : Executing) (f : FormatProgress) (b : BankId) (count generation : Nat) (bytes : RawLine) (d : Device),
    s.Formatting x f (.formatHeader b true count) → s.dev.fc.Alone .command (.program b 0 (.bankHeader generation count 0)) →
    s.flash.line b 0 = Line.erased → f.committed = false →
    (∀ c, c ≠ b → (s.dev.bank c).state = .bad) → s.dev.reclaim.eraseList.filter (fun c => decide (c ≠ b)) = [] →
    d = { s.dev with fc := { s.dev.fc with op := none } }.executingEnded x .ok 0 →
    exec (.lineProgramOutcome (.other bytes)) s =
      .next { s with
        flash := s.flash.setLine b 0 (.raw bytes)
        dev := { d.resetTables with
          mount := .census []
          fc := s.dev.fc.regranted .mount (.read 0 0 3) } })

/-- FORMAT under the power warning ends POWER_ABORT (R16, R167). Before any erase or header program was granted to it, the store returns
to what it was, or is DEGRADED, with its flag, when the causes held before and those that arose are any; an engine halted for FORMAT is
IDLE; the marks of the Reclaim Engine (log entry 31), and registers 0x0C and 0x0D (log entry 35), stay as they were, by the model's
choice; so it is with a FORMAT between whose taking and step the warning comes and that passes its checks (log entry 40). With its erase in
progress, that erase is abandoned and the store is MOUNTING with the tables as at the start of mount. With its header program in progress,
that ends first. -/
def Obligations.FormatUnderWarning : Prop :=
  (∀ (s : State) (p : Posted) (rest : List Posted) (cut : CutShort) (x : Executing) (d : Device), s.MeetsWarning p rest →
    p.code = .format → x = s.headExecuting p → d = (s.headTaken p rest).underWarning x → d.refusalFor p = none →
    exec (.powerWarning (.pfw true) cut) s =
      .next (s.pfwLow cut ({ d with
        store := if d.causes.any then StoreState.degraded else d.store
        flags := { d.flags with degraded := d.flags.degraded || d.causes.any || decide (d.store = StoreState.degraded) }
        reclaim := if d.reclaim.job = ReclaimJob.halted .format then { d.reclaim with job := .idle } else d.reclaim
      }.executingEnded x .powerAbort 0))) ∧
  (∀ (s : State) (x : Executing) (f : FormatProgress) (between : Bool) (cut : CutShort) (causes : Causes),
    s.dev.ex = some x → x.code = .format →
    x.member = false → x.format = some f → x.stage = .formatWait → f.granted = false → s.dev.fc.Free → s.dev.reclaim.steady →
    s.dev.group = none → s.power.warning = false → 1600 ≤ s.power.vdd → causes = f.priorCauses.union s.dev.causes → ∃ t,
    exec (.powerWarning (.pfw between) cut) s = .next t ∧ t.power.warning = true ∧ t.flash = s.flash ∧
    t.dev =
      { s.dev with
        causes := causes
        store := if causes.any then StoreState.degraded else f.prior
        flags := { s.dev.flags with
          powerWarn := true, degraded := s.dev.flags.degraded || causes.any || decide (f.prior = StoreState.degraded) }
        fc := { s.dev.fc with fairness := 0 }
        reclaim := if s.dev.reclaim.job = ReclaimJob.halted .format then { s.dev.reclaim with job := .idle } else s.dev.reclaim
      }.executingEnded x .powerAbort 0) ∧
  (∀ (s : State) (x : Executing) (f : FormatProgress) (b : BankId) (again : Bool) (e : EraseOp) (between : Bool) (cut : CutShort),
    s.Formatting x f (.formatErase b again) → s.dev.fc.erase = some e → e.requester = .command → e.bank = b →
    s.dev.fc.op = none → s.dev.fc.waitCommand = none → s.dev.fc.waitReclaim = none → s.dev.fc.waitMount = none →
    s.dev.group = none → 1600 ≤ s.power.vdd → ∃ t,
    exec (.powerWarning (.pfw between) cut) s = .next t ∧ t.power.warning = true ∧ t.flash = s.flash.eraseBank b cut.erase ∧
    t.dev =
      { s.dev.resetTables with
        flags := { s.dev.flags with powerWarn := true }
        fc := { s.dev.fc with erase := none, decided := none, fairness := 0 } }.executingEnded x .powerAbort 0) ∧
  (∀ (s : State) (x : Executing) (f : FormatProgress) (b : BankId) (again : Bool) (count generation : Nat) (result : LineRead),
    s.dev.ex = some x → x.code = .format → x.member = false → x.format = some f → f.granted = true →
    x.stage = .formatHeader b again count → s.dev.fc.Alone .command (.program b 0 (.bankHeader generation count 0)) →
    s.dev.reclaim.steady → s.dev.group = none → s.power.warning = true → ∃ t,
    exec (.lineProgramOutcome result) s = .next t ∧
    t.dev = { s.dev.resetTables with fc := { s.dev.fc with op := none } }.executingEnded x .powerAbort 0 ∧
    (s.flash.line b 0 = Line.erased → result = .asIntended → t.flash.line b 0 = .bankHeader generation count 0))

/-! ## Line programs, erases and decay (R1, R2, R7, R8, R99 to R108) -/

/-- A line program ends (R7): a target that was not erased is left as it was; one that was erased reads as the outcome says: as requested,
with its fields good and another byte that differs, with a payload check that does not agree, or as other bytes. No other line of the
array changes, nor the port, the descriptor, the buffer select, the enable mask, the configuration or the power condition. A RUNNING erase
ends (R1, R8): each line of its bank reads erased or as the outcome lists it, and no other bank changes; a SUSPENDED one does not end.
Payload decay changes one payload line of a complete record so that its payload check fails, and nothing else (R2). Where an event cannot
occur the state is unchanged (log entry 6). -/
def Obligations.ArrayOutcomes : Prop :=
  (∀ (s : State) (who : Requester) (b : BankId) (line : Nat) (data : Line) (result : LineRead),
    s.dev.fc.op = some (who, .program b line data) → line < 128 → ∃ t,
      exec (.lineProgramOutcome result) s = .next t ∧
      t.port = s.port ∧ t.desc = s.desc ∧ t.select = s.select ∧ t.mask = s.mask ∧ t.cfg = s.cfg ∧ t.power = s.power ∧
      (∀ (b' : BankId) (l' : Nat), l' < 128 → b' ≠ b ∨ l' ≠ line → t.flash.line b' l' = s.flash.line b' l') ∧
      (s.flash.line b line ≠ Line.erased → t.flash.line b line = s.flash.line b line) ∧
      (s.flash.line b line = Line.erased →
        (result = .asIntended → t.flash.line b line = data) ∧
        (∀ bytes, result = .other bytes → t.flash.line b line = .raw bytes) ∧
        (∀ bytes, result = .checkWrong bytes →
          (∀ q k z, data = .commitLine q k z → t.flash.line b line = .commitLine q .disagrees z) ∧
          ((∀ q k z, data ≠ .commitLine q k z) → t.flash.line b line = .raw bytes)) ∧
        (∀ spare, result = .fieldsGood spare →
          (∀ g c z, data = .bankHeader g c z → t.flash.line b line = .bankHeader g c spare) ∧
          (∀ e z, data = .openLine e z → t.flash.line b line = .openLine e spare) ∧
          (∀ c z, data = .retireLine c z → t.flash.line b line = .retireLine c spare) ∧
          (∀ h z, data = .recordHeader h z → t.flash.line b line = .recordHeader h spare) ∧
          (∀ q k z, data = .commitLine q k z → t.flash.line b line = .commitLine q k spare) ∧
          (∀ bytes, data = .raw bytes → t.flash.line b line = .raw bytes)))) ∧
  (∀ (s : State) (result : LineRead), (∀ who b line data, s.dev.fc.op ≠ some (who, .program b line data)) →
    exec (.lineProgramOutcome result) s = .next s) ∧
(∀ (s : State) (e : EraseOp) (remains : EraseRemains), s.dev.fc.erase = some e → e.suspended = false →
    remains.wellFormed = true → ∃ t, exec (.bankEraseOutcome remains) s = .next t ∧
      (∀ b (l : Nat), l < 128 → b ≠ e.bank → t.flash.line b l = s.flash.line b l) ∧
      (∀ l : LineId, (∀ r, (l, r) ∉ remains) → t.flash.line e.bank l.val = Line.erased) ∧
      (∀ (l : LineId), (l, .earlier) ∈ remains → t.flash.line e.bank l.val = s.flash.line e.bank l.val) ∧
      (∀ (l : LineId) (bytes : RawLine), (l, .other bytes) ∈ remains → t.flash.line e.bank l.val = .raw bytes)) ∧
  (∀ (s : State) (remains : EraseRemains), (∀ e, s.dev.fc.erase = some e → e.suspended = true) →
    exec (.bankEraseOutcome remains) s = .next s) ∧
  (∀ (s : State) (record : RecordSpec) (seq : Nat) (b : BankId) (line : LineId) (index : Fin 16) (bytes : RawLine) (f : Flash),
    (record.header seq).passesAt line.val = true →
    (∀ i, i < record.span → s.flash.line b (line.val + i) = record.line seq i) → index.val + 2 < record.span →
    f = s.flash.setLine b (line.val + 1 + index.val) (.raw bytes) →
    payloadRead (record.header seq) (f.lines b line.val record.span) ≠ some record.payload →
    exec (.payloadDecay b line index bytes) s = .next { s with flash := f } ∧
      recordPayload line.val (f.lines b line.val record.span) = none) ∧
  (∀ (s : State) (b : BankId) (line : LineId) (index : Fin 16) (bytes : RawLine),
    (s.flash.line b line.val).headerAt line.val = none → exec (.payloadDecay b line index bytes) s = .next s)

/-- The array changes at the end of a program or an erase, at payload decay, where the entry to WARNING abandons an erase or a reset cuts
an operation short, and at no other command (R1, R2, R9, R16, R20, R21). -/
def Obligations.FlashChangesOnlyByItsEvents : Prop :=
  ∀ (i : Instr) (s t : State), exec i s = .next t → t.flash ≠ s.flash →
    (∃ result, i = .lineProgramOutcome result) ∨ (∃ remains, i = .bankEraseOutcome remains) ∨
    (∃ b line index bytes, i = .payloadDecay b line index bytes) ∨ Instr.resets s i ∨
    (s.dev.fc.erase ≠ none ∧ s.power.warning = false ∧ t.power.warning = true ∧
      ((∃ source cut, i = .powerWarning source cut) ∨ (∃ supply, i = .powerWarningDeasserted supply) ∨
        ∃ v entry, i = .configurationWrite 0x46 v entry))

/-- A record's lines go in line order (R22, R27, R28, R99): after a line with outcome OK the next one is requested, a payload line that
would read erased being passed over; the payload lines hold the payload padded with 0x00, and the last line the commit line. -/
def Obligations.NextLineRequested : Prop :=
  (∀ (s : State) (x : Executing) (w : Writer) (r : Reservation) (n : Nat),
    s.Programming x w r → s.power.warning = false → r.at_ < n → n < w.record.span →
    (∀ k, r.at_ < k → k < n → w.record.skips k = true) → w.record.skips n = false →
    exec (.lineProgramOutcome .asIntended) s =
      .next { s with
        flash := s.flash.setLine r.bank (r.line + r.at_) (w.record.line r.seq r.at_)
        dev := { s.dev with
          ex := some { x with stage := .writing { w with stage := .programming { r with at_ := n } } }
          fc := s.dev.fc.regranted .command (.program r.bank (r.line + n) (w.record.line r.seq n)) } }) ∧
  (∀ (record : RecordSpec) (q i : Nat), 0 < i → i + 1 < record.span →
    record.line q i = .raw (lineOf (record.payload.drop (16 * (i - 1)))) ∧
      (record.skips i = true ↔ record.line q i = Line.erased)) ∧
  (∀ (record : RecordSpec) (q : Nat),
    record.line q (record.span - 1) = .commitLine q (.over record.payload) 0 ∧ record.skips (record.span - 1) = false)

/-- The commit line of a record outside a group verifies (R73, R85, R95, R100, R172, R182), under either power condition: the Directory
entry of the key is created or replaced, then the level rises for RAISE_LOCK, an ADD's new value goes to bytes 0 to 7 of the named buffer,
and the command ends OK, an ADD with result 8. A detached ADD changes the Directory, no buffer and no completion. A commit line that reads back
valid though its program did not end OK, a byte outside its fields differing, commits the record all the same, and its bank becomes suspect
and, if ACTIVE, FULL with its tail dead (R108). -/
def Obligations.RecordCommitEndsCommand : Prop :=
  (∀ (s : State) (x : Executing) (w : Writer) (r : Reservation) (d : Device), s.Programming x w r → x.member = false →
    r.at_ + 1 = w.record.span → d = { s.dev with fc := { s.dev.fc with op := none } }.commitEntry (committedRecord w r) →
    (x.code = .write ∨ x.code = .delete →
      exec (.lineProgramOutcome .asIntended) s =
        .next { s with
          flash := s.flash.setLine r.bank (r.line + r.at_) (.commitLine r.seq (.over w.record.payload) 0)
          dev := d.executingEnded x .ok 0 }) ∧
    (x.code = .raiseLock → ∀ level : LockLevel, level = (if x.desc.argument.toNat = 1 then .closed else .final) →
      x.desc.argument.toNat = 1 ∨ x.desc.argument.toNat = 2 →
      exec (.lineProgramOutcome .asIntended) s =
        .next { s with
          flash := s.flash.setLine r.bank (r.line + r.at_) (.commitLine r.seq (.over w.record.payload) 0)
          dev := { d with level := level }.executingEnded x .ok 0 })) ∧
  (∀ (s : State) (x : Executing) (w : Writer) (r : Reservation), s.Programming x w r → x.member = false → x.code = .add →
    r.at_ + 1 = w.record.span → w.record.payload.length = 8 → ∃ d e : Device,
      exec (.lineProgramOutcome .asIntended) s =
        .next { s with
          flash := s.flash.setLine r.bank (r.line + r.at_) (.commitLine r.seq (.over w.record.payload) 0)
          dev := d } ∧
      e = s.dev.commitEntry (committedRecord w r) ∧
      d = { e with ex := none, fc := { s.dev.fc with op := none }, fifo := d.fifo, buffers := d.buffers } ∧
      (x.detached = true → d.fifo = s.dev.fifo ∧ d.buffers = s.dev.buffers) ∧
      (x.detached = false → d.fifo = s.dev.fifo ++ [{ tag := x.desc.tag, status := .ok, result := 8 }] ∧
        ∀ i : Fin 4, x.desc.buffer.toNat = i.val →
          ∀ j, (d.buffer j).owner = (if j = i then .host else (s.dev.buffer j).owner) ∧
            (d.buffer j).pointer = (s.dev.buffer j).pointer ∧
            ∀ k : Nat, (d.buffer j).byte k = if j = i ∧ k < 8 then w.record.payload.getD k 0 else (s.dev.buffer j).byte k)) ∧
  (∀ (s : State) (x : Executing) (w : Writer) (r : Reservation) (spare : Byte) (d : Device), s.Programming x w r → x.member = false →
    x.code = .write ∨ x.code = .delete → r.at_ + 1 = w.record.span → spare ≠ 0 →
    d.bank r.bank =
      { s.dev.bank r.bank with
        suspect := true
        state := if (s.dev.bank r.bank).state = .active then .full else (s.dev.bank r.bank).state
        dead := (s.dev.bank r.bank).dead +
          if (s.dev.bank r.bank).state = .active then 125 - (s.dev.bank r.bank).used else 0 } →
    (∀ b, b ≠ r.bank → d.bank b = s.dev.bank b) →
    d = { s.dev with banks := d.banks, fc := { s.dev.fc with op := none } } →
    exec (.lineProgramOutcome (.fieldsGood spare)) s =
      .next { s with
        flash := s.flash.setLine r.bank (r.line + r.at_) (.commitLine r.seq (.over w.record.payload) spare)
        dev := (d.commitEntry (committedRecord w r)).executingEnded x .ok 0 })

/-- What a commit does to the Directory (R49, R59): the entry of the record's key takes its location, length and sequence and copy count
0; a new one takes its class and sequence as base and stale count 0, an old one keeps class and base and counts what became stale; the
superseded record's span becomes dead unless it was DAMAGED; a TOMBSTONE entry left with stale count 0 is removed and its two lines become
dead. Other keys keep their entries and other banks their counts. What an appended record commits is its key and class, TOMBSTONE or else
LIVE, its place, its payload's length, and its sequence, also as the base of a new entry. -/
def Obligations.DirectoryAfterCommit : Prop :=
  (∀ (w : Writer) (r : Reservation),
    committedRecord w r =
      { key := w.record.key, cls := w.record.cls, state := if w.record.kind = .tombstone then .tombstone else .live
        loc := some { bank := r.bank, line := r.line }, length := w.record.payload.length, seq := r.seq, newBase := r.seq
        increment := 0 }) ∧
  ∀ (d : Device) (c : Committed) (loc : Location), c.loc = some loc → c.increment = 0 → ∀ (e : DirEntry) (removed : Bool),
    e = (match d.entry c.key with
      | none =>
        { key := c.key, cls := c.cls, state := c.state, loc := some loc, length := c.length, seq := c.seq, base := c.newBase
          stale := 0, copies := 0 }
      | some b =>
        { key := b.key, cls := b.cls, state := c.state, loc := some loc, length := c.length, seq := c.seq, base := b.base
          stale := if b.state = .damaged then b.stale + b.copies else b.stale + 1 + b.copies, copies := 0 }) →
    removed = decide (e.state = .tombstone ∧ e.stale = 0) →
    (d.commitEntry c).entry c.key = (if removed then none else some e) ∧
    (∀ k, k ≠ c.key → (d.commitEntry c).entry k = d.entry k) ∧
    (∀ b, (d.commitEntry c).bank b =
      { d.bank b with
        dead := (d.bank b).dead +
          (match d.entry c.key with
          | none => 0
          | some old =>
            if old.state ≠ .damaged ∧ old.loc.any (fun l => decide (l.bank = b)) = true then 2 + (old.length + 15) / 16 else 0) +
          (if removed = true ∧ loc.bank = b then 2 else 0) })

/-- The commit of a member record (R111, R112, R114) leaves the Directory and the Commit Table as they were and changes the member list: a
key without a member entry takes one at the tail; any other entry is replaced in its place, its stale increment rising by one for a
superseded LIVE or TOMBSTONE record, whose span becomes dead, and by one more for a record that the Reclaim Engine has moved (R123); the
group's needed records gain one. The command ends OK, an ADD with the new value in its buffer (R95). A group whose end waited for this
command ends when it does, and one whose deadline is at 0 expires, with GROUP_EXPIRED set (R120, R121, R122): the record joined the
members and goes with them. Where both hold GROUP_EXPIRED is not set (the model's choice, log entry 15). -/
def Obligations.MemberCommitLeavesDirectory : Prop :=
  ∀ (s : State) (x : Executing) (w : Writer) (r : Reservation) (g : GroupContext) (m : MemberEntry),
    s.Programming x w r → x.member = true → x.code = .write ∨ x.code = .delete ∨ x.code = .add → r.at_ + 1 = w.record.span →
    s.dev.group = some g → g.state = .opened →
    m = { key := w.record.key, cls := w.record.cls, state := if w.record.kind = .tombstone then .tombstone else .live
          length := w.record.payload.length, seq := r.seq, loc := some { bank := r.bank, line := r.line }, staleIncrement := 0 } →
    ∃ (d e : Device) (members : List MemberEntry),
      exec (.lineProgramOutcome .asIntended) s =
        .next { s with
          flash := s.flash.setLine r.bank (r.line + r.at_) (.commitLine r.seq (.over w.record.payload) 0)
          dev := d } ∧
      e = { s.dev with
        banks := e.banks
        group := some { g with members := members, records := g.records ++ [{ bank := r.bank, line := r.line }] } } ∧
      (s.dev.member w.record.key = none → members = g.members ++ [m] ∧ e.banks = s.dev.banks) ∧
      (∀ old : MemberEntry, s.dev.member w.record.key = some old →
        members =
          (g.members.map fun y =>
            if y.key = w.record.key then
              { m with
                staleIncrement := old.staleIncrement +
                  (if old.state = .damaged then 0 else if (old.key, old.seq) ∈ s.dev.reclaim.moved then 2 else 1) }
            else y) ∧
        ∀ b, e.bank b =
          { s.dev.bank b with
            dead := (s.dev.bank b).dead +
              if old.state ≠ .damaged ∧ old.loc.any (fun l => decide (l.bank = b)) = true then 2 + (old.length + 15) / 16
              else 0 }) ∧
      d.dir = s.dev.dir ∧ d.commits = s.dev.commits ∧ d.ex = none ∧
      (g.endsWithMember = false → g.deadline ≠ some 0 →
        d.group = e.group ∧ d.banks = e.banks ∧ d.flags = s.dev.flags ∧ d.reclaim = s.dev.reclaim) ∧
      (g.endsWithMember = true ∨ g.deadline = some 0 →
        d.group = none ∧ d.banks = e.endGroup.banks ∧ d.reclaim = { s.dev.reclaim with moved := [] } ∧
        d.flags =
          { s.dev.flags with groupExpired := s.dev.flags.groupExpired || (!g.endsWithMember && decide (g.deadline = some 0)) }) ∧
      d.fifo =
        (if x.detached then s.dev.fifo
        else s.dev.fifo ++ [{ tag := x.desc.tag, status := .ok, result := if x.code = .add then 8 else 0 }]) ∧
      (x.code = .add → x.detached = false → w.record.payload.length = 8 → ∀ i : Fin 4, x.desc.buffer.toNat = i.val →
        ∀ (j : Fin 4) (k : Nat),
          (d.buffer j).byte k = if j = i ∧ k < 8 then w.record.payload.getD k 0 else (s.dev.buffer j).byte k)

/-- The COMMIT record of a group verifies (R51, R116, R123): every member's key then has the member's record, with its base, stale and
copy counts, but for a TOMBSTONE left with stale count 0; other keys keep their entries, each bank's tagged count rises by the group's
needed records in it, the Commit Table gains the group, or, with no such record, nothing; the context and the moved-member pairs are gone,
a victim notes that the group has committed (R124), and COMMIT_GROUP ends OK. -/
def Obligations.GroupCommitShowsMembers : Prop :=
  ∀ (s : State) (x : Executing) (w : Writer) (r : Reservation) (g : GroupContext),
    s.Programming x w r → x.code = .commitGroup → x.member = false → r.at_ + 1 = w.record.span → s.dev.group = some g →
    (g.members.map fun m => m.key).Nodup → s.dev.ordered → ∃ d : Device,
      exec (.lineProgramOutcome .asIntended) s =
        .next { s with
          flash := s.flash.setLine r.bank (r.line + r.at_) (.commitLine r.seq (.over w.record.payload) 0)
          dev := d } ∧
      d.group = none ∧ d.ex = none ∧
      d.reclaim =
        { s.dev.reclaim with
          moved := [], victim := s.dev.reclaim.victim.map fun v => { v with committedSince := v.committedSince ++ [g.id] } } ∧
      d.fifo = (if x.detached then s.dev.fifo else s.dev.fifo ++ [{ tag := x.desc.tag, status := .ok, result := 0 }]) ∧
      (g.records ≠ [] →
        d.commits = s.dev.commits ++
          [{ gid := g.id, loc := { bank := r.bank, line := r.line }, memberCount := g.members.length
             remaining := g.records.length }]) ∧
      (g.records = [] → d.commits = s.dev.commits ∧ (s.dev.bank r.bank).dead + 3 ≤ (d.bank r.bank).dead) ∧
      (∀ b, (d.bank b).tagged =
        (s.dev.bank b).tagged + (g.records.filter fun l => decide (l.bank = b)).length) ∧
      (∀ k, (∀ m ∈ g.members, m.key ≠ k) → d.entry k = s.dev.entry k) ∧
      (∀ m ∈ g.members, ∀ e : DirEntry,
        e = (match s.dev.entry m.key with
          | none =>
            { key := m.key, cls := m.cls, state := m.state, loc := m.loc, length := m.length, seq := m.seq, base := g.id
              stale := m.staleIncrement, copies := 0 }
          | some old =>
            { key := old.key, cls := old.cls, state := m.state, loc := m.loc, length := m.length, seq := m.seq, base := old.base
              stale := (if old.state = .damaged then old.stale + old.copies else old.stale + 1 + old.copies) + m.staleIncrement
              copies := 0 }) →
        d.entry m.key =
          if e.state = .tombstone ∧ e.stale = 0 then none
          else some { e with copies := if (m.key, m.seq) ∈ s.dev.reclaim.moved then 1 else 0 })

/-- A record of the executing command that does not commit. A program fault, the line reading other bytes, or its commit line with a check
that does not agree (R59, R106, R107, R108, R183): the span becomes dead, the bank suspect and, if ACTIVE, FULL with its tail dead; after
the second fault the command ends FLASH_FAULT, and under WARNING POWER_ABORT; after the first its record is placed again, here by opening
a bank. A line, not the last, that verifies under WARNING (R38, R182): the next request is refused, the whole span becomes dead and the
command ends POWER_ABORT. A reclaim copy's fault (R145, R146): span and bank likewise; after the first the copy is placed again, here by
opening a bank; after the second the engine is HALTED and a READY store DEGRADED with cause RECLAIM. The Directory is as before in all of
them. -/
def Obligations.RecordAbandoned : Prop :=
  (∀ (s : State) (x : Executing) (w : Writer) (r : Reservation) (result : LineRead) (read : Line) (d : Device),
    s.Programming x w r → x.member = false → x.code ≠ .commitGroup →
    (∃ bytes, result = .other bytes ∧ read = .raw bytes ∧ w.record.line r.seq r.at_ ≠ .raw bytes) ∨
      (∃ bytes, result = .checkWrong bytes ∧ r.at_ + 1 = w.record.span ∧ read = .commitLine r.seq .disagrees 0) →
    d.bank r.bank =
      { s.dev.bank r.bank with
        suspect := true
        state := if (s.dev.bank r.bank).state = .active then .full else (s.dev.bank r.bank).state
        dead := (s.dev.bank r.bank).dead + w.record.span +
          if (s.dev.bank r.bank).state = .active then 125 - (s.dev.bank r.bank).used else 0 } →
    (∀ b, b ≠ r.bank → d.bank b = s.dev.bank b) →
    d = { s.dev with banks := d.banks, fc := { s.dev.fc with op := none } } →
    (w.faulted = true ∨ s.power.warning = true →
      exec (.lineProgramOutcome result) s =
        .next { s with
          flash := s.flash.setLine r.bank (r.line + r.at_) read
          dev := d.executingEnded x (if s.power.warning = true then .powerAbort else .flashFault) 0 }) ∧
    (∀ b, w.faulted = false → s.power.warning = false → s.dev.nextSeq ≤ 0xFFFFFF00 → s.dev.nextEpoch ≤ 0xFFFFFF00 →
      s.dev.openMark = none → (∀ c, (s.dev.bank c).state = .active → c = r.bank) → 2 ≤ s.dev.freeCount →
      s.dev.freeToOpen = some b →
      exec (.lineProgramOutcome result) s =
        .next { s with
          flash := s.flash.setLine r.bank (r.line + r.at_) read
          dev := { d with
            openMark := some (b, .command)
            nextEpoch := s.dev.nextEpoch + 1
            ex := some { x with stage := .writing { w with faulted := true, stage := .opening b s.dev.nextEpoch } }
            fc := s.dev.fc.regranted .command (.program b 1 (.openLine s.dev.nextEpoch 0)) } })) ∧
  (∀ (s : State) (x : Executing) (w : Writer) (r : Reservation) (d : Device),
    s.Programming x w r → s.power.warning = true → x.member = false → x.code ≠ .commitGroup → r.at_ + 1 < w.record.span →
    d.bank r.bank = { s.dev.bank r.bank with dead := (s.dev.bank r.bank).dead + w.record.span } →
    (∀ b, b ≠ r.bank → d.bank b = s.dev.bank b) →
    d = { s.dev with banks := d.banks, fc := { s.dev.fc with op := none } } →
    exec (.lineProgramOutcome .asIntended) s =
      .next { s with
        flash := s.flash.setLine r.bank (r.line + r.at_) (w.record.line r.seq r.at_)
        dev := d.executingEnded x .powerAbort 0 }) ∧
  (∀ (s : State) (c : CopyJob) (r : Reservation) (result : LineRead) (read : Line) (d : Device),
    s.dev.Steady → s.power.warning = false → s.dev.reclaim.job = .copy c → c.writer.stage = .programming r →
    s.dev.fc.Alone .reclaim (.program r.bank (r.line + r.at_) (c.writer.record.line r.seq r.at_)) →
    s.flash.line r.bank (r.line + r.at_) = Line.erased → c.writer.fixedSeq ≠ none →
    (∃ bytes, result = .other bytes ∧ read = .raw bytes ∧ c.writer.record.line r.seq r.at_ ≠ .raw bytes) ∨
      (∃ bytes, result = .checkWrong bytes ∧ r.at_ + 1 = c.writer.record.span ∧ read = .commitLine r.seq .disagrees 0) →
    d.bank r.bank =
      { s.dev.bank r.bank with
        suspect := true
        state := if (s.dev.bank r.bank).state = .active then .full else (s.dev.bank r.bank).state
        dead := (s.dev.bank r.bank).dead + c.writer.record.span +
          if (s.dev.bank r.bank).state = .active then 125 - (s.dev.bank r.bank).used else 0 } →
    (∀ b, b ≠ r.bank → d.bank b = s.dev.bank b) →
    d = { s.dev with banks := d.banks, fc := { s.dev.fc with op := none } } →
    (c.writer.faulted = true → s.dev.store = .ready → s.dev.reclaim.request = none →
      exec (.lineProgramOutcome result) s =
        .next { s with
          flash := s.flash.setLine r.bank (r.line + r.at_) read
          dev := { d with
            store := .degraded
            causes := { s.dev.causes with reclaim := true }
            flags := { s.dev.flags with degraded := true }
            reclaim := { s.dev.reclaim with job := .halted .fault } } }) ∧
    (∀ b, c.writer.faulted = false → s.dev.nextEpoch ≤ 0xFFFFFF00 → s.dev.openMark = none →
      (∀ a, (s.dev.bank a).state = .active → a = r.bank) → s.dev.freeToOpen = some b →
      exec (.lineProgramOutcome result) s =
        .next { s with
          flash := s.flash.setLine r.bank (r.line + r.at_) read
          dev := { d with
            openMark := some (b, .reclaim)
            nextEpoch := s.dev.nextEpoch + 1
            reclaim := { s.dev.reclaim with
              job := .copy { c with writer := { c.writer with faulted := true, stage := .opening b s.dev.nextEpoch } } }
            fc := s.dev.fc.regranted .reclaim (.program b 1 (.openLine s.dev.nextEpoch 0)) } }))

/-- The outcome of the open line of the executing command (R39, R62, R103). It verifies: the bank becomes ACTIVE with its epoch, the bank
that was ACTIVE FULL with its tail dead, the mark is cleared, SPACE_LOW is set on a fall of the FREE-bank count from 3 to 2, and the
command's span is reserved in the new bank in the same step, its sequence taken and its header line requested. It faults (R106, R107,
R183): the bank becomes FULL and suspect with its epoch, no lines used and 125 dead, the bank that was ACTIVE stays so, the mark is
cleared, and SPACE_LOW is set as before; as the command's second fault it ends the command with FLASH_FAULT, under WARNING with
POWER_ABORT; as its first, the record is placed again, here by opening the next bank with the next epoch. An open made for a copy acts
alike (R141, R145): verified, the copy's span is reserved with the original's sequence; a fault counts as one of the copy, the second of
which halts the engine. -/
def Obligations.OpenLineOutcome : Prop :=
  (∀ (s : State) (x : Executing) (w : Writer) (b : BankId) (epoch : Nat),
    s.dev.ex = some x → x.format = none → x.code ≠ .format → x.stage = .writing w → w.stage = .opening b epoch →
    w.fixedSeq = none →
    s.dev.fc.Alone .command (.program b 1 (.openLine epoch 0)) → s.flash.line b 1 = Line.erased → s.dev.reclaim.steady →
    s.power.warning = false → (s.dev.bank b).state = .free → s.dev.nextSeq ≤ 0xFFFFFF00 → ∃ d : Device,
      exec (.lineProgramOutcome .asIntended) s =
        .next { s with flash := s.flash.setLine b 1 (.openLine epoch 0), dev := d } ∧
      d = { s.dev with
        openMark := none
        nextSeq := s.dev.nextSeq + 1
        banks := d.banks
        flags := { s.dev.flags with spaceLow := s.dev.flags.spaceLow || decide (s.dev.freeCount = 3) }
        ex := some { x with
          stage := .writing { w with stage := .programming { bank := b, line := 3, seq := s.dev.nextSeq, at_ := 0 } } }
        fc := s.dev.fc.regranted .command (.program b 3 (w.record.line s.dev.nextSeq 0)) } ∧
      ∀ c, d.bank c =
        if c = b then
          { s.dev.bank b with state := .active, epoch := some epoch, used := w.record.span, dead := 0, tagged := 0 }
        else if s.dev.activeBank = some c then
          { s.dev.bank c with state := .full, dead := (s.dev.bank c).dead + (125 - (s.dev.bank c).used) }
        else s.dev.bank c) ∧
  (∀ (s : State) (x : Executing) (w : Writer) (b : BankId) (epoch : Nat) (bytes : RawLine) (d : Device),
    s.dev.ex = some x → x.format = none → x.code ≠ .format → x.code ≠ .commitGroup → x.member = false → x.stage = .writing w →
    w.stage = .opening b epoch → w.fixedSeq = none → s.dev.fc.Alone .command (.program b 1 (.openLine epoch 0)) →
    s.flash.line b 1 = Line.erased → s.dev.reclaim.steady → (s.dev.bank b).state = .free →
    d = { s.dev.setBank b
        { s.dev.bank b with state := .full, epoch := some epoch, used := 0, dead := 125, tagged := 0, suspect := true } with
      openMark := none
      flags := { s.dev.flags with spaceLow := s.dev.flags.spaceLow || decide (s.dev.freeCount = 3) }
      fc := { s.dev.fc with op := none } } →
    (w.faulted = true ∨ s.power.warning = true →
      exec (.lineProgramOutcome (.other bytes)) s =
        .next { s with
          flash := s.flash.setLine b 1 (.raw bytes)
          dev := d.executingEnded x (if s.power.warning = true then .powerAbort else .flashFault) 0 }) ∧
    (w.faulted = false → s.power.warning = false → s.dev.nextSeq ≤ 0xFFFFFF00 → s.dev.nextEpoch ≤ 0xFFFFFF00 →
      s.dev.fitsNowhere w.record.span → 2 ≤ d.freeCount → ∀ next, d.freeToOpen = some next →
      exec (.lineProgramOutcome (.other bytes)) s =
        .next { s with
          flash := s.flash.setLine b 1 (.raw bytes)
          dev := { d with
            openMark := some (next, .command)
            nextEpoch := s.dev.nextEpoch + 1
            ex := some { x with stage := .writing { w with faulted := true, stage := .opening next s.dev.nextEpoch } }
            fc := s.dev.fc.regranted .command (.program next 1 (.openLine s.dev.nextEpoch 0)) } })) ∧
  (∀ (s : State) (c : CopyJob) (b : BankId) (epoch seq : Nat), s.dev.Steady → s.power.warning = false →
    s.dev.reclaim.job = .copy c → c.writer.stage = .opening b epoch → c.writer.fixedSeq = some seq →
    s.dev.fc.Alone .reclaim (.program b 1 (.openLine epoch 0)) → s.flash.line b 1 = Line.erased → (s.dev.bank b).state = .free →
    (∃ d : Device,
      exec (.lineProgramOutcome .asIntended) s =
        .next { s with flash := s.flash.setLine b 1 (.openLine epoch 0), dev := d } ∧
      d = { s.dev with
        openMark := none
        banks := d.banks
        flags := { s.dev.flags with spaceLow := s.dev.flags.spaceLow || decide (s.dev.freeCount = 3) }
        reclaim := { s.dev.reclaim with
          job := .copy { c with writer := { c.writer with stage := .programming { bank := b, line := 3, seq := seq, at_ := 0 } } } }
        fc := s.dev.fc.regranted .reclaim (.program b 3 (c.writer.record.line seq 0)) } ∧
      ∀ a, d.bank a =
        if a = b then
          { s.dev.bank b with state := .active, epoch := some epoch, used := c.writer.record.span, dead := 0, tagged := 0 }
        else if s.dev.activeBank = some a then
          { s.dev.bank a with state := .full, dead := (s.dev.bank a).dead + (125 - (s.dev.bank a).used) }
        else s.dev.bank a) ∧
    (∀ (bytes : RawLine) (d : Device),
      d = { s.dev.setBank b
          { s.dev.bank b with state := .full, epoch := some epoch, used := 0, dead := 125, tagged := 0, suspect := true } with
        openMark := none
        flags := { s.dev.flags with spaceLow := s.dev.flags.spaceLow || decide (s.dev.freeCount = 3) } } →
      (c.writer.faulted = true → s.dev.store = .ready → s.dev.reclaim.request = none →
        exec (.lineProgramOutcome (.other bytes)) s =
          .next { s with
            flash := s.flash.setLine b 1 (.raw bytes)
            dev := { d with
              store := .degraded
              causes := { s.dev.causes with reclaim := true }
              flags := { d.flags with degraded := true }
              reclaim := { s.dev.reclaim with job := .halted .fault }
              fc := { s.dev.fc with op := none } } }) ∧
      (∀ next, c.writer.faulted = false → s.dev.nextEpoch ≤ 0xFFFFFF00 → s.dev.fitsNowhere c.writer.record.span →
        d.freeToOpen = some next →
        exec (.lineProgramOutcome (.other bytes)) s =
          .next { s with
            flash := s.flash.setLine b 1 (.raw bytes)
            dev := { d with
              openMark := some (next, .reclaim)
              nextEpoch := s.dev.nextEpoch + 1
              reclaim := { s.dev.reclaim with
                job := .copy { c with writer := { c.writer with faulted := true, stage := .opening next s.dev.nextEpoch } } }
              fc := s.dev.fc.regranted .reclaim (.program next 1 (.openLine s.dev.nextEpoch 0)) } })))

/-! ## Records read (R29, R31, R89, R95) -/

/-- What READ's read gives (R52, R59, R73, R85, R89): an intact record's payload from the offset on, at most the length asked for, goes to
byte 0 of the buffer on, and the command ends OK with the count; of a record found damaged, where the entry still names the location read,
the entry becomes DAMAGED with its location kept, its span dead unless it was DAMAGED before, the buffer is not written and the command
ends CORRUPT. A detached READ writes no buffer and places no completion. -/
def Obligations.ReadOutcomeDelivers : Prop :=
  ∀ (s : State) (x : Executing) (loc : Location) (b : BankId) (first count : Nat) (i : Fin 4) (payload : Option (List Byte)),
    s.dev.ex = some x → x.code = .read → x.member = false → x.stage = .reading loc →
    s.dev.fc.Alone .command (.read b first count) → s.dev.reclaim.steady → x.desc.buffer.toNat = i.val →
    payload = recordPayload loc.line (s.flash.lines b first count) → ∃ d : Device,
      exec .multiLineReadOutcome s = .next { s with dev := d } ∧
      d.ex = none ∧
      (x.detached = true → d.fifo = s.dev.fifo ∧ d.buffers = s.dev.buffers) ∧
      (x.detached = false → ∀ j, (d.buffer j).owner = if j = i then .host else (s.dev.buffer j).owner) ∧
      (∀ p n, payload = some p → n = min x.desc.length.toNat (p.length - x.desc.offset.toNat) →
        d.dir = s.dev.dir ∧ d.banks = s.dev.banks ∧
        (x.detached = false →
          d.fifo = s.dev.fifo ++ [{ tag := x.desc.tag, status := .ok, result := n }] ∧
          ∀ j (k : Nat), (d.buffer j).byte k =
            if j = i ∧ k < n then p.getD (x.desc.offset.toNat + k) 0 else (s.dev.buffer j).byte k)) ∧
      (payload = none →
        (x.detached = false →
          d.fifo = s.dev.fifo ++ [{ tag := x.desc.tag, status := .corrupt, result := 0 }] ∧
          ∀ j (k : Nat), (d.buffer j).byte k = (s.dev.buffer j).byte k) ∧
        ∀ e, s.dev.entry x.desc.key = some e → e.loc = some loc →
          d.entry x.desc.key = some { e with state := .damaged } ∧
          ∀ c, d.bank c =
            { s.dev.bank c with
              dead := (s.dev.bank c).dead + if e.state ≠ .damaged ∧ loc.bank = c then 2 + (e.length + 15) / 16 else 0 })

/-- What ADD's read gives (R95, R104, R111, R113), in a group whose end is not waiting or outside one. Of a counter found damaged at the
location read, the member entry, or where there is none the Directory entry, becomes DAMAGED with its location kept, its span is dead,
the group needs one record less, and the command ends CLASS_DENIED. A sum above 2^64 - 1 ends it COUNTER_LIMIT with nothing else changed.
Any other sum is placed: in the ACTIVE bank, behind another open, in a bank it opens, or WAITING_SPACE. Under WARNING an intact counter ends
it POWER_ABORT (log entry 16). -/
def Obligations.AddOutcomePlacesSum : Prop :=
  ∀ (s : State) (x : Executing) (loc : Location) (b : BankId) (first count : Nat) (payload : Option (List Byte)) (d : Device),
    s.dev.ex = some x → x.code = .add → x.format = none → x.stage = .reading loc →
    s.dev.fc.Alone .command (.read b first count) → s.dev.reclaim.steady →
    payload = recordPayload loc.line (s.flash.lines b first count) →
    (∀ g, s.dev.group = some g → x.member = true → g.endsWithMember = false ∧ g.deadline ≠ some 0) →
    d = { s.dev with fc := { s.dev.fc with op := none } } →
    (payload = none →
      (∀ e, x.member = false ∨ s.dev.member x.desc.key = none → s.dev.entry x.desc.key = some e → e.loc = some loc →
        e.state ≠ .damaged → ∃ u : Device,
        exec .multiLineReadOutcome s = .next { s with dev := u.executingEnded x .classDenied 0 } ∧
        u = { d with dir := u.dir, banks := u.banks } ∧
        u.entry x.desc.key = some { e with state := .damaged } ∧
        (∀ k, k ≠ x.desc.key → u.entry k = s.dev.entry k) ∧
        ∀ c, u.bank c =
          { s.dev.bank c with dead := (s.dev.bank c).dead + if loc.bank = c then 2 + (e.length + 15) / 16 else 0 }) ∧
      (∀ g m, x.member = true → s.dev.group = some g → s.dev.member x.desc.key = some m → m.loc = some loc → m.state ≠ .damaged →
        s.dev.reclaim.victim = none → ∃ u : Device,
        exec .multiLineReadOutcome s = .next { s with dev := u.executingEnded x .classDenied 0 } ∧
        u =
          { d with
            banks := u.banks
            group := some
              { g with
                members := g.members.map fun y => if y.key = x.desc.key then { y with state := .damaged } else y
                records := g.records.filter fun l => decide (l ≠ loc) } } ∧
        ∀ c, u.bank c =
          { s.dev.bank c with dead := (s.dev.bank c).dead + if loc.bank = c then 2 + (m.length + 15) / 16 else 0 })) ∧
    (∀ p, payload = some p → s.power.warning = true →
      exec .multiLineReadOutcome s = .next { s with dev := d.executingEnded x .powerAbort 0 }) ∧
    (∀ p, payload = some p → s.power.warning = false → 2 ^ 64 ≤ natOf p + x.desc.argument.toNat →
      exec .multiLineReadOutcome s = .next { s with dev := d.executingEnded x .counterLimit 0 }) ∧
    (∀ p record, payload = some p → s.power.warning = false → natOf p + x.desc.argument.toNat < 2 ^ 64 → s.dev.nextSeq ≤ 0xFFFFFF00 →
      record = { key := x.desc.key, kind := .data, cls := .counter, payload := bytesOf 8 (natOf p + x.desc.argument.toNat)
                 gid := if x.member then s.dev.group.map (fun g => g.id) else none } →
      (∀ a line, s.dev.fitsIn a 3 → line = 3 + (s.dev.bank a).used →
        exec .multiLineReadOutcome s =
          .next { s with
            dev := { s.dev.setBank a { s.dev.bank a with used := (s.dev.bank a).used + 3 } with
              nextSeq := s.dev.nextSeq + 1
              ex := some { x with
                stage := .writing (writerAt record (.programming { bank := a, line := line, seq := s.dev.nextSeq, at_ := 0 })) }
              fc := s.dev.fc.regranted .command (.program a line (record.line s.dev.nextSeq 0)) } }) ∧
      (s.dev.fitsNowhere 3 →
        (s.dev.openMark ≠ none →
          exec .multiLineReadOutcome s =
            .next { s with dev := { d with ex := some { x with stage := .writing (writerAt record .waitOpen) } } }) ∧
        (∀ a, s.dev.openMark = none → 2 ≤ s.dev.freeCount → s.dev.freeToOpen = some a → s.dev.nextEpoch ≤ 0xFFFFFF00 →
          exec .multiLineReadOutcome s =
            .next { s with
              dev := { s.dev with
                openMark := some (a, .command)
                nextEpoch := s.dev.nextEpoch + 1
                ex := some { x with stage := .writing (writerAt record (.opening a s.dev.nextEpoch)) }
                fc := s.dev.fc.regranted .command (.program a 1 (.openLine s.dev.nextEpoch 0)) } }) ∧
        (s.dev.openMark = none → s.dev.freeCount < 2 → s.dev.store = .ready →
          exec .multiLineReadOutcome s =
            .next { s with dev := { d with ex := some { x with stage := .writing (writerAt record .waitSpace) } } })))

/-- A record that the device programmed reads back as its payload (R22, R23, R27, R28, R29, R31); one whose payload reads otherwise, or
whose commit line lacks its mark or its sequence, does not count as intact. -/
def Obligations.RecordReadsBack : Prop :=
  ∀ (record : RecordSpec) (seq line : Nat) (b : BankId) (f : Flash), (record.header seq).passesAt line = true →
    f.line b line = record.line seq 0 →
    (wellFormedPayload (record.header seq) record.payload = true →
      (∀ i, i < record.span → f.line b (line + i) = record.line seq i) →
      recordPayload line (f.lines b line record.span) = some record.payload) ∧
    (f.line b (line + (record.span - 1)) = record.line seq (record.span - 1) →
      payloadRead (record.header seq) (f.lines b line record.span) ≠ some record.payload →
      recordPayload line (f.lines b line record.span) = none) ∧
    ((∀ k z, f.line b (line + (record.span - 1)) ≠ .commitLine seq k z) →
      recordPayload line (f.lines b line record.span) = none)

/-! ## The Flash Controller (R10 to R15) -/

/-- Requests of a command that meet an erase (R10, R11, R12). A RUNNING erase is SUSPENDED for a line program, its count rising by one, if
suspension is enabled and the count is below 8; otherwise the program waits. A read of another bank is performed beside the erase, and one
of its own bank waits. A SUSPENDED erase stays so, its count unchanged, for the record's next line, and returns to RUNNING at the commit. -/
def Obligations.ErasesSuspended : Prop :=
  (∀ (s : State) (p : Posted) (rest : List Posted) (e : EraseOp), s.Turn p rest →
    s.dev.refusalFor p = none → s.dev.fc.op = none → s.dev.fc.erase = some e → e.suspended = false →
    s.dev.fc.waitCommand = none → s.dev.fc.waitReclaim = none → s.dev.fc.waitMount = none → s.dev.fc.decided = none →
    (∀ (record : RecordSpec) (b : BankId) (q : Request), s.dev.recordFor p = some record → s.dev.fitsIn b record.span →
      s.dev.nextSeq ≤ 0xFFFFFF00 →
      q = .program b (3 + (s.dev.bank b).used) (record.line s.dev.nextSeq 0) → ∃ d : Device,
      exec .takeCommand s = .next { s with dev := d } ∧
      (s.cfg.suspendEnable = true ∧ e.count < 8 →
        d.fc = { s.dev.fc with
          op := some (.command, q), erase := some { e with suspended := true, count := e.count + 1 }, fairness := 0 }) ∧
      (s.cfg.suspendEnable = false ∨ 8 ≤ e.count → d.fc = { s.dev.fc with waitCommand := some q, decided := some false })) ∧
    (∀ (entry : DirEntry) (loc : Location) (q : Request), p.code = .read → s.dev.entry p.desc.key = some entry →
      entry.loc = some loc → q = .read loc.bank loc.line (2 + (entry.length + 15) / 16) → ∃ d : Device,
      exec .takeCommand s = .next { s with dev := d } ∧
      (loc.bank ≠ e.bank → d.fc = { s.dev.fc with op := some (.command, q), fairness := 0 }) ∧
      (loc.bank = e.bank → d.fc = { s.dev.fc with waitCommand := some q }))) ∧
  (∀ (s : State) (x : Executing) (w : Writer) (r : Reservation) (e : EraseOp), s.LineInProgress x w r → s.power.warning = false →
    s.dev.fc.erase = some e → e.suspended = true → s.dev.fc.waitCommand = none → s.dev.fc.waitReclaim = none →
    s.dev.fc.waitMount = none → s.dev.fc.decided = none → ∃ d : Device,
    exec (.lineProgramOutcome .asIntended) s =
      .next { s with flash := s.flash.setLine r.bank (r.line + r.at_) (w.record.line r.seq r.at_), dev := d } ∧
    (∀ n, r.at_ < n → n < w.record.span → (∀ k, r.at_ < k → k < n → w.record.skips k = true) → w.record.skips n = false →
      d.fc = { s.dev.fc with
        op := some (.command, .program r.bank (r.line + n) (w.record.line r.seq n)), fairness := 0 }) ∧
    (r.at_ + 1 = w.record.span → x.code = .write → x.member = false →
      d.fc = { s.dev.fc with op := none, erase := some { e with suspended := false } }))

/-- Which waiting request is granted when an operation ends (R13, R14, R15). A command's next line is granted ahead of a request of the
Reclaim Engine, and the fairness count rises by one; with the count at 16 the Reclaim Engine's request is granted, the command's waits,
and the count is 0. A command's waiting request is likewise granted ahead of the header that the Reclaim Engine requests after its erase. -/
def Obligations.GrantOrderAndFairness : Prop :=
  (∀ (s : State) (x : Executing) (w : Writer) (r : Reservation) (n : Nat) (q next : Request), s.LineInProgress x w r →
    s.power.warning = false → s.dev.fc.erase = none → s.dev.fc.waitCommand = none → s.dev.fc.waitReclaim = some q →
    s.dev.fc.waitMount = none → s.dev.fc.decided = none → r.at_ < n → n < w.record.span →
    (∀ k, r.at_ < k → k < n → w.record.skips k = true) → w.record.skips n = false →
    next = .program r.bank (r.line + n) (w.record.line r.seq n) → ∃ fc : FlashController,
    exec (.lineProgramOutcome .asIntended) s =
      .next { s with
        flash := s.flash.setLine r.bank (r.line + r.at_) (w.record.line r.seq r.at_)
        dev := { s.dev with
          ex := some { x with stage := .writing { w with stage := .programming { r with at_ := n } } }
          fc := fc } } ∧
    (s.dev.fc.fairness < 16 → fc = { s.dev.fc with op := some (.command, next), fairness := s.dev.fc.fairness + 1 }) ∧
    (16 ≤ s.dev.fc.fairness → (∀ b, q ≠ .erase b) →
      fc = { s.dev.fc with op := some (.reclaim, q), waitReclaim := none, waitCommand := some next, fairness := 0 })) ∧
  (∀ (s : State) (b : BankId) (e : EraseOp) (q : Request) (generation : Nat), s.dev.Steady → s.power.warning = false →
    s.dev.reclaim.job = .erase b → s.dev.fc.erase = some e → e.requester = .reclaim → e.bank = b → e.suspended = false →
    s.dev.fc.op = none → s.dev.fc.waitCommand = some q → s.dev.fc.waitReclaim = none → s.dev.fc.waitMount = none →
    (∀ c, q ≠ .erase c) → (∀ x, s.dev.ex = some x → x.format = none) → s.dev.generation = some generation →
    s.dev.fc.fairness < 16 → ∃ d : Device,
    exec (.bankEraseOutcome []) s = .next { s with flash := s.flash.eraseBank b [], dev := d } ∧
    d.fc = { s.dev.fc with
      op := some (.command, q), erase := none, waitCommand := none, decided := none
      waitReclaim := some (.program b 0 (.bankHeader generation (s.dev.nextEraseCount b) 0))
      fairness := s.dev.fc.fairness + 1 })

/-! ## The Reclaim Engine (R50, R55, R123 to R147, R177, R178) -/

/-- The erase cycle (R61, R63, R131, R132): an erase that verifies is followed by the header program, with the current generation and
the next erase count; a header that verifies makes the bank FREE with that count and the engine IDLE; a first failed erase is made
again. The next count is one above the bank's own, or one above the highest known, or 1, and never above 0xFFFF_FFFF. -/
def Obligations.ReclaimErasesAndFrees : Prop :=
  (∀ (s : State) (b : BankId) (e : EraseOp) (generation : Nat), s.dev.Steady → s.power.warning = false →
    s.dev.reclaim.job = .erase b →
    s.dev.fc.erase = some e → e.requester = .reclaim → e.bank = b → e.suspended = false → s.dev.fc.op = none →
    s.dev.fc.waitCommand = none → s.dev.fc.waitReclaim = none → s.dev.fc.waitMount = none → s.dev.generation = some generation →
    ∀ fc : FlashController, fc = { s.dev.fc with erase := none, decided := none } →
    exec (.bankEraseOutcome []) s =
      .next { s with
        flash := s.flash.eraseBank b []
        dev := { s.dev with
          reclaim := { s.dev.reclaim with job := .eraseHeader b (s.dev.nextEraseCount b) }
          fc := fc.granted .reclaim (.program b 0 (.bankHeader generation (s.dev.nextEraseCount b) 0)) } } ∧
    (∀ (l : LineId) (bytes : RawLine), bytes ≠ erasedBytes → s.dev.reclaim.attempt = 0 →
      exec (.bankEraseOutcome [(l, .other bytes)]) s =
        .next { s with
          flash := s.flash.eraseBank b [(l, .other bytes)]
          dev := { s.dev with
            reclaim := { s.dev.reclaim with attempt := 1 }
            fc := fc.granted .reclaim (.erase b) } })) ∧
  (∀ (s : State) (b : BankId) (count : Nat) (data : Line), s.dev.Steady → s.dev.reclaim.job = .eraseHeader b count →
    s.dev.fc.Alone .reclaim (.program b 0 data) → s.flash.line b 0 = Line.erased →
    exec (.lineProgramOutcome .asIntended) s =
      .next { s with
        flash := s.flash.setLine b 0 data
        dev := { s.dev.setBank b
            { state := .free, epoch := none, eraseCount := some count, used := 0, dead := 0, tagged := 0, suspect := false } with
          reclaim := { s.dev.reclaim with attempt := 0, job := .idle }
          fc := { s.dev.fc with op := none } } }) ∧
  (∀ (d : Device) (b : BankId),
    (∀ c, (d.bank b).eraseCount = some c → d.nextEraseCount b = min (c + 1) 0xFFFFFFFF) ∧
    ((d.bank b).eraseCount = none →
      (∀ x c, x ≠ b → (d.bank x).eraseCount = some c → min (c + 1) 0xFFFFFFFF ≤ d.nextEraseCount b) ∧
      (d.nextEraseCount b = 1 ∨
        ∃ x c, x ≠ b ∧ (d.bank x).eraseCount = some c ∧ d.nextEraseCount b = min (c + 1) 0xFFFFFFFF)))

/-- What an IDLE engine takes up (R128, R130, R131, R134, R135, R137, R138): nothing under WARNING, in MOUNTING or in BLANK, and nothing
while it is not IDLE; with no bank map, lock repair or victim held, the header of the lowest BLANK bank, else the head of the erase list,
which becomes ERASING; with none of these and the FREE-bank count at or below the threshold, the bank chosen becomes RECLAIMING and its
journal is read; with no trigger and a command WAITING_SPACE for which no space can be made, that command ends NO_SPACE. The bank chosen
for space is FULL with no unfinished reservation, suspect with a dead line or with at least 18; if some such bank is suspect it is
suspect, and it has the most dead lines of those. A victim that is SELECTING under WARNING is held so, also when its plan read ends, and
has that read made again when it is taken up (R147, R186; for a read in progress at the warning the model's reading, log entry 30). A plan
read that ends in the condition NORMAL (R29, R138) makes the walk list of the records found, each with its classification, the counts of
each entry's lower records and of each group's records, and the cursor 0, and the walk begins (CopyVerifies). -/
def Obligations.ReclaimTakesUpWork : Prop :=
  ((∀ s : State, s.dev.AtRest →
    s.power.warning = true ∨ s.dev.store = .mounting ∨ s.dev.store = .blank ∨ s.dev.reclaim.job ≠ .idle →
    exec .reclaimTakeUpWork s = .next s) ∧
  (∀ (s : State) (generation : Nat), s.dev.Steady → s.dev.fc.Free → s.power.warning = false →
    s.dev.store = .ready ∨ s.dev.store = .degraded → s.dev.reclaim.job = .idle → s.dev.reclaim.mapDue = false →
    s.dev.reclaim.repairDue = false → s.dev.generation = some generation →
    (∀ b bs count, s.dev.banksIn .blank = b :: bs → count = s.dev.nextEraseCount b →
      exec .reclaimTakeUpWork s =
        .next { s with
          dev := { s.dev with
            reclaim := { s.dev.reclaim with job := .blankHeader b count }
            fc := s.dev.fc.granted .reclaim (.program b 0 (.bankHeader generation count 0)) } }) ∧
    (∀ b bs, s.dev.banksIn .blank = [] → s.dev.reclaim.eraseList = b :: bs →
      exec .reclaimTakeUpWork s =
        .next { s with
          dev := { s.dev.setBank b { s.dev.bank b with state := .erasing } with
            reclaim := { s.dev.reclaim with eraseList := bs, attempt := 0, job := .erase b }
            fc := s.dev.fc.granted .reclaim (.erase b) } })) ∧
  (∀ (s : State) (x : Executing) (w : Writer), s.dev.fc.Free → s.power.warning = false → s.dev.store = .ready →
    s.dev.reclaim.job = .idle → s.dev.reclaim.mapDue = false → s.dev.reclaim.repairDue = false → s.dev.reclaim.victim = none →
    s.dev.reclaim.request = none → s.dev.reclaim.eraseList = [] → s.dev.banksIn .blank = [] → s.dev.openMark = none →
    s.dev.ex = some x → x.stage = .writing w → w.stage = .waitSpace → x.format = none → x.member = false →
    x.code ≠ .commitGroup →
    s.dev.fitsNowhere w.record.span → s.dev.freeCount < 2 → (∀ b, (s.dev.bank b).state = .full → (s.dev.bank b).dead = 0) →
    exec .reclaimTakeUpWork s = .next { s with dev := s.dev.executingEnded x .noSpace 0 })) ∧
  ((∀ (s : State) (b : BankId), s.dev.Steady → s.dev.fc.Free → s.power.warning = false →
    s.dev.store = .ready ∨ s.dev.store = .degraded → s.dev.causes.commit = false → s.dev.reclaim.job = .idle →
    s.dev.reclaim.victim = none → s.dev.reclaim.mapDue = false → s.dev.reclaim.repairDue = false →
    s.dev.banksIn .blank = [] → s.dev.reclaim.eraseList = [] → s.dev.reclaim.request = none →
    s.dev.freeCount ≤ s.cfg.startThreshold → s.dev.spaceVictim = some b →
    exec .reclaimTakeUpWork s =
      .next { s with
        dev := { s.dev.setBank b { s.dev.bank b with state := .reclaiming } with
          reclaim := { s.dev.reclaim with
            job := .planRead
            victim := some
              { bank := b, point := .selecting, walk := [], cursor := 0, lower := [], grouped := [], forRequest := false
                committedSince := [] } }
          fc := s.dev.fc.granted .reclaim (.read b 3 125) } }) ∧
  (∀ (d : Device) (b : BankId), d.spaceVictim = some b → ∀ candidate : BankId → Prop,
    (∀ c, candidate c ↔ (d.bank c).state = .full ∧ d.reservedIn c = false ∧
      (((d.bank c).suspect = true ∧ 1 ≤ (d.bank c).dead) ∨ 18 ≤ (d.bank c).dead)) →
    candidate b ∧
    ((d.bank b).suspect = true → ∀ c, candidate c → (d.bank c).suspect = true → (d.bank c).dead ≤ (d.bank b).dead) ∧
    ((d.bank b).suspect = false → ∀ c, candidate c → (d.bank c).suspect = false ∧ (d.bank c).dead ≤ (d.bank b).dead))) ∧
  ((∀ (s : State) (v : Victim) (first count : Nat), s.dev.Steady → s.power.warning = true → s.dev.reclaim.job = .planRead →
    s.dev.reclaim.victim = some v → s.dev.fc.Alone .reclaim (.read v.bank first count) →
    exec .multiLineReadOutcome s =
      .next { s with
        dev := { s.dev with reclaim := { s.dev.reclaim with job := .idle }, fc := { s.dev.fc with op := none } } }) ∧
  (∀ (s : State) (v : Victim), s.dev.Steady → s.dev.fc.Free → s.power.warning = false →
    s.dev.store = .ready ∨ s.dev.store = .degraded → s.dev.reclaim.job = .idle → s.dev.reclaim.mapDue = false →
    s.dev.reclaim.repairDue = false → s.dev.banksIn .blank = [] → s.dev.reclaim.eraseList = [] → s.dev.reclaim.victim = some v →
    v.point = .selecting →
    exec .reclaimTakeUpWork s =
      .next { s with
        dev := { s.dev with
          reclaim := { s.dev.reclaim with job := .planRead }
          fc := s.dev.fc.granted .reclaim (.read v.bank 3 125) } }) ∧
  (∀ (s : State) (v : Victim) (records : List ScanRecord) (first count : Nat), s.dev.Steady → s.power.warning = false →
    s.dev.reclaim.job = .planRead → s.dev.reclaim.victim = some v → s.dev.fc.Alone .reclaim (.read v.bank first count) →
    records = (parseJournal (s.flash.lines v.bank first count)).records → ∃ (planned : Victim) (d : Device) (q : Request),
      planned = { v with
        point := .copying, cursor := 0, committedSince := [], lower := planned.lower, grouped := planned.grouped
        walk := records.map fun r =>
          { line := r.line, header := r.header
            verdict := match r.verdict, r.header.gid with
              | .torn, _ => .torn
              | .damaged, _ => .damaged
              | .intact, none => .valid
              | .intact, some g =>
                if s.dev.commits.any (fun c => decide (c.gid = g)) = true then .valid
                else if s.dev.group.any (fun c => decide (c.id = g)) = true then .pending
                else .orphan } } ∧
      (∀ e, s.dev.entry e.key = some e →
        countOf planned.lower e.key = (planned.walk.filter fun r =>
          decide (r.verdict = .valid ∧ r.header.key = e.key ∧ e.base ≤ r.header.seq ∧ r.header.seq < e.seq)).length) ∧
      (∀ c ∈ s.dev.commits,
        countOf planned.grouped c.gid = (planned.walk.filter fun r =>
          decide (r.verdict = .valid ∧ r.header.gid = some c.gid)).length) ∧
      d = Device.walk { s.dev with
        reclaim := { s.dev.reclaim with victim := some planned }, fc := { s.dev.fc with op := none } } ∧
      d.fc.waitReclaim = some q ∧
      exec .multiLineReadOutcome s = .next { s with dev := { d with fc := s.dev.fc.regranted .reclaim q } }))

/-- A bank becomes BAD (R132, R133): at its second failed attempt, its counts 0 and its erase count kept. With fewer than 8 usable banks or
more than 8 BAD ones, cause BANKS makes a READY store DEGRADED and the engine is IDLE; otherwise a bank map record that lists the BAD banks
in ascending order is placed, here in the ACTIVE bank, and its header requested. A first failed header is erased again, its bank suspect. -/
def Obligations.BadBankMapped : Prop :=
  (∀ (s : State) (b : BankId) (e : EraseOp) (l : LineId) (bytes : RawLine) (d : Device), s.dev.Steady → s.power.warning = false →
    s.dev.reclaim.job = .erase b → s.dev.reclaim.attempt = 1 → s.dev.fc.erase = some e → e.requester = .reclaim → e.bank = b →
    e.suspended = false → s.dev.fc.op = none → s.dev.fc.waitCommand = none → s.dev.fc.waitReclaim = none → s.dev.fc.waitMount = none →
    bytes ≠ erasedBytes →
    d = { s.dev.setBank b { s.dev.bank b with state := .bad, used := 0, dead := 0, tagged := 0 } with
      reclaim := { s.dev.reclaim with attempt := 0, job := .idle }
      fc := { s.dev.fc with erase := none, decided := none } } →
    (d.usable.length < 8 ∨ 8 < d.badCount → s.dev.store = .ready →
      exec (.bankEraseOutcome [(l, .other bytes)]) s =
        .next { s with
          flash := s.flash.eraseBank b [(l, .other bytes)]
          dev := { d with
            store := .degraded
            causes := { s.dev.causes with banks := true }
            flags := { s.dev.flags with degraded := true } } }) ∧
    (8 ≤ d.usable.length → d.badCount ≤ 8 → s.dev.nextSeq ≤ 0xFFFFFF00 → ∀ (record : RecordSpec) (a : BankId) (line : Nat),
      record = { key := 0xFF02, kind := .data, cls := .plain, payload := (d.banksIn .bad).map fun c => BitVec.ofNat 8 c.val, gid := none } →
      d.fitsIn a record.span → line = 3 + (d.bank a).used →
      exec (.bankEraseOutcome [(l, .other bytes)]) s =
        .next { s with
          flash := s.flash.eraseBank b [(l, .other bytes)]
          dev := { d.setBank a { d.bank a with used := (d.bank a).used + record.span } with
            nextSeq := s.dev.nextSeq + 1
            reclaim := { d.reclaim with
              job := .bankMap (writerAt record (.programming { bank := a, line := line, seq := s.dev.nextSeq, at_ := 0 })) }
            fc := d.fc.granted .reclaim (.program a line (record.line s.dev.nextSeq 0)) } })) ∧
  (∀ (s : State) (b : BankId) (count : Nat) (bytes : RawLine) (data : Line), s.dev.Steady → s.power.warning = false →
    s.dev.reclaim.job = .eraseHeader b count → s.dev.reclaim.attempt = 0 → s.dev.fc.Alone .reclaim (.program b 0 data) →
    s.flash.line b 0 = Line.erased → data ≠ .raw bytes →
    exec (.lineProgramOutcome (.other bytes)) s =
      .next { s with
        flash := s.flash.setLine b 0 (.raw bytes)
        dev := { s.dev.setBank b { s.dev.bank b with suspect := true } with
          reclaim := { s.dev.reclaim with attempt := 1, job := .erase b }
          fc := s.dev.fc.regranted .reclaim (.erase b) } })

/-- The bank map record and the lock record of the Reclaim Engine (R49, R128, R133, R157, R177, R178). A bank map that is due is taken up
first and its mark cleared: with fewer than 8 usable banks or more than 8 BAD ones cause BANKS arises, without a sequence left cause
SEQUENCE, and otherwise a record that lists the BAD banks in ascending order is placed, here in the ACTIVE bank, and its header requested.
A lock repair that is due while the entry of 0xFF01 is DAMAGED and no RAISE_LOCK executes programs a lock record of the level in force;
with the entry DAMAGED no more only the mark is cleared, and with a RAISE_LOCK executing the engine takes up nothing (the model's reading,
log entry 17). At the commit of either record its entry is created or replaced, the engine is IDLE, the mark of a repair is cleared and
the level stays. A second fault of a lock repair clears the mark; one of a bank map raises cause BANK_MAP. -/
def Obligations.SystemRecordsProgrammed : Prop :=
  (∀ (s : State) (d : Device), s.dev.Steady → s.dev.fc.Free → s.power.warning = false →
    s.dev.store = .ready ∨ s.dev.store = .degraded → s.dev.reclaim.job = .idle → s.dev.reclaim.mapDue = true →
    d = { s.dev with reclaim := { s.dev.reclaim with mapDue := false } } →
    (s.dev.usable.length < 8 ∨ 8 < s.dev.badCount → s.dev.store = .ready →
      exec .reclaimTakeUpWork s =
        .next { s with
          dev := { d with
            store := .degraded
            causes := { s.dev.causes with banks := true }
            flags := { s.dev.flags with degraded := true } } }) ∧
    (8 ≤ s.dev.usable.length → s.dev.badCount ≤ 8 →
      (0xFFFFFF00 < s.dev.nextSeq → s.dev.store = .ready →
        exec .reclaimTakeUpWork s =
          .next { s with
            dev := { d with
              store := .degraded
              causes := { s.dev.causes with sequence := true }
              flags := { s.dev.flags with degraded := true } } }) ∧
      (s.dev.nextSeq ≤ 0xFFFFFF00 → ∀ (record : RecordSpec) (a : BankId) (line : Nat),
        record = { key := 0xFF02, kind := .data, cls := .plain
                   payload := (s.dev.banksIn .bad).map fun c => BitVec.ofNat 8 c.val, gid := none } →
        s.dev.fitsIn a record.span → line = 3 + (s.dev.bank a).used →
        exec .reclaimTakeUpWork s =
          .next { s with
            dev := { d.setBank a { s.dev.bank a with used := (s.dev.bank a).used + record.span } with
              nextSeq := s.dev.nextSeq + 1
              reclaim := { d.reclaim with
                job := .bankMap (writerAt record (.programming { bank := a, line := line, seq := s.dev.nextSeq, at_ := 0 })) }
              fc := s.dev.fc.granted .reclaim (.program a line (record.line s.dev.nextSeq 0)) } }))) ∧
  (∀ s : State, s.dev.Steady → s.power.warning = false → s.dev.store = .ready ∨ s.dev.store = .degraded → s.dev.reclaim.job = .idle →
    s.dev.reclaim.mapDue = false → s.dev.reclaim.repairDue = true → ∀ e, s.dev.entry 0xFF01 = some e →
    (e.state = .damaged → s.dev.ex.any (fun x => decide (x.code = .raiseLock)) = true → s.dev.AtRest →
      exec .reclaimTakeUpWork s = .next s) ∧
    (e.state = .damaged → s.dev.ex.any (fun x => decide (x.code = .raiseLock)) = false → s.dev.fc.Free → s.dev.nextSeq ≤ 0xFFFFFF00 →
      ∀ (record : RecordSpec) (a : BankId) (line : Nat),
      record = { key := 0xFF01, kind := .data, cls := .plain, payload := [BitVec.ofNat 8 s.dev.level.number], gid := none } →
      s.dev.fitsIn a 3 → line = 3 + (s.dev.bank a).used →
      exec .reclaimTakeUpWork s =
        .next { s with
          dev := { s.dev.setBank a { s.dev.bank a with used := (s.dev.bank a).used + 3 } with
            nextSeq := s.dev.nextSeq + 1
            reclaim := { s.dev.reclaim with
              job := .lockRepair (writerAt record (.programming { bank := a, line := line, seq := s.dev.nextSeq, at_ := 0 })) }
            fc := s.dev.fc.granted .reclaim (.program a line (record.line s.dev.nextSeq 0)) } }) ∧
    (e.state ≠ .damaged →
      exec .reclaimTakeUpWork s =
        exec .reclaimTakeUpWork { s with dev := { s.dev with reclaim := { s.dev.reclaim with repairDue := false } } })) ∧
  (∀ (s : State) (job : ReclaimJob) (w : Writer) (r : Reservation) (d : Device), s.dev.Steady → s.dev.reclaim.job = job →
    job = .bankMap w ∨ job = .lockRepair w → w.stage = .programming r →
    s.dev.fc.Alone .reclaim (.program r.bank (r.line + r.at_) (w.record.line r.seq r.at_)) →
    s.flash.line r.bank (r.line + r.at_) = Line.erased → d = { s.dev with fc := { s.dev.fc with op := none } } →
    (r.at_ + 1 = w.record.span → w.record.kind = .data →
      exec (.lineProgramOutcome .asIntended) s =
        .next { s with
          flash := s.flash.setLine r.bank (r.line + r.at_) (w.record.line r.seq r.at_)
          dev := { d.commitEntry (committedRecord w r) with
            reclaim := { s.dev.reclaim with
              job := .idle, repairDue := if job = .bankMap w then s.dev.reclaim.repairDue else false } } }) ∧
    (∀ (bytes : RawLine) (u : Device), w.faulted = true → w.record.line r.seq r.at_ ≠ .raw bytes →
      u.bank r.bank =
        { s.dev.bank r.bank with
          suspect := true
          state := if (s.dev.bank r.bank).state = .active then .full else (s.dev.bank r.bank).state
          dead := (s.dev.bank r.bank).dead + w.record.span +
            if (s.dev.bank r.bank).state = .active then 125 - (s.dev.bank r.bank).used else 0 } →
      (∀ b, b ≠ r.bank → u.bank b = s.dev.bank b) → u = { d with banks := u.banks } →
      (job = .lockRepair w →
        exec (.lineProgramOutcome (.other bytes)) s =
          .next { s with
            flash := s.flash.setLine r.bank (r.line + r.at_) (.raw bytes)
            dev := { u with reclaim := { s.dev.reclaim with job := .idle, repairDue := false } } }) ∧
      (job = .bankMap w → s.dev.store = .ready →
        exec (.lineProgramOutcome (.other bytes)) s =
          .next { s with
            flash := s.flash.setLine r.bank (r.line + r.at_) (.raw bytes)
            dev := { u with
              reclaim := { s.dev.reclaim with job := .idle }
              store := .degraded
              causes := { s.dev.causes with bankMap := true }
              flags := { s.dev.flags with degraded := true } } })))

/-- The copy walk. At the cursor a record is decided by the first row of R139, and passed, its table losing the location, or read whole;
past the last record the retire line is requested. A record read whole and intact is copied with the original's sequence, a member's with
its group id, and placed by R141: in the ACTIVE bank, waiting on an open, by opening a bank, or halting the engine. One found damaged
(R140) makes the entry or member at its location DAMAGED without location, its lines dead, sets the lock repair mark for 0xFF01 (R177),
and is passed; a COMMIT record is rebuilt from its entry. A copy verifies (R50, R123, R125, R142), here the last: of an entry's record,
while the entry names the original, the location becomes the copy's, its copy count rises and the original's span is dead, unless it was
DAMAGED; once superseded, its stale count rises, unless below its base, and the copy's span is dead. Of a member's record, its group open:
likewise, with the moved-member list, the stale increment and the needed records; its group committed since the plan: R50, its remaining,
where the Commit Table has it, and the bank's tagged count rise; its group ended: the copy's span is dead. Of a COMMIT record: the Commit
Table's location becomes the copy's, or the copy is dead where no entry names the original. A DAMAGED entry, an older base and a group
that changed its state are the model's reading (log entries 12 and 14). -/
def Obligations.CopyVerifies : Prop :=
  (∀ (d : Device) (v : Victim) (count : Nat), d.reclaim.victim = some v → v.walk.length ≤ v.cursor →
    (d.bank v.bank).eraseCount = some count →
    d.walk = { d with
      reclaim := { d.reclaim with job := .retire, victim := some { v with point := .retiring } }
      fc := { d.fc with waitReclaim := some (.program v.bank 2 (.retireLine count 0)) } }) ∧
  (∀ (d : Device) (v : Victim) (r : WalkRecord) (place : Location) (past : Reclaim) (reads : CopyOwner → Device),
    d.reclaim.victim = some v → v.walk[v.cursor]? = some r → d.ordered → place = { bank := v.bank, line := r.line } →
    past = { d.reclaim with victim := some { v with cursor := v.cursor + 1 } } →
    reads = (fun owner => { d with
      reclaim := { d.reclaim with job := .copyRead owner }
      fc := { d.fc with waitReclaim := some (.read v.bank r.line (2 + (r.header.length + 15) / 16)) } }) →
    (∀ e, d.entry r.header.key = some e → e.loc = some place →
      (e.state = .damaged →
        d.walk = Device.walk { d with
          dir := d.dir.map fun y => if y.key = e.key then { y with loc := none } else y, reclaim := past }) ∧
      (e.seq = r.header.seq →
        (e.state = .live → d.walk = reads .directory) ∧
        (e.state = .tombstone →
          d.walk = if countOf v.lower e.key < e.stale then reads .directory else Device.walk { d with reclaim := past }))) ∧
    ((∀ e, d.entry r.header.key = some e → e.loc = some place → e.state ≠ .damaged ∧ e.seq ≠ r.header.seq) →
      (∀ m, d.member r.header.key = some m → m.loc = some place →
        (m.state = .damaged →
          d.walk = Device.walk { d with
            group := d.group.map fun g => { g with
              members := g.members.map fun y => if y.key = m.key then { y with loc := none } else y }
            reclaim := past }) ∧
        (m.state ≠ .damaged → m.seq = r.header.seq → d.walk = reads .member)) ∧
      ((∀ m, d.member r.header.key = some m → m.loc = some place → m.state ≠ .damaged ∧ m.seq ≠ r.header.seq) →
        (∀ c, d.commits.filter (fun y => decide (y.loc = place)) = [c] →
          d.walk = if countOf v.grouped c.gid < c.remaining then reads .commitTable else Device.walk { d with reclaim := past }) ∧
        ((∀ c ∈ d.commits, c.loc ≠ place) → d.walk = Device.walk { d with reclaim := past })))) ∧
  (∀ (s : State) (v : Victim) (r : WalkRecord) (owner : CopyOwner) (payload : List Byte) (record : RecordSpec) (first count : Nat)
      (job : WriterStage → ReclaimJob),
    s.dev.Steady → s.power.warning = false → s.dev.reclaim.job = .copyRead owner → s.dev.reclaim.victim = some v →
    v.walk[v.cursor]? = some r → recordPayload r.line (s.flash.lines v.bank first count) = some payload →
    record = { key := r.header.key, kind := r.header.kind, cls := r.header.cls, payload := payload
               gid := if owner = .member then r.header.gid else none } →
    job = (fun stage => .copy { line := r.line, header := r.header, owner := owner
                                writer := { record := record, fixedSeq := some r.header.seq, faulted := false, stage := stage } }) →
    (s.dev.fc.Alone .reclaim (.read v.bank first count) →
      (∀ (a : BankId) (line : Nat), s.dev.fitsIn a record.span → line = 3 + (s.dev.bank a).used →
        exec .multiLineReadOutcome s =
          .next { s with
            dev := { s.dev.setBank a { s.dev.bank a with used := (s.dev.bank a).used + record.span } with
              reclaim := { s.dev.reclaim with
                job := job (.programming { bank := a, line := line, seq := r.header.seq, at_ := 0 }) }
              fc := s.dev.fc.regranted .reclaim (.program a line (record.line r.header.seq 0)) } }) ∧
      (∀ b, s.dev.fitsNowhere record.span → s.dev.openMark = none → s.dev.freeToOpen = some b → s.dev.nextEpoch ≤ 0xFFFFFF00 →
        exec .multiLineReadOutcome s =
          .next { s with
            dev := { s.dev with
              openMark := some (b, .reclaim)
              nextEpoch := s.dev.nextEpoch + 1
              reclaim := { s.dev.reclaim with job := job (.opening b s.dev.nextEpoch) }
              fc := s.dev.fc.regranted .reclaim (.program b 1 (.openLine s.dev.nextEpoch 0)) } }) ∧
      (s.dev.fitsNowhere record.span → s.dev.openMark = none → s.dev.freeToOpen = none → s.dev.store = .ready →
        s.dev.reclaim.request = none →
        exec .multiLineReadOutcome s =
          .next { s with
            dev := { s.dev with
              store := .degraded
              causes := { s.dev.causes with reclaim := true }
              flags := { s.dev.flags with degraded := true }
              reclaim := { s.dev.reclaim with job := .halted .fault }
              fc := { s.dev.fc with op := none } } })) ∧
    (∀ (b : BankId) (who : Opener) (q : Request), s.dev.fitsNowhere record.span → s.dev.openMark = some (b, who) →
      s.dev.fc.op = some (.reclaim, .read v.bank first count) → s.dev.fc.erase = none → s.dev.fc.waitCommand = some q →
      s.dev.fc.waitReclaim = none → s.dev.fc.waitMount = none → s.dev.fc.decided = none → (∀ c, q ≠ .erase c) →
      (∀ x, s.dev.ex = some x → x.format = none) →
      exec .multiLineReadOutcome s =
        .next { s with
          dev := { s.dev with
            reclaim := { s.dev.reclaim with job := job .waitOpen }
            fc := { s.dev.fc with op := some (.command, q), waitCommand := none, fairness := 0 } } })) ∧
  (∀ (s : State) (v : Victim) (r : WalkRecord) (owner : CopyOwner) (first count : Nat) (place : Location) (found : Victim),
    s.dev.Steady → s.power.warning = false → s.dev.reclaim.job = .copyRead owner → s.dev.reclaim.victim = some v →
    v.walk[v.cursor]? = some r → recordPayload r.line (s.flash.lines v.bank first count) = none →
    s.dev.fc.Alone .reclaim (.read v.bank first count) → s.dev.ordered → place = { bank := v.bank, line := r.line } →
    found = { v with walk := v.walk.map fun y => if y.line = r.line then { y with verdict := .damaged } else y } →
    ((∀ m, s.dev.member r.header.key = some m → m.loc ≠ some place) → (∀ c ∈ s.dev.commits, c.loc ≠ place) →
      ∀ e, s.dev.entry r.header.key = some e → e.loc = some place → ∃ (d : Device) (q : Request),
        d = Device.walk { s.dev.setBank v.bank
            { s.dev.bank v.bank with
              dead := (s.dev.bank v.bank).dead + if e.state = .damaged then 0 else 2 + (e.length + 15) / 16 } with
          dir := s.dev.dir.map fun y => if y.key = e.key then { y with state := .damaged, loc := none } else y
          reclaim := { s.dev.reclaim with
            victim := some { found with cursor := v.cursor + 1 }
            repairDue := s.dev.reclaim.repairDue || decide (e.key = 0xFF01) }
          fc := { s.dev.fc with op := none } } ∧
        d.fc.waitReclaim = some q ∧
        exec .multiLineReadOutcome s = .next { s with dev := { d with fc := s.dev.fc.regranted .reclaim q } }) ∧
    ((∀ e, s.dev.entry r.header.key = some e → e.loc ≠ some place) → (∀ c ∈ s.dev.commits, c.loc ≠ place) →
      ∀ m, s.dev.member r.header.key = some m → m.loc = some place → m.state ≠ .damaged → ∃ (d : Device) (q : Request),
        d = Device.walk { s.dev.setBank v.bank
            { s.dev.bank v.bank with dead := (s.dev.bank v.bank).dead + (2 + (m.length + 15) / 16) } with
          group := s.dev.group.map fun g => { g with
            members := g.members.map fun y => if y.key = m.key then { y with state := .damaged, loc := none } else y
            records := g.records.filter fun l => decide (l ≠ place) }
          reclaim := { s.dev.reclaim with victim := some { found with cursor := v.cursor + 1 } }
          fc := { s.dev.fc with op := none } } ∧
        d.fc.waitReclaim = some q ∧
        exec .multiLineReadOutcome s = .next { s with dev := { d with fc := s.dev.fc.regranted .reclaim q } }) ∧
    ((∀ e, s.dev.entry r.header.key = some e → e.loc ≠ some place) →
      (∀ m, s.dev.member r.header.key = some m → m.loc ≠ some place) →
      ∀ (c : CommitEntry) (a : BankId) (line : Nat) (record : RecordSpec),
        s.dev.commits.filter (fun y => decide (y.loc = place)) = [c] →
        record = { key := r.header.key, kind := r.header.kind, cls := r.header.cls
                   payload := bytesOf 4 c.gid ++ bytesOf 2 c.memberCount, gid := none } →
        s.dev.fitsIn a record.span → line = 3 + (s.dev.bank a).used →
        exec .multiLineReadOutcome s =
          .next { s with
            dev := { s.dev.setBank a { s.dev.bank a with used := (s.dev.bank a).used + record.span } with
              reclaim := { s.dev.reclaim with
                victim := some found
                job := .copy
                  { line := r.line, header := r.header, owner := .commitTable
                    writer :=
                      { record := record, fixedSeq := some r.header.seq, faulted := false
                        stage := .programming { bank := a, line := line, seq := r.header.seq, at_ := 0 } } } }
              fc := s.dev.fc.regranted .reclaim (.program a line (record.line r.header.seq 0)) } })) ∧
  (∀ (s : State) (c : CopyJob) (r : Reservation) (v : Victim) (e : DirEntry) (count : Nat),
    s.dev.Steady → s.power.warning = false → s.dev.reclaim.job = .copy c → c.owner = .directory →
    c.writer.stage = .programming r → r.at_ + 1 = c.writer.record.span → s.dev.reclaim.victim = some v →
    v.cursor + 1 = v.walk.length →
    s.dev.fc.Alone .reclaim (.program r.bank (r.line + r.at_) (c.writer.record.line r.seq r.at_)) →
    s.flash.line r.bank (r.line + r.at_) = Line.erased → s.dev.entry c.header.key = some e →
    (s.dev.bank v.bank).eraseCount = some count → ∀ taken : Bool,
    taken = decide (e.loc = some { bank := v.bank, line := c.line } ∧ e.seq = c.header.seq) → ∃ d : Device,
      exec (.lineProgramOutcome .asIntended) s =
        .next { s with
          flash := s.flash.setLine r.bank (r.line + r.at_) (.commitLine r.seq (.over c.writer.record.payload) 0)
          dev := d } ∧
      d.entry c.header.key = some
        (if taken then { e with loc := some { bank := r.bank, line := r.line }, copies := e.copies + 1 }
        else { e with stale := e.stale + if e.base ≤ c.header.seq then 1 else 0 }) ∧
      (∀ k, k ≠ c.header.key → d.entry k = s.dev.entry k) ∧
      (∀ b, d.bank b =
        { s.dev.bank b with
          dead := (s.dev.bank b).dead +
            if taken then (if b = v.bank ∧ e.state ≠ .damaged then 2 + (c.header.length + 15) / 16 else 0)
            else if b = r.bank then 2 + (c.header.length + 15) / 16 else 0 }) ∧
      d.group = s.dev.group ∧ d.commits = s.dev.commits ∧
      d.reclaim = { s.dev.reclaim with
        job := .retire, victim := some { v with cursor := v.cursor + 1, point := .retiring } } ∧
      d.fc = s.dev.fc.regranted .reclaim (.program v.bank 2 (.retireLine count 0))) ∧
  (∀ (s : State) (c : CopyJob) (r : Reservation) (v : Victim) (original copy : Location),
    s.dev.Steady → s.power.warning = false → s.dev.reclaim.job = .copy c →
    c.writer.stage = .programming r → r.at_ + 1 = c.writer.record.span → s.dev.reclaim.victim = some v →
    v.cursor + 1 = v.walk.length →
    s.dev.fc.Alone .reclaim (.program r.bank (r.line + r.at_) (c.writer.record.line r.seq r.at_)) →
    s.flash.line r.bank (r.line + r.at_) = Line.erased → original = { bank := v.bank, line := c.line } →
    copy = { bank := r.bank, line := r.line } → ∃ d : Device,
      exec (.lineProgramOutcome .asIntended) s =
        .next { s with
          flash := s.flash.setLine r.bank (r.line + r.at_) (.commitLine r.seq (.over c.writer.record.payload) 0)
          dev := d } ∧
      d.reclaim.job = .retire ∧ d.reclaim.victim = some { v with cursor := v.cursor + 1, point := .retiring } ∧
      (c.owner = .member → ∀ gid, c.header.gid = some gid →
        (∀ g m, s.dev.group = some g → g.id = gid → s.dev.member c.header.key = some m →
          d.dir = s.dev.dir ∧ d.commits = s.dev.commits ∧
          (m.loc = some original → m.seq = c.header.seq →
            d.group = some
              { g with
                members := g.members.map fun y => if y.key = c.header.key then { y with loc := some copy } else y
                records := g.records ++ [copy] } ∧
            d.reclaim.moved = s.dev.reclaim.moved ++ [(c.header.key, c.header.seq)] ∧
            ∀ b, d.bank b =
              { s.dev.bank b with
                dead := (s.dev.bank b).dead +
                  if b = v.bank ∧ m.state ≠ .damaged then 2 + (c.header.length + 15) / 16 else 0 }) ∧
          (m.loc ≠ some original ∨ m.seq ≠ c.header.seq →
            d.group = some
              { g with
                members := g.members.map fun y =>
                  if y.key = c.header.key then { y with staleIncrement := y.staleIncrement + 1 } else y
                records := g.records ++ [copy] } ∧
            d.reclaim.moved = s.dev.reclaim.moved ∧
            ∀ b, d.bank b =
              { s.dev.bank b with
                dead := (s.dev.bank b).dead + if b = r.bank then 2 + (c.header.length + 15) / 16 else 0 })) ∧
        ((∀ g, s.dev.group = some g → g.id ≠ gid) →
          d.group = s.dev.group ∧ d.reclaim.moved = s.dev.reclaim.moved ∧
          (gid ∈ v.committedSince →
            d.commits = (s.dev.commits.map fun x => if x.gid = gid then { x with remaining := x.remaining + 1 } else x) ∧
            (∀ b, (d.bank b).tagged = (s.dev.bank b).tagged + if b = r.bank then 1 else 0) ∧
            ∀ e, s.dev.entry c.header.key = some e →
              d.entry c.header.key = some
                (if e.loc = some original ∧ e.seq = c.header.seq then { e with loc := some copy, copies := e.copies + 1 }
                else { e with stale := e.stale + if e.base ≤ c.header.seq then 1 else 0 })) ∧
          (gid ∉ v.committedSince →
            d.dir = s.dev.dir ∧ d.commits = s.dev.commits ∧
            ∀ b, d.bank b =
              { s.dev.bank b with
                dead := (s.dev.bank b).dead + if b = r.bank then 2 + (c.header.length + 15) / 16 else 0 }))) ∧
      (c.owner = .commitTable →
        d.dir = s.dev.dir ∧ d.group = s.dev.group ∧
        d.commits = (s.dev.commits.map fun x => if x.loc = original then { x with loc := copy } else x) ∧
        ∀ b, d.bank b =
          { s.dev.bank b with
            dead := (s.dev.bank b).dead +
              if b = (if s.dev.commits.any (fun x => decide (x.loc = original)) = true then v.bank else r.bank) then 3 else 0 }))

/-- The retire line of the victim. It verifies (R55, R57, R58, R60, R124, R125, R129, R136, R143): the bank is RETIRED with its counts 0
and joins the tail of the erase list, the engine is IDLE with no victim and no moved members. Each entry located outside the victim loses
from its stale and copy counts the victim's valid records of its key, a TOMBSTONE entry left with stale count 0 being removed; each Commit
Table entry loses the victim's valid records of its group, one left with none, or whose COMMIT record lies in the victim, being removed;
valid are the records judged so, and those judged pending whose group has committed since the plan. An open group loses its records in the
victim, and each member's stale increment the pending records of its key with a lower sequence. Removed entries outside the victim leave 2
and 3 dead lines in their banks. A RECLAIM that waits on this victim ends OK with its number. It faults (R144, R146): the bank is suspect
and stays RECLAIMING, no count changes, the engine is HALTED, the store DEGRADED with cause RECLAIM, and a RECLAIM ends OK with 0xFF. What
the walk judged a record stands for R55, R124 and R125, whatever a READ or a commit did since, but for those the walk, or an ADD at a
member's location, found damaged since (the model's reading, log entries 29, 32 and 34). -/
def Obligations.VictimRetired : Prop :=
  (∀ (s : State) (v : Victim) (data : Line) (valid : WalkRecord → Bool) (count : Nat → Nat),
    s.dev.Steady → s.dev.reclaim.job = .retire → s.dev.reclaim.victim = some v → s.dev.fc.Alone .reclaim (.program v.bank 2 data) →
    s.flash.line v.bank 2 = Line.erased → s.dev.ordered →
    (∀ x, s.dev.ex = some x → x.stage = .reclaimHeld → x.code = .reclaim ∧ x.member = false) →
    valid = (fun r => decide (r.verdict = .valid ∨
      (r.verdict = .pending ∧ ∃ gid ∈ v.committedSince, r.header.gid = some gid))) →
    count = (fun g => (v.walk.filter fun r => valid r && decide (r.header.gid = some g)).length) → ∃ d : Device,
      exec (.lineProgramOutcome .asIntended) s =
        .next { s with flash := s.flash.setLine v.bank 2 data, dev := d } ∧
      d.bank v.bank = { s.dev.bank v.bank with state := .retired, used := 0, dead := 0, tagged := 0 } ∧
      d.reclaim.job = .idle ∧ d.reclaim.victim = none ∧ d.reclaim.moved = [] ∧
      d.reclaim.eraseList = s.dev.reclaim.eraseList ++ [v.bank] ∧ d.fc = { s.dev.fc with op := none } ∧
      (∀ (k : Key) (e e' : DirEntry), s.dev.entry k = some e → (∀ l, e.loc = some l → l.bank ≠ v.bank) →
        e' = { e with
          stale := e.stale - (v.walk.filter fun r =>
            valid r && decide (r.header.key = k ∧ e.base ≤ r.header.seq ∧ r.header.seq < e.seq)).length
          copies := e.copies - (v.walk.filter fun r => valid r && decide (r.header.key = k ∧ r.header.seq = e.seq)).length } →
        d.entry k = if e'.state = .tombstone ∧ e'.stale = 0 then none else some e') ∧
      d.commits = ((s.dev.commits.map fun c => { c with remaining := c.remaining - count c.gid }).filter fun c =>
        decide (c.remaining ≠ 0 ∧ c.loc.bank ≠ v.bank)) ∧
      (∀ b, b ≠ v.bank → d.bank b =
        { s.dev.bank b with
          dead := (s.dev.bank b).dead +
            2 * (s.dev.dir.filter fun e => (d.entry e.key).isNone && e.loc.any fun l => decide (l.bank = b)).length +
            3 * (s.dev.commits.filter fun c => decide (c.loc.bank = b ∧ c.remaining ≤ count c.gid)).length }) ∧
      d.group = s.dev.group.map (fun g => { g with
        members := g.members.map fun m => { m with
          staleIncrement := m.staleIncrement - (v.walk.filter fun r =>
            decide (r.verdict = .pending ∧ r.header.gid = some g.id ∧ r.header.key = m.key ∧ r.header.seq < m.seq)).length }
        records := g.records.filter fun l => decide (l.bank ≠ v.bank) }) ∧
      (∀ n x, s.dev.reclaim.request = some n → s.dev.ex = some x → x.stage = .reclaimHeld →
        ((if n = 255 then v.forRequest = true else n = v.bank.val) →
          d.ex = none ∧ d.reclaim.request = none ∧
          d.fifo = (if x.detached then s.dev.fifo
            else s.dev.fifo ++ [{ tag := x.desc.tag, status := .ok, result := v.bank.val }])) ∧
        (¬(if n = 255 then v.forRequest = true else n = v.bank.val) →
          d.ex = s.dev.ex ∧ d.reclaim.request = some n ∧ d.fifo = s.dev.fifo))) ∧
  (∀ (s : State) (v : Victim) (data : Line) (bytes : RawLine) (u : Device),
    s.dev.Steady → s.dev.reclaim.job = .retire → s.dev.reclaim.victim = some v → s.dev.fc.Alone .reclaim (.program v.bank 2 data) →
    s.flash.line v.bank 2 = Line.erased → data ≠ .raw bytes → s.dev.store = .ready → s.power.warning = false →
    u = { s.dev.setBank v.bank { s.dev.bank v.bank with suspect := true } with
      store := .degraded
      causes := { s.dev.causes with reclaim := true }
      flags := { s.dev.flags with degraded := true }
      fc := { s.dev.fc with op := none }
      reclaim := { s.dev.reclaim with job := .halted .fault } } →
    (s.dev.ex = none →
      exec (.lineProgramOutcome (.other bytes)) s = .next { s with flash := s.flash.setLine v.bank 2 (.raw bytes), dev := u }) ∧
    (∀ x, s.dev.ex = some x → x.code = .reclaim → x.member = false → x.stage = .reclaimHeld → s.dev.reclaim.request ≠ none →
      exec (.lineProgramOutcome (.other bytes)) s =
        .next { s with
          flash := s.flash.setLine v.bank 2 (.raw bytes)
          dev := { u with
            reclaim := { u.reclaim with request := none, victim := some { v with forRequest := false } } }.executingEnded x .ok 0xFF }))

/-! ## Mount (R19, R63, R150 to R160) -/

/-- The census (R19, R36, R63, R151). The current generation is the highest in a header that passes its check. A bank is BLANK with its header
line and every other line erased; opened with a header of the current generation, the retire line erased and an open line that passes; FREE
with the open line erased instead; otherwise RETIRED. Its epoch and erase count are those that its lines carry. At the last census read of an
array without a current generation, mount ends BLANK: each bank is BLANK or RETIRED, the RETIRED ones are in the erase list, both
counters are 1, and every other table is as the start of mount left it. -/
def Obligations.CensusClassifiesBanks : Prop :=
  (∀ rows : List CensusRow,
    (currentGeneration rows = none ↔ ∀ r ∈ rows, ∀ g c z, r.header ≠ .bankHeader g c z) ∧
    ∀ g, currentGeneration rows = some g ↔
      (∃ r ∈ rows, ∃ c z, r.header = .bankHeader g c z) ∧ ∀ r ∈ rows, ∀ g' c z, r.header = .bankHeader g' c z → g' ≤ g) ∧
  (∀ (current : Option Nat) (r : CensusRow),
    (r.classify current = .blank ↔ r.header = Line.erased ∧ r.restErased = true) ∧
    (r.classify current = .opened ↔
      (∃ g c z, r.header = .bankHeader g c z ∧ current = some g) ∧ r.retire = Line.erased ∧ ∃ e z, r.openLine = .openLine e z) ∧
    (r.classify current = .free ↔
      (∃ g c z, r.header = .bankHeader g c z ∧ current = some g) ∧ r.retire = Line.erased ∧ r.openLine = Line.erased) ∧
    (∀ e, r.epoch current = some e ↔ (∃ g c z, r.header = .bankHeader g c z ∧ current = some g) ∧ ∃ z, r.openLine = .openLine e z) ∧
    (∀ g c z, r.header = .bankHeader g c z → r.eraseCount = some c) ∧
    ((∀ g c z, r.header ≠ .bankHeader g c z) →
      (∀ c z, r.retire = .retireLine c z → r.eraseCount = some c) ∧
      ((∀ c z, r.retire ≠ .retireLine c z) → r.eraseCount = none))) ∧
  (∀ (s : State) (rows : List CensusRow) (row : CensusRow) (b : BankId), s.dev.Steady → s.dev.mount = .census rows →
    rows.length = 31 → s.dev.fc.Alone .mount (.read b 0 3) →
    row = { header := s.flash.line b 0, openLine := s.flash.line b 1, retire := s.flash.line b 2, restErased := false } →
    row.header ≠ Line.erased → currentGeneration (rows ++ [row]) = none → ∃ d : Device,
    exec .multiLineReadOutcome s = .next { s with dev := d } ∧
    d = { s.dev with
      banks := d.banks, nextSeq := 1, nextEpoch := 1, generation := none, store := .blank, mountOutcome := .blank
      reclaim := { s.dev.reclaim with eraseList := allBanks.filter fun x => decide ((d.bank x).state = .retired) }
      banksHanded := (allBanks.filter fun x => decide ((d.bank x).state = .retired)).length
      flags := { s.dev.flags with mounted := true }, mount := .idle
      fc := { s.dev.fc with op := none } } ∧
    ∀ (x : BankId) (y : CensusRow), (rows ++ [row])[x.val]? = some y →
      d.bank x =
        { state := if y.header = Line.erased ∧ y.restErased = true then .blank else .retired
          epoch := none, eraseCount := if y.header = Line.erased ∧ y.restErased = true then none else y.eraseCount
          used := 0, dead := 0, tagged := 0, suspect := false })

/-- The Mount Unit's census and its end (R151, R159, R160). A census read whose header line reads programmed gives the bank's row, and the
next bank's lines 0 to 2 are requested; one whose header line reads erased is followed, before the next bank's (the model's choice, log
entry 39), by a read of the bank's journal; under WARNING the next request is refused and mount stops. At the last journal's read mount
ends: the store state by generation and causes, MOUNTED set, the RETIRED banks in the erase list in ascending order, and both outcome
registers. -/
def Obligations.MountReadsAndHandsOff : Prop :=
  (∀ (s : State) (rows : List CensusRow) (row : CensusRow) (b : BankId), s.dev.Steady → s.dev.mount = .census rows →
    s.dev.fc.Alone .mount (.read b 0 3) →
    row = { header := s.flash.line b 0, openLine := s.flash.line b 1, retire := s.flash.line b 2, restErased := false } →
    (∀ next : BankId, s.power.warning = false → row.header ≠ Line.erased → rows.length + 1 < 32 → next.val = rows.length + 1 →
      exec .multiLineReadOutcome s =
        .next { s with
          dev := { s.dev with mount := .census (rows ++ [row]), fc := s.dev.fc.regranted .mount (.read next 0 3) } }) ∧
    (∀ this : BankId, s.power.warning = false → row.header = Line.erased → this.val = rows.length →
      exec .multiLineReadOutcome s =
        .next { s with
          dev := { s.dev with mount := .censusRest rows row, fc := s.dev.fc.regranted .mount (.read this 3 125) } }) ∧
    (s.power.warning = true → row.header = Line.erased ∨ rows.length + 1 < 32 →
      exec .multiLineReadOutcome s =
        .next { s with dev := { s.dev with mount := .idle, fc := { s.dev.fc with op := none } } })) ∧
  (∀ (s : State) (rows : List CensusRow) (b c : BankId) (epoch first count : Nat) (done : List ScanBank), s.dev.Steady →
    s.dev.mount = .scan rows [(b, epoch)] done → s.dev.fc.Alone .mount (.read c first count) → ∃ d : Device,
      exec .multiLineReadOutcome s = .next { s with dev := d } ∧
      d.store = (if currentGeneration rows = none then .blank else if d.causes.any then .degraded else .ready) ∧
      d.mountOutcome = (if currentGeneration rows = none then .blank else if d.causes.any then .degraded else .ready) ∧
      d.flags.mounted = true ∧ (d.store = .degraded → d.flags.degraded = true) ∧ d.mount = .idle ∧
      d.reclaim.eraseList = allBanks.filter (fun x => decide ((d.bank x).state = .retired)) ∧
      d.banksHanded = d.reclaim.eraseList.length ∧
      (0xFFFFFF00 < d.nextSeq → d.causes.sequence = true) ∧ (0xFFFFFF00 < d.nextEpoch → d.causes.epoch = true))

/-- The Directory that mount builds from the records found in the banks that count, `counting` (R152, R153, R154): at the last journal's
read, a record is valid when intact and untagged, or tagged with the id of an intact COMMIT record among them. A key's entry describes its
newest valid record, by sequence, then epoch, then line; base, stale and copy counts follow from the others, and a TOMBSTONE without stale
records is not entered. A user key without a valid record has its newest damaged record, untagged or of a committed group, as a DAMAGED
entry (of several with the highest sequence the one a valid key would take: the model's reading, log entry 38). A key without records,
with COMMIT records alone (0xFF10), or without such a valid or damaged record has none. At most 376 user entries are loaded; a user key
left out raises cause DIRECTORY and lies above every user key loaded, of which there are then 376. -/
def Obligations.MountBuildsDirectory : Prop :=
  ∀ (s : State) (rows : List CensusRow) (b c : BankId) (epoch first count : Nat) (done scans opened : List ScanBank)
      (counting valid : List Found) (tagged : Found → Bool), s.dev.Steady →
    s.dev.mount = .scan rows [(b, epoch)] done → s.dev.fc.Alone .mount (.read c first count) →
    scans = done ++ [{ bank := b, epoch := epoch, append := (parseJournal (s.flash.lines c first count)).append
                       records := (parseJournal (s.flash.lines c first count)).records }] →
    opened = (scans.filter fun x => decide ((censusRow rows x.bank).classify (currentGeneration rows) = .opened)) →
    counting = foundIn (opened.filter fun x => !(banksListed (bankMapTaken opened)).contains x.bank) →
    tagged = (fun f => decide (f.header.gid = none ∨ ∃ h ∈ counting, h.verdict = .intact ∧ h.header.kind = .commit ∧
      f.header.gid = some (natOf (h.payload.take 4)))) →
    valid = (counting.filter fun f => decide (f.verdict = .intact) && tagged f) → s.dev.causes.directory = false → ∃ d : Device,
    exec .multiLineReadOutcome s = .next { s with dev := d } ∧
    (∀ (k : Key) (mine : List Found) (loaded : DirEntry → Prop), mine = (valid.filter fun f => decide (f.header.key = k)) →
      loaded = (fun e => d.entry k = some e ∨
        (d.causes.directory = true ∧ isUserKey k = true ∧ d.entry k = none ∧ ∀ x ∈ d.dir, isUserKey x.key = true → x.key < k)) →
      ((∀ f ∈ counting, f.header.key = k → f.header.kind = .commit) → d.entry k = none) ∧
      (∀ (sel : Found) (base : Nat) (e : DirEntry), sel ∈ mine → sel.header.kind ≠ .commit →
        (∀ f ∈ mine, f = sel ∨ f.header.seq < sel.header.seq ∨
          (f.header.seq = sel.header.seq ∧ (f.epoch < sel.epoch ∨ (f.epoch = sel.epoch ∧ f.loc.line < sel.loc.line)))) →
        ((∃ t ∈ mine, t.header.kind = .tombstone ∧ (∀ f ∈ mine, t.header.seq ≤ f.header.seq) ∧ base = t.header.seq + 1) ∨
          (base = 1 ∧ ∀ t ∈ mine, t.header.kind = .tombstone → ∃ f ∈ mine, f.header.seq < t.header.seq)) →
        e = { key := k, cls := sel.header.cls, state := if sel.header.kind = .tombstone then .tombstone else .live
              loc := some sel.loc, length := sel.header.length, seq := sel.header.seq, base := base
              stale := (mine.filter fun f => decide (base ≤ f.header.seq ∧ f.header.seq < sel.header.seq)).length
              copies := (mine.filter fun f => decide (f.header.seq = sel.header.seq)).length - 1 } →
        if e.state = .tombstone ∧ e.stale = 0 then d.entry k = none else loaded e) ∧
      (mine = [] → ∀ bad : List Found,
        bad = (counting.filter fun f => decide (f.header.key = k ∧ f.verdict = .damaged) && tagged f) →
        (isUserKey k = false ∨ bad = [] → d.entry k = none) ∧
        (∀ sel ∈ bad, isUserKey k = true → (∃ f ∈ counting, f.header.key = k ∧ f.header.kind ≠ .commit) →
          (∀ f ∈ bad, f = sel ∨ f.header.seq < sel.header.seq ∨
            (f.header.seq = sel.header.seq ∧ (f.epoch < sel.epoch ∨ (f.epoch = sel.epoch ∧ f.loc.line < sel.loc.line)))) →
          loaded
            { key := k, cls := sel.header.cls, state := .damaged, loc := some sel.loc, length := sel.header.length
              seq := sel.header.seq, base := sel.header.seq, stale := 0, copies := 0 }))) ∧
    (d.dir.filter fun e => isUserKey e.key).length ≤ 376 ∧
    (d.causes.directory = true → (d.dir.filter fun e => isUserKey e.key).length = 376)

/-- The rest of what mount builds (R36, R41, R152, R155 to R159): the Commit Table, the Bank Table with the bank that is ACTIVE, the
level, the counters and the bank map due mark. A committed group with valid records is entered, in ascending order of id, with their
number as remaining, at the COMMIT record of it that is highest by sequence, then epoch, then line; of more than 8 such groups the 8
lowest are entered, with cause COMMIT. A bank that counts has its epoch, its used lines from the append position, as dead every used line
that no LIVE or TOMBSTONE entry and no Commit Table entry needs, and is ACTIVE when its epoch is the highest and its append position at
most 127, else FULL with its tail dead; a bank that the bank map lists is BAD, and any other has the state of its census class. -/
def Obligations.MountBuildsBanks : Prop :=
  ∀ (s : State) (rows : List CensusRow) (b c : BankId) (epoch first count : Nat) (done scans opened counts : List ScanBank)
      (counting valid : List Found), s.dev.Steady →
    s.dev.mount = .scan rows [(b, epoch)] done → s.dev.fc.Alone .mount (.read c first count) →
    scans = done ++ [{ bank := b, epoch := epoch, append := (parseJournal (s.flash.lines c first count)).append
                       records := (parseJournal (s.flash.lines c first count)).records }] →
    opened = (scans.filter fun x => decide ((censusRow rows x.bank).classify (currentGeneration rows) = .opened)) →
    counts = (opened.filter fun x => !(banksListed (bankMapTaken opened)).contains x.bank) → counting = foundIn counts →
    valid = validFound counting → ∃ d : Device,
    exec .multiLineReadOutcome s = .next { s with dev := d } ∧
    d.generation = currentGeneration rows ∧ d.group = s.dev.group ∧
    (∀ x ∈ scans, x.epoch < d.nextEpoch ∧ ∀ f ∈ x.records, f.header.seq < d.nextSeq) ∧
    (d.nextEpoch = 1 ∨ ∃ x ∈ scans, x.epoch + 1 = d.nextEpoch) ∧
    (d.nextSeq = 1 ∨ ∃ x ∈ scans, ∃ f ∈ x.records, f.header.seq + 1 = d.nextSeq) ∧
    (∀ x ∈ d.commits, 1 ≤ x.remaining ∧ x.remaining = (valid.filter fun f => decide (f.header.gid = some x.gid)).length ∧
      ∃ f ∈ valid, f.header.kind = .commit ∧ natOf (f.payload.take 4) = x.gid ∧ f.loc = x.loc ∧
        natOf ((f.payload.drop 4).take 2) = x.memberCount ∧
        ∀ h ∈ valid, h.header.kind = .commit → natOf (h.payload.take 4) = x.gid →
          h.header.seq < f.header.seq ∨ (h.header.seq = f.header.seq ∧
            (h.epoch < f.epoch ∨ (h.epoch = f.epoch ∧ h.loc.line ≤ f.loc.line)))) ∧
    d.commits.length ≤ 8 ∧ (d.commits.Pairwise fun x y => x.gid < y.gid) ∧
    (∀ f ∈ valid, ∀ gid, f.header.kind = .commit → gid = natOf (f.payload.take 4) → (∃ h ∈ valid, h.header.gid = some gid) →
      (∃ x ∈ d.commits, x.gid = gid) ∨ (d.causes.commit = true ∧ d.commits.length = 8 ∧ ∀ x ∈ d.commits, x.gid < gid)) ∧
    (d.reclaim.mapDue = true ↔ ∃ f ∈ counting, f.header.key = 0xFF02 ∧ f.verdict ≠ .torn ∧
      ∀ t, bankMapTaken opened = some t → t.header.seq < f.header.seq) ∧
    (d.entry 0xFF01 = none → d.level = .opened) ∧
    (∀ e, d.entry 0xFF01 = some e → ∀ f ∈ counting, e.loc = some f.loc → (∀ g ∈ counting, g.loc = f.loc → g = f) →
      (f.payload = [1] → d.level = .closed) ∧ (f.payload = [2] → d.level = .final)) ∧
    (∀ (x : BankId), (∀ y ∈ counts, y.bank ≠ x) →
      ((banksListed (bankMapTaken opened)).contains x = true → (d.bank x).state = .bad) ∧
      ((banksListed (bankMapTaken opened)).contains x = false →
        (d.bank x).state = (match (censusRow rows x).classify (currentGeneration rows) with
          | .blank => .blank
          | .free => .free
          | .retired => .retired
          | .opened => .retired)) ∧
      (d.bank x).used = 0 ∧ (d.bank x).dead = 0 ∧ (d.bank x).tagged = 0 ∧ (d.bank x).suspect = false) ∧
    ((counts.map fun y => y.bank).Nodup → ∀ (y : ScanBank) (needed : List Found) (active : Bool), y ∈ counts →
      needed = (y.found.filter fun f => decide ((∃ e ∈ d.dir, e.state ≠ .damaged ∧ e.loc = some f.loc) ∨ ∃ g ∈ d.commits, g.loc = f.loc)) →
      (∀ z ∈ counts, z = y ∨ z.epoch ≠ y.epoch) →
      active = decide (y.append ≤ 127 ∧ ∀ z ∈ counts, z.epoch ≤ y.epoch) →
      d.bank y.bank =
        { state := if active then .active else .full
          epoch := some y.epoch
          eraseCount := (censusRow rows y.bank).eraseCount
          used := y.append - 3
          dead := (y.append - 3 - (needed.map fun f => 2 + (f.header.length + 15) / 16).sum) +
            if active then 0 else 125 - (y.append - 3)
          tagged := (valid.filter fun f => decide (f.loc.bank = y.bank ∧ ∃ g ∈ d.commits, f.header.gid = some g.gid)).length
          suspect := false })

/-! ## Power (R16, R17, R120, R122, R179 to R186) -/

/-- The level of a source changes by POWER_WARNING, the supply staying at or above the brown-out level (R16, R122, R179, R182, R184). Where
a source then asserts and the condition is NORMAL: it is WARNING with the debounce IDLE, POWER_WARN is set, no erase and no waiting request
is left at the Flash Controller and its fairness count is 0, an operation in progress but an erase runs on, the array changes only in the
bank of an abandoned erase, an OPEN group with no member command executing ends, and a command WAITING_SPACE, waiting for a lock repair, or
holding a RECLAIM request that no retire line in progress answers (log entry 19), has ended, and so has the head command where the entry
comes between its taking and its step (log entry 40). Which source asserts makes no other difference. In WARNING another assertion only
resets the debounce. Where no source asserts, the event records the level (log entry 6). -/
def Obligations.PowerWarningEntered : Prop :=
  (∀ (s : State) (source : WarningSource) (cut : CutShort) (power : Power), ¬Instr.resets s (.powerWarning source cut) →
    power = (match source with
      | .pfw _ => { s.power with pfwLow := true }
      | .supply mv _ => { s.power with vdd := mv }) →
    (powerAsserted s.cfg power = false →
      exec (.powerWarning source cut) s =
        .next { s with
          power := if s.power.warning = true ∧ s.power.debounce = .idle then { power with debounce := .pending } else power }) ∧
    (powerAsserted s.cfg power = true → s.power.warning = true →
      exec (.powerWarning source cut) s = .next { s with power := { power with debounce := .idle } }) ∧
    (powerAsserted s.cfg power = true → s.power.warning = false → ∃ t,
      exec (.powerWarning source cut) s = .next t ∧
      t.power = { power with warning := true, debounce := .idle } ∧ t.cfg = s.cfg ∧ t.port = s.port ∧
      t.dev.flags.powerWarn = true ∧ t.dev.fc.erase = none ∧ t.dev.fc.waitCommand = none ∧ t.dev.fc.waitReclaim = none ∧
      t.dev.fc.waitMount = none ∧ t.dev.fc.fairness = 0 ∧ t.dev.fc.op = s.dev.fc.op ∧
      t.flash = (match s.dev.fc.erase with
        | some e => s.flash.eraseBank e.bank cut.erase
        | none => s.flash) ∧
      (∀ g, s.dev.group = some g → g.state = .opened → s.dev.ex.any (fun x => x.member) = false → t.dev.group = none) ∧
      t.dev.commandPhase ≠ .waitingSpace ∧
      (∀ x, s.dev.ex = some x → x.stage = .repairWait → t.dev.ex = none) ∧
      (∀ x, s.dev.ex = some x → x.stage = .reclaimHeld → s.dev.reclaim.request ≠ none → s.dev.retireAnswers = false →
        t.dev.ex = none))) ∧
  (∀ (s t u : State) (mv : Nat) (between : Bool) (cut : CutShort),
    s.power.warning = false → 1600 ≤ s.power.vdd → 1600 ≤ mv → powerAsserted s.cfg { s.power with vdd := mv } = true →
    exec (.powerWarning (.supply mv between) cut) s = .next t → exec (.powerWarning (.pfw between) cut) s = .next u →
    t = { u with power := { s.power with vdd := mv, warning := true, debounce := .idle } }) ∧
  (∀ (s t : State) (p : Posted) (rest : List Posted) (cut : CutShort),
    s.MeetsWarning p rest → exec (.powerWarning (.pfw true) cut) s = .next t → t.dev.ex = none ∧ t.dev.queue = rest)

/-- Deassertion, ticks and recovery (R17, R179, R180, R186). PFW# goes HIGH, the supply staying at or above the brown-out level: with no source
asserting the debounce goes from IDLE to PENDING; a comparator that asserts keeps the condition WARNING, or enters it. At the next tick the
debounce is ARMED, and at the next the condition is NORMAL with POWER_OK set; a store that is MOUNTING then mounts from census. RECOVERY is
that last event by itself and, unless the debounce is ARMED, cannot occur (log entries 6 and 10). -/
def Obligations.WarningEndsAfterDebounce : Prop :=
  (∀ (s : State) (mv : Nat) (cut : CutShort) (power : Power), ¬Instr.resets s (.powerWarningDeasserted { millivolts := mv, cut := cut }) →
    power = { s.power with pfwLow := false, vdd := mv } →
    (powerAsserted s.cfg power = true → s.power.warning = true →
      exec (.powerWarningDeasserted { millivolts := mv, cut := cut }) s = .next { s with power := { power with debounce := .idle } }) ∧
    (powerAsserted s.cfg power = true → s.power.warning = false → ∃ t,
      exec (.powerWarningDeasserted { millivolts := mv, cut := cut }) s = .next t ∧ t.power = { power with warning := true, debounce := .idle } ∧
      t.dev.flags.powerWarn = true) ∧
    (powerAsserted s.cfg power = false →
      exec (.powerWarningDeasserted { millivolts := mv, cut := cut }) s =
        .next { s with
          power := if s.power.warning = true ∧ s.power.debounce = .idle then { power with debounce := .pending } else power })) ∧
  (∀ s : State, s.dev.AtRest → s.dev.group = none → s.power.warning = true →
    (s.power.debounce = .idle → exec .timebaseTick s = .next s) ∧
    (s.power.debounce = .pending → exec .timebaseTick s = .next { s with power := { s.power with debounce := .armed } }) ∧
    (s.power.debounce = .armed → ∀ (d : Device),
      d = { s.dev with
        flags := { s.dev.flags with powerOk := true }
        fc := { s.dev.fc with fairness := 0 } } → ∀ i : Instr, i = .timebaseTick ∨ i = .recovery →
      (s.dev.store ≠ .mounting →
        exec i s = .next { s with power := { s.power with warning := false, debounce := .idle }, dev := d }) ∧
      (s.dev.store = .mounting → s.dev.fc.Free →
        exec i s =
          .next { s with
            power := { s.power with warning := false, debounce := .idle }
            dev := { d.resetTables with
              mount := .census []
              fc := { s.dev.fc with fairness := 0, op := some (.mount, .read 0 0 3) } } }))) ∧
  (∀ s : State, s.power.warning = false ∨ s.power.debounce ≠ .armed → exec .recovery s = .next s)

/-- The deadline of an OPEN group (R120): each tick reduces it by one; at 0 the group ends without commit and GROUP_EXPIRED is set, or
waits at 0 for the member command that is executing. A COMMITTING group and one without deadline take no tick. GROUP_EXPIRY is the
tick that takes the deadline to 0, and any other time it cannot occur (log entries 6 and 10). -/
def Obligations.GroupDeadlineTicks : Prop :=
  ∀ s : State, s.dev.AtRest → s.power.warning = false →
    ((s.dev.group = none ∨ ∃ g, s.dev.group = some g ∧ (g.state = .committing ∨ g.deadline = none)) →
      exec .timebaseTick s = .next s ∧ exec .groupExpiry s = .next s) ∧
    (∀ g n, s.dev.group = some g → g.state = .opened → g.deadline = some n →
      (1 < n →
        exec .timebaseTick s = .next { s with dev := { s.dev with group := some { g with deadline := some (n - 1) } } } ∧
        exec .groupExpiry s = .next s) ∧
      (n ≤ 1 → ∀ i : Instr, i = .timebaseTick ∨ i = .groupExpiry →
        (s.dev.ex.any (fun x => x.member) = true →
          exec i s = .next { s with dev := { s.dev with group := some { g with deadline := some 0 } } }) ∧
        (s.dev.ex.any (fun x => x.member) = false →
          exec i s =
            .next { s with
              dev := { s.dev.endGroup with flags := { s.dev.flags with groupExpired := true } } })))

/-! ## Resets (R20, R83, R150, R181, R198) -/

/-- R83: what a power-on reset and a pin reset leave of the Command Queue, the buffers, the descriptor and the Command Engine: no
flash operation or request of a command is left, and a command posted while the store is MOUNTING waits. -/
def Obligations.HostSideAfterReset : Prop :=
  ∀ (s : State) (i : Instr), Instr.resets s i → ∃ t, exec i s = .next t ∧
      t.dev.queue = [] ∧ t.dev.credits = 8 ∧ t.dev.fifo = [] ∧
      (∀ a : Addr, 0x10 ≤ a.toNat → a.toNat ≤ 0x13 → t.register a = 0xFF) ∧
      (∀ j, (t.dev.buffer j).owner = .host ∧ (t.dev.buffer j).pointer = 0 ∧ ∀ k, (t.dev.buffer j).byte k = 0) ∧
      t.select = 0 ∧ t.register 0x31 = 0 ∧ (∀ a : Addr, 0x20 ≤ a.toNat → a.toNat ≤ 0x2C → t.register a = 0) ∧
      t.dev.ex = none ∧ t.register 0x16 = 0 ∧ t.dev.urgent = false ∧ t.dev.store = .mounting ∧
      t.dev.fc.erase = none ∧ t.dev.fc.waitCommand = none ∧ (∀ r, t.dev.fc.op ≠ some (.command, r)) ∧
      (∀ p, exec .takeCommand { t with dev := { t.dev with queue := [p] } } =
        .next { t with dev := { t.dev with queue := [p] } })

/-- A power-on reset gives every block its reset value but the array: its line under program reads erased, as requested or otherwise, its
bank under erase any mix, and mount begins, or under WARNING waits for recovery with POWER_WARN set (R16, R20, R150, R160, R179); its first
census read is granted in the same step (log entry 2), and `State.reset` gives the port's fields their values (log entry 5). A supply that
comes below 1.6 V, or leaves it, is that reset (R181). A LOW pulse of at least 1 µs on RST# is a pin reset, a shorter one does nothing;
while RST# is LOW the port is held and its frame over, and the reset comes at the rise, the sources at the levels they have (R198; that the
engines go on until the rise, and that a pulse in LOW and a rise in HIGH cannot occur, is the model's choice, log entries 6 and 27). -/
def Obligations.ResetKeepsFlashAndMounts : Prop :=
  (∀ (s : State) (cut : CutShort) (low : Bool) (mv : Nat) (warning : Bool),
    warning = (low || decide (mv < 2400)) →
    exec (.powerOnReset cut low mv) s =
      .next { State.reset with
        pending := s.pending
        flash := cutErase (cutProgram s.flash s.dev.fc.op cut.line) s.dev.fc.erase cut.erase
        power := { warning := warning, debounce := .idle, pfwLow := low, vdd := mv }
        rstLow := s.rstLow
        dev := if warning = true then { Device.initial with flags := { powerWarn := true } } else State.reset.dev }) ∧
  (∀ (s : State) (cut : CutShort) (mv : Nat) (between : Bool),
    (mv < 1600 ∨ s.power.vdd < 1600 →
      exec (.powerWarning (.supply mv between) cut) s = exec (.powerOnReset cut s.power.pfwLow mv) s ∧
      exec (.powerWarningDeasserted { millivolts := mv, cut := cut }) s = exec (.powerOnReset cut false mv) s) ∧
    (s.power.vdd < 1600 → exec (.powerWarning (.pfw between) cut) s = exec (.powerOnReset cut true s.power.vdd) s)) ∧
  (∀ (s : State) (n : Nat) (cut : CutShort),
    (s.rstLow = true ∨ n < 1000 → exec (.pinReset (.pulse n) cut) s = .next s) ∧
    (s.rstLow = false → 1000 ≤ n →
      exec (.pinReset (.pulse n) cut) s = exec (.powerOnReset cut s.power.pfwLow s.power.vdd) s) ∧
    exec (.pinReset .low cut) s = .next { s with rstLow := true, port := { s.port with frame := none, capture := none } } ∧
    (s.rstLow = true →
      exec (.pinReset .rises cut) s = exec (.powerOnReset cut s.power.pfwLow s.power.vdd) { s with rstLow := false }) ∧
    (s.rstLow = false → exec (.pinReset .rises cut) s = .next s)) ∧
  (∀ (s : State) (cut : CutShort), s.dev.fc.erase = none → (∀ who b line data, s.dev.fc.op ≠ some (who, .program b line data)) →
    cutErase (cutProgram s.flash s.dev.fc.op cut.line) s.dev.fc.erase cut.erase = s.flash)

/-! ## Laws that every step keeps -/

/-- The memories keep their canonical form and the configuration its ranges (R71, R194). -/
def Obligations.LawfulKept : Prop := ∀ s t : State, s.lawful → step s = .next t → t.lawful

/-- The law of credits (R67): queued commands, the executing command for the host and completions never number more than 8. -/
def Obligations.CreditLawKept : Prop := ∀ s t : State, s.creditLaw → step s = .next t → t.creditLaw

/-- The law of groups (R115, R117, R120 to R122): a COMMITTING group has its COMMIT_GROUP executing, and an OPEN group whose end is
held a member command. -/
def Obligations.GroupLawKept : Prop := ∀ s t : State, s.dev.groupLaw → step s = .next t → t.dev.groupLaw

/-- The law of the power and reset pins (R179, R180, R181, R198). -/
def Obligations.PowerLawKept : Prop := ∀ s t : State, s.powerLaw → step s = .next t → t.powerLaw

/-- The order of the Directory (R44): ascending keys, at most one entry for any key. -/
def Obligations.DirectoryOrderKept : Prop := ∀ s t : State, s.dev.ordered → step s = .next t → t.dev.ordered

/-- The state after reset has all of these laws. -/
def Obligations.ResetHasTheLaws : Prop :=
  State.reset.lawful ∧ State.reset.creditLaw ∧ State.reset.dev.groupLaw ∧ State.reset.powerLaw ∧ State.reset.dev.ordered
end

