-- ==== Sys2Proof/Laws/State.lean ====
section
/-! SUPPORT. What each named update leaves unchanged, field by field, and what it writes: every lemma true by `rfl`. -/
namespace Sys2Proof.Machine
open Sys2Proof

/-! ## setBank -/
@[simp] theorem Device.setBank_queue (d : Device) (b : BankId) (e : BankEntry) : (d.setBank b e).queue = d.queue := rfl
@[simp] theorem Device.setBank_fifo (d : Device) (b : BankId) (e : BankEntry) : (d.setBank b e).fifo = d.fifo := rfl
@[simp] theorem Device.setBank_buffers (d : Device) (b : BankId) (e : BankEntry) : (d.setBank b e).buffers = d.buffers := rfl
@[simp] theorem Device.setBank_flags (d : Device) (b : BankId) (e : BankEntry) : (d.setBank b e).flags = d.flags := rfl
@[simp] theorem Device.setBank_ex (d : Device) (b : BankId) (e : BankEntry) : (d.setBank b e).ex = d.ex := rfl
@[simp] theorem Device.setBank_dir (d : Device) (b : BankId) (e : BankEntry) : (d.setBank b e).dir = d.dir := rfl
@[simp] theorem Device.setBank_level (d : Device) (b : BankId) (e : BankEntry) : (d.setBank b e).level = d.level := rfl
@[simp] theorem Device.setBank_openMark (d : Device) (b : BankId) (e : BankEntry) : (d.setBank b e).openMark = d.openMark := rfl
@[simp] theorem Device.setBank_nextSeq (d : Device) (b : BankId) (e : BankEntry) : (d.setBank b e).nextSeq = d.nextSeq := rfl
@[simp] theorem Device.setBank_nextEpoch (d : Device) (b : BankId) (e : BankEntry) : (d.setBank b e).nextEpoch = d.nextEpoch := rfl
@[simp] theorem Device.setBank_store (d : Device) (b : BankId) (e : BankEntry) : (d.setBank b e).store = d.store := rfl
@[simp] theorem Device.setBank_generation (d : Device) (b : BankId) (e : BankEntry) : (d.setBank b e).generation = d.generation := rfl
@[simp] theorem Device.setBank_causes (d : Device) (b : BankId) (e : BankEntry) : (d.setBank b e).causes = d.causes := rfl
@[simp] theorem Device.setBank_mountOutcome (d : Device) (b : BankId) (e : BankEntry) : (d.setBank b e).mountOutcome = d.mountOutcome := rfl
@[simp] theorem Device.setBank_banksHanded (d : Device) (b : BankId) (e : BankEntry) : (d.setBank b e).banksHanded = d.banksHanded := rfl
@[simp] theorem Device.setBank_group (d : Device) (b : BankId) (e : BankEntry) : (d.setBank b e).group = d.group := rfl
@[simp] theorem Device.setBank_commits (d : Device) (b : BankId) (e : BankEntry) : (d.setBank b e).commits = d.commits := rfl
@[simp] theorem Device.setBank_reclaim (d : Device) (b : BankId) (e : BankEntry) : (d.setBank b e).reclaim = d.reclaim := rfl
@[simp] theorem Device.setBank_fc (d : Device) (b : BankId) (e : BankEntry) : (d.setBank b e).fc = d.fc := rfl
@[simp] theorem Device.setBank_mount (d : Device) (b : BankId) (e : BankEntry) : (d.setBank b e).mount = d.mount := rfl

/-! ## setBuffer -/
@[simp] theorem Device.setBuffer_queue (d : Device) (i : Fin 4) (b : Buffer) : (d.setBuffer i b).queue = d.queue := rfl
@[simp] theorem Device.setBuffer_fifo (d : Device) (i : Fin 4) (b : Buffer) : (d.setBuffer i b).fifo = d.fifo := rfl
@[simp] theorem Device.setBuffer_flags (d : Device) (i : Fin 4) (b : Buffer) : (d.setBuffer i b).flags = d.flags := rfl
@[simp] theorem Device.setBuffer_ex (d : Device) (i : Fin 4) (b : Buffer) : (d.setBuffer i b).ex = d.ex := rfl
@[simp] theorem Device.setBuffer_dir (d : Device) (i : Fin 4) (b : Buffer) : (d.setBuffer i b).dir = d.dir := rfl
@[simp] theorem Device.setBuffer_level (d : Device) (i : Fin 4) (b : Buffer) : (d.setBuffer i b).level = d.level := rfl
@[simp] theorem Device.setBuffer_banks (d : Device) (i : Fin 4) (b : Buffer) : (d.setBuffer i b).banks = d.banks := rfl
@[simp] theorem Device.setBuffer_openMark (d : Device) (i : Fin 4) (b : Buffer) : (d.setBuffer i b).openMark = d.openMark := rfl
@[simp] theorem Device.setBuffer_nextSeq (d : Device) (i : Fin 4) (b : Buffer) : (d.setBuffer i b).nextSeq = d.nextSeq := rfl
@[simp] theorem Device.setBuffer_nextEpoch (d : Device) (i : Fin 4) (b : Buffer) : (d.setBuffer i b).nextEpoch = d.nextEpoch := rfl
@[simp] theorem Device.setBuffer_store (d : Device) (i : Fin 4) (b : Buffer) : (d.setBuffer i b).store = d.store := rfl
@[simp] theorem Device.setBuffer_generation (d : Device) (i : Fin 4) (b : Buffer) : (d.setBuffer i b).generation = d.generation := rfl
@[simp] theorem Device.setBuffer_causes (d : Device) (i : Fin 4) (b : Buffer) : (d.setBuffer i b).causes = d.causes := rfl
@[simp] theorem Device.setBuffer_mountOutcome (d : Device) (i : Fin 4) (b : Buffer) : (d.setBuffer i b).mountOutcome = d.mountOutcome := rfl
@[simp] theorem Device.setBuffer_banksHanded (d : Device) (i : Fin 4) (b : Buffer) : (d.setBuffer i b).banksHanded = d.banksHanded := rfl
@[simp] theorem Device.setBuffer_group (d : Device) (i : Fin 4) (b : Buffer) : (d.setBuffer i b).group = d.group := rfl
@[simp] theorem Device.setBuffer_commits (d : Device) (i : Fin 4) (b : Buffer) : (d.setBuffer i b).commits = d.commits := rfl
@[simp] theorem Device.setBuffer_reclaim (d : Device) (i : Fin 4) (b : Buffer) : (d.setBuffer i b).reclaim = d.reclaim := rfl
@[simp] theorem Device.setBuffer_fc (d : Device) (i : Fin 4) (b : Buffer) : (d.setBuffer i b).fc = d.fc := rfl
@[simp] theorem Device.setBuffer_mount (d : Device) (i : Fin 4) (b : Buffer) : (d.setBuffer i b).mount = d.mount := rfl

/-! ## setJob -/
@[simp] theorem Device.setJob_queue (d : Device) (j : ReclaimJob) : (d.setJob j).queue = d.queue := rfl
@[simp] theorem Device.setJob_fifo (d : Device) (j : ReclaimJob) : (d.setJob j).fifo = d.fifo := rfl
@[simp] theorem Device.setJob_buffers (d : Device) (j : ReclaimJob) : (d.setJob j).buffers = d.buffers := rfl
@[simp] theorem Device.setJob_flags (d : Device) (j : ReclaimJob) : (d.setJob j).flags = d.flags := rfl
@[simp] theorem Device.setJob_ex (d : Device) (j : ReclaimJob) : (d.setJob j).ex = d.ex := rfl
@[simp] theorem Device.setJob_dir (d : Device) (j : ReclaimJob) : (d.setJob j).dir = d.dir := rfl
@[simp] theorem Device.setJob_level (d : Device) (j : ReclaimJob) : (d.setJob j).level = d.level := rfl
@[simp] theorem Device.setJob_banks (d : Device) (j : ReclaimJob) : (d.setJob j).banks = d.banks := rfl
@[simp] theorem Device.setJob_openMark (d : Device) (j : ReclaimJob) : (d.setJob j).openMark = d.openMark := rfl
@[simp] theorem Device.setJob_nextSeq (d : Device) (j : ReclaimJob) : (d.setJob j).nextSeq = d.nextSeq := rfl
@[simp] theorem Device.setJob_nextEpoch (d : Device) (j : ReclaimJob) : (d.setJob j).nextEpoch = d.nextEpoch := rfl
@[simp] theorem Device.setJob_store (d : Device) (j : ReclaimJob) : (d.setJob j).store = d.store := rfl
@[simp] theorem Device.setJob_generation (d : Device) (j : ReclaimJob) : (d.setJob j).generation = d.generation := rfl
@[simp] theorem Device.setJob_causes (d : Device) (j : ReclaimJob) : (d.setJob j).causes = d.causes := rfl
@[simp] theorem Device.setJob_mountOutcome (d : Device) (j : ReclaimJob) : (d.setJob j).mountOutcome = d.mountOutcome := rfl
@[simp] theorem Device.setJob_banksHanded (d : Device) (j : ReclaimJob) : (d.setJob j).banksHanded = d.banksHanded := rfl
@[simp] theorem Device.setJob_group (d : Device) (j : ReclaimJob) : (d.setJob j).group = d.group := rfl
@[simp] theorem Device.setJob_commits (d : Device) (j : ReclaimJob) : (d.setJob j).commits = d.commits := rfl
@[simp] theorem Device.setJob_fc (d : Device) (j : ReclaimJob) : (d.setJob j).fc = d.fc := rfl
@[simp] theorem Device.setJob_mount (d : Device) (j : ReclaimJob) : (d.setJob j).mount = d.mount := rfl

/-! ## setWriter -/
@[simp] theorem Device.setWriter_queue (d : Device) (w : Writer) : (d.setWriter w).queue = d.queue := rfl
@[simp] theorem Device.setWriter_fifo (d : Device) (w : Writer) : (d.setWriter w).fifo = d.fifo := rfl
@[simp] theorem Device.setWriter_buffers (d : Device) (w : Writer) : (d.setWriter w).buffers = d.buffers := rfl
@[simp] theorem Device.setWriter_flags (d : Device) (w : Writer) : (d.setWriter w).flags = d.flags := rfl
@[simp] theorem Device.setWriter_ex (d : Device) (w : Writer) : (d.setWriter w).ex = d.ex := rfl
@[simp] theorem Device.setWriter_dir (d : Device) (w : Writer) : (d.setWriter w).dir = d.dir := rfl
@[simp] theorem Device.setWriter_level (d : Device) (w : Writer) : (d.setWriter w).level = d.level := rfl
@[simp] theorem Device.setWriter_banks (d : Device) (w : Writer) : (d.setWriter w).banks = d.banks := rfl
@[simp] theorem Device.setWriter_openMark (d : Device) (w : Writer) : (d.setWriter w).openMark = d.openMark := rfl
@[simp] theorem Device.setWriter_nextSeq (d : Device) (w : Writer) : (d.setWriter w).nextSeq = d.nextSeq := rfl
@[simp] theorem Device.setWriter_nextEpoch (d : Device) (w : Writer) : (d.setWriter w).nextEpoch = d.nextEpoch := rfl
@[simp] theorem Device.setWriter_store (d : Device) (w : Writer) : (d.setWriter w).store = d.store := rfl
@[simp] theorem Device.setWriter_generation (d : Device) (w : Writer) : (d.setWriter w).generation = d.generation := rfl
@[simp] theorem Device.setWriter_causes (d : Device) (w : Writer) : (d.setWriter w).causes = d.causes := rfl
@[simp] theorem Device.setWriter_mountOutcome (d : Device) (w : Writer) : (d.setWriter w).mountOutcome = d.mountOutcome := rfl
@[simp] theorem Device.setWriter_banksHanded (d : Device) (w : Writer) : (d.setWriter w).banksHanded = d.banksHanded := rfl
@[simp] theorem Device.setWriter_group (d : Device) (w : Writer) : (d.setWriter w).group = d.group := rfl
@[simp] theorem Device.setWriter_commits (d : Device) (w : Writer) : (d.setWriter w).commits = d.commits := rfl
@[simp] theorem Device.setWriter_fc (d : Device) (w : Writer) : (d.setWriter w).fc = d.fc := rfl
@[simp] theorem Device.setWriter_mount (d : Device) (w : Writer) : (d.setWriter w).mount = d.mount := rfl

/-! ## mapReclaim -/
@[simp] theorem Device.mapReclaim_queue (d : Device) (f : Reclaim → Reclaim) : (d.mapReclaim f).queue = d.queue := rfl
@[simp] theorem Device.mapReclaim_fifo (d : Device) (f : Reclaim → Reclaim) : (d.mapReclaim f).fifo = d.fifo := rfl
@[simp] theorem Device.mapReclaim_buffers (d : Device) (f : Reclaim → Reclaim) : (d.mapReclaim f).buffers = d.buffers := rfl
@[simp] theorem Device.mapReclaim_flags (d : Device) (f : Reclaim → Reclaim) : (d.mapReclaim f).flags = d.flags := rfl
@[simp] theorem Device.mapReclaim_ex (d : Device) (f : Reclaim → Reclaim) : (d.mapReclaim f).ex = d.ex := rfl
@[simp] theorem Device.mapReclaim_dir (d : Device) (f : Reclaim → Reclaim) : (d.mapReclaim f).dir = d.dir := rfl
@[simp] theorem Device.mapReclaim_level (d : Device) (f : Reclaim → Reclaim) : (d.mapReclaim f).level = d.level := rfl
@[simp] theorem Device.mapReclaim_banks (d : Device) (f : Reclaim → Reclaim) : (d.mapReclaim f).banks = d.banks := rfl
@[simp] theorem Device.mapReclaim_openMark (d : Device) (f : Reclaim → Reclaim) : (d.mapReclaim f).openMark = d.openMark := rfl
@[simp] theorem Device.mapReclaim_nextSeq (d : Device) (f : Reclaim → Reclaim) : (d.mapReclaim f).nextSeq = d.nextSeq := rfl
@[simp] theorem Device.mapReclaim_nextEpoch (d : Device) (f : Reclaim → Reclaim) : (d.mapReclaim f).nextEpoch = d.nextEpoch := rfl
@[simp] theorem Device.mapReclaim_store (d : Device) (f : Reclaim → Reclaim) : (d.mapReclaim f).store = d.store := rfl
@[simp] theorem Device.mapReclaim_generation (d : Device) (f : Reclaim → Reclaim) : (d.mapReclaim f).generation = d.generation := rfl
@[simp] theorem Device.mapReclaim_causes (d : Device) (f : Reclaim → Reclaim) : (d.mapReclaim f).causes = d.causes := rfl
@[simp] theorem Device.mapReclaim_mountOutcome (d : Device) (f : Reclaim → Reclaim) : (d.mapReclaim f).mountOutcome = d.mountOutcome := rfl
@[simp] theorem Device.mapReclaim_banksHanded (d : Device) (f : Reclaim → Reclaim) : (d.mapReclaim f).banksHanded = d.banksHanded := rfl
@[simp] theorem Device.mapReclaim_group (d : Device) (f : Reclaim → Reclaim) : (d.mapReclaim f).group = d.group := rfl
@[simp] theorem Device.mapReclaim_commits (d : Device) (f : Reclaim → Reclaim) : (d.mapReclaim f).commits = d.commits := rfl
@[simp] theorem Device.mapReclaim_fc (d : Device) (f : Reclaim → Reclaim) : (d.mapReclaim f).fc = d.fc := rfl
@[simp] theorem Device.mapReclaim_mount (d : Device) (f : Reclaim → Reclaim) : (d.mapReclaim f).mount = d.mount := rfl

/-! ## mapVictim -/
@[simp] theorem Device.mapVictim_queue (d : Device) (f : Victim → Victim) : (d.mapVictim f).queue = d.queue := rfl
@[simp] theorem Device.mapVictim_fifo (d : Device) (f : Victim → Victim) : (d.mapVictim f).fifo = d.fifo := rfl
@[simp] theorem Device.mapVictim_buffers (d : Device) (f : Victim → Victim) : (d.mapVictim f).buffers = d.buffers := rfl
@[simp] theorem Device.mapVictim_flags (d : Device) (f : Victim → Victim) : (d.mapVictim f).flags = d.flags := rfl
@[simp] theorem Device.mapVictim_ex (d : Device) (f : Victim → Victim) : (d.mapVictim f).ex = d.ex := rfl
@[simp] theorem Device.mapVictim_dir (d : Device) (f : Victim → Victim) : (d.mapVictim f).dir = d.dir := rfl
@[simp] theorem Device.mapVictim_level (d : Device) (f : Victim → Victim) : (d.mapVictim f).level = d.level := rfl
@[simp] theorem Device.mapVictim_banks (d : Device) (f : Victim → Victim) : (d.mapVictim f).banks = d.banks := rfl
@[simp] theorem Device.mapVictim_openMark (d : Device) (f : Victim → Victim) : (d.mapVictim f).openMark = d.openMark := rfl
@[simp] theorem Device.mapVictim_nextSeq (d : Device) (f : Victim → Victim) : (d.mapVictim f).nextSeq = d.nextSeq := rfl
@[simp] theorem Device.mapVictim_nextEpoch (d : Device) (f : Victim → Victim) : (d.mapVictim f).nextEpoch = d.nextEpoch := rfl
@[simp] theorem Device.mapVictim_store (d : Device) (f : Victim → Victim) : (d.mapVictim f).store = d.store := rfl
@[simp] theorem Device.mapVictim_generation (d : Device) (f : Victim → Victim) : (d.mapVictim f).generation = d.generation := rfl
@[simp] theorem Device.mapVictim_causes (d : Device) (f : Victim → Victim) : (d.mapVictim f).causes = d.causes := rfl
@[simp] theorem Device.mapVictim_mountOutcome (d : Device) (f : Victim → Victim) : (d.mapVictim f).mountOutcome = d.mountOutcome := rfl
@[simp] theorem Device.mapVictim_banksHanded (d : Device) (f : Victim → Victim) : (d.mapVictim f).banksHanded = d.banksHanded := rfl
@[simp] theorem Device.mapVictim_group (d : Device) (f : Victim → Victim) : (d.mapVictim f).group = d.group := rfl
@[simp] theorem Device.mapVictim_commits (d : Device) (f : Victim → Victim) : (d.mapVictim f).commits = d.commits := rfl
@[simp] theorem Device.mapVictim_fc (d : Device) (f : Victim → Victim) : (d.mapVictim f).fc = d.fc := rfl
@[simp] theorem Device.mapVictim_mount (d : Device) (f : Victim → Victim) : (d.mapVictim f).mount = d.mount := rfl

/-! ## setStage -/
@[simp] theorem Device.setStage_queue (d : Device) (st : Stage) : (d.setStage st).queue = d.queue := rfl
@[simp] theorem Device.setStage_fifo (d : Device) (st : Stage) : (d.setStage st).fifo = d.fifo := rfl
@[simp] theorem Device.setStage_buffers (d : Device) (st : Stage) : (d.setStage st).buffers = d.buffers := rfl
@[simp] theorem Device.setStage_flags (d : Device) (st : Stage) : (d.setStage st).flags = d.flags := rfl
@[simp] theorem Device.setStage_dir (d : Device) (st : Stage) : (d.setStage st).dir = d.dir := rfl
@[simp] theorem Device.setStage_level (d : Device) (st : Stage) : (d.setStage st).level = d.level := rfl
@[simp] theorem Device.setStage_banks (d : Device) (st : Stage) : (d.setStage st).banks = d.banks := rfl
@[simp] theorem Device.setStage_openMark (d : Device) (st : Stage) : (d.setStage st).openMark = d.openMark := rfl
@[simp] theorem Device.setStage_nextSeq (d : Device) (st : Stage) : (d.setStage st).nextSeq = d.nextSeq := rfl
@[simp] theorem Device.setStage_nextEpoch (d : Device) (st : Stage) : (d.setStage st).nextEpoch = d.nextEpoch := rfl
@[simp] theorem Device.setStage_store (d : Device) (st : Stage) : (d.setStage st).store = d.store := rfl
@[simp] theorem Device.setStage_generation (d : Device) (st : Stage) : (d.setStage st).generation = d.generation := rfl
@[simp] theorem Device.setStage_causes (d : Device) (st : Stage) : (d.setStage st).causes = d.causes := rfl
@[simp] theorem Device.setStage_mountOutcome (d : Device) (st : Stage) : (d.setStage st).mountOutcome = d.mountOutcome := rfl
@[simp] theorem Device.setStage_banksHanded (d : Device) (st : Stage) : (d.setStage st).banksHanded = d.banksHanded := rfl
@[simp] theorem Device.setStage_group (d : Device) (st : Stage) : (d.setStage st).group = d.group := rfl
@[simp] theorem Device.setStage_commits (d : Device) (st : Stage) : (d.setStage st).commits = d.commits := rfl
@[simp] theorem Device.setStage_reclaim (d : Device) (st : Stage) : (d.setStage st).reclaim = d.reclaim := rfl
@[simp] theorem Device.setStage_fc (d : Device) (st : Stage) : (d.setStage st).fc = d.fc := rfl
@[simp] theorem Device.setStage_mount (d : Device) (st : Stage) : (d.setStage st).mount = d.mount := rfl

/-! ## mapFormat -/
@[simp] theorem Device.mapFormat_queue (d : Device) (f : FormatProgress → FormatProgress) : (d.mapFormat f).queue = d.queue := rfl
@[simp] theorem Device.mapFormat_fifo (d : Device) (f : FormatProgress → FormatProgress) : (d.mapFormat f).fifo = d.fifo := rfl
@[simp] theorem Device.mapFormat_buffers (d : Device) (f : FormatProgress → FormatProgress) : (d.mapFormat f).buffers = d.buffers := rfl
@[simp] theorem Device.mapFormat_flags (d : Device) (f : FormatProgress → FormatProgress) : (d.mapFormat f).flags = d.flags := rfl
@[simp] theorem Device.mapFormat_dir (d : Device) (f : FormatProgress → FormatProgress) : (d.mapFormat f).dir = d.dir := rfl
@[simp] theorem Device.mapFormat_level (d : Device) (f : FormatProgress → FormatProgress) : (d.mapFormat f).level = d.level := rfl
@[simp] theorem Device.mapFormat_banks (d : Device) (f : FormatProgress → FormatProgress) : (d.mapFormat f).banks = d.banks := rfl
@[simp] theorem Device.mapFormat_openMark (d : Device) (f : FormatProgress → FormatProgress) : (d.mapFormat f).openMark = d.openMark := rfl
@[simp] theorem Device.mapFormat_nextSeq (d : Device) (f : FormatProgress → FormatProgress) : (d.mapFormat f).nextSeq = d.nextSeq := rfl
@[simp] theorem Device.mapFormat_nextEpoch (d : Device) (f : FormatProgress → FormatProgress) : (d.mapFormat f).nextEpoch = d.nextEpoch := rfl
@[simp] theorem Device.mapFormat_store (d : Device) (f : FormatProgress → FormatProgress) : (d.mapFormat f).store = d.store := rfl
@[simp] theorem Device.mapFormat_generation (d : Device) (f : FormatProgress → FormatProgress) : (d.mapFormat f).generation = d.generation := rfl
@[simp] theorem Device.mapFormat_causes (d : Device) (f : FormatProgress → FormatProgress) : (d.mapFormat f).causes = d.causes := rfl
@[simp] theorem Device.mapFormat_mountOutcome (d : Device) (f : FormatProgress → FormatProgress) : (d.mapFormat f).mountOutcome = d.mountOutcome := rfl
@[simp] theorem Device.mapFormat_banksHanded (d : Device) (f : FormatProgress → FormatProgress) : (d.mapFormat f).banksHanded = d.banksHanded := rfl
@[simp] theorem Device.mapFormat_group (d : Device) (f : FormatProgress → FormatProgress) : (d.mapFormat f).group = d.group := rfl
@[simp] theorem Device.mapFormat_commits (d : Device) (f : FormatProgress → FormatProgress) : (d.mapFormat f).commits = d.commits := rfl
@[simp] theorem Device.mapFormat_reclaim (d : Device) (f : FormatProgress → FormatProgress) : (d.mapFormat f).reclaim = d.reclaim := rfl
@[simp] theorem Device.mapFormat_fc (d : Device) (f : FormatProgress → FormatProgress) : (d.mapFormat f).fc = d.fc := rfl
@[simp] theorem Device.mapFormat_mount (d : Device) (f : FormatProgress → FormatProgress) : (d.mapFormat f).mount = d.mount := rfl

/-! ## mapGroup -/
@[simp] theorem Device.mapGroup_queue (d : Device) (f : GroupContext → GroupContext) : (d.mapGroup f).queue = d.queue := rfl
@[simp] theorem Device.mapGroup_fifo (d : Device) (f : GroupContext → GroupContext) : (d.mapGroup f).fifo = d.fifo := rfl
@[simp] theorem Device.mapGroup_buffers (d : Device) (f : GroupContext → GroupContext) : (d.mapGroup f).buffers = d.buffers := rfl
@[simp] theorem Device.mapGroup_flags (d : Device) (f : GroupContext → GroupContext) : (d.mapGroup f).flags = d.flags := rfl
@[simp] theorem Device.mapGroup_ex (d : Device) (f : GroupContext → GroupContext) : (d.mapGroup f).ex = d.ex := rfl
@[simp] theorem Device.mapGroup_dir (d : Device) (f : GroupContext → GroupContext) : (d.mapGroup f).dir = d.dir := rfl
@[simp] theorem Device.mapGroup_level (d : Device) (f : GroupContext → GroupContext) : (d.mapGroup f).level = d.level := rfl
@[simp] theorem Device.mapGroup_banks (d : Device) (f : GroupContext → GroupContext) : (d.mapGroup f).banks = d.banks := rfl
@[simp] theorem Device.mapGroup_openMark (d : Device) (f : GroupContext → GroupContext) : (d.mapGroup f).openMark = d.openMark := rfl
@[simp] theorem Device.mapGroup_nextSeq (d : Device) (f : GroupContext → GroupContext) : (d.mapGroup f).nextSeq = d.nextSeq := rfl
@[simp] theorem Device.mapGroup_nextEpoch (d : Device) (f : GroupContext → GroupContext) : (d.mapGroup f).nextEpoch = d.nextEpoch := rfl
@[simp] theorem Device.mapGroup_store (d : Device) (f : GroupContext → GroupContext) : (d.mapGroup f).store = d.store := rfl
@[simp] theorem Device.mapGroup_generation (d : Device) (f : GroupContext → GroupContext) : (d.mapGroup f).generation = d.generation := rfl
@[simp] theorem Device.mapGroup_causes (d : Device) (f : GroupContext → GroupContext) : (d.mapGroup f).causes = d.causes := rfl
@[simp] theorem Device.mapGroup_mountOutcome (d : Device) (f : GroupContext → GroupContext) : (d.mapGroup f).mountOutcome = d.mountOutcome := rfl
@[simp] theorem Device.mapGroup_banksHanded (d : Device) (f : GroupContext → GroupContext) : (d.mapGroup f).banksHanded = d.banksHanded := rfl
@[simp] theorem Device.mapGroup_commits (d : Device) (f : GroupContext → GroupContext) : (d.mapGroup f).commits = d.commits := rfl
@[simp] theorem Device.mapGroup_reclaim (d : Device) (f : GroupContext → GroupContext) : (d.mapGroup f).reclaim = d.reclaim := rfl
@[simp] theorem Device.mapGroup_fc (d : Device) (f : GroupContext → GroupContext) : (d.mapGroup f).fc = d.fc := rfl
@[simp] theorem Device.mapGroup_mount (d : Device) (f : GroupContext → GroupContext) : (d.mapGroup f).mount = d.mount := rfl

/-! ## mapCommit -/
@[simp] theorem Device.mapCommit_queue (d : Device) (gid : Nat) (f : CommitEntry → CommitEntry) : (d.mapCommit gid f).queue = d.queue := rfl
@[simp] theorem Device.mapCommit_fifo (d : Device) (gid : Nat) (f : CommitEntry → CommitEntry) : (d.mapCommit gid f).fifo = d.fifo := rfl
@[simp] theorem Device.mapCommit_buffers (d : Device) (gid : Nat) (f : CommitEntry → CommitEntry) : (d.mapCommit gid f).buffers = d.buffers := rfl
@[simp] theorem Device.mapCommit_flags (d : Device) (gid : Nat) (f : CommitEntry → CommitEntry) : (d.mapCommit gid f).flags = d.flags := rfl
@[simp] theorem Device.mapCommit_ex (d : Device) (gid : Nat) (f : CommitEntry → CommitEntry) : (d.mapCommit gid f).ex = d.ex := rfl
@[simp] theorem Device.mapCommit_dir (d : Device) (gid : Nat) (f : CommitEntry → CommitEntry) : (d.mapCommit gid f).dir = d.dir := rfl
@[simp] theorem Device.mapCommit_level (d : Device) (gid : Nat) (f : CommitEntry → CommitEntry) : (d.mapCommit gid f).level = d.level := rfl
@[simp] theorem Device.mapCommit_banks (d : Device) (gid : Nat) (f : CommitEntry → CommitEntry) : (d.mapCommit gid f).banks = d.banks := rfl
@[simp] theorem Device.mapCommit_openMark (d : Device) (gid : Nat) (f : CommitEntry → CommitEntry) : (d.mapCommit gid f).openMark = d.openMark := rfl
@[simp] theorem Device.mapCommit_nextSeq (d : Device) (gid : Nat) (f : CommitEntry → CommitEntry) : (d.mapCommit gid f).nextSeq = d.nextSeq := rfl
@[simp] theorem Device.mapCommit_nextEpoch (d : Device) (gid : Nat) (f : CommitEntry → CommitEntry) : (d.mapCommit gid f).nextEpoch = d.nextEpoch := rfl
@[simp] theorem Device.mapCommit_store (d : Device) (gid : Nat) (f : CommitEntry → CommitEntry) : (d.mapCommit gid f).store = d.store := rfl
@[simp] theorem Device.mapCommit_generation (d : Device) (gid : Nat) (f : CommitEntry → CommitEntry) : (d.mapCommit gid f).generation = d.generation := rfl
@[simp] theorem Device.mapCommit_causes (d : Device) (gid : Nat) (f : CommitEntry → CommitEntry) : (d.mapCommit gid f).causes = d.causes := rfl
@[simp] theorem Device.mapCommit_mountOutcome (d : Device) (gid : Nat) (f : CommitEntry → CommitEntry) : (d.mapCommit gid f).mountOutcome = d.mountOutcome := rfl
@[simp] theorem Device.mapCommit_banksHanded (d : Device) (gid : Nat) (f : CommitEntry → CommitEntry) : (d.mapCommit gid f).banksHanded = d.banksHanded := rfl
@[simp] theorem Device.mapCommit_group (d : Device) (gid : Nat) (f : CommitEntry → CommitEntry) : (d.mapCommit gid f).group = d.group := rfl
@[simp] theorem Device.mapCommit_reclaim (d : Device) (gid : Nat) (f : CommitEntry → CommitEntry) : (d.mapCommit gid f).reclaim = d.reclaim := rfl
@[simp] theorem Device.mapCommit_fc (d : Device) (gid : Nat) (f : CommitEntry → CommitEntry) : (d.mapCommit gid f).fc = d.fc := rfl
@[simp] theorem Device.mapCommit_mount (d : Device) (gid : Nat) (f : CommitEntry → CommitEntry) : (d.mapCommit gid f).mount = d.mount := rfl

/-! ## putEntry -/
@[simp] theorem Device.putEntry_queue (d : Device) (e : DirEntry) : (d.putEntry e).queue = d.queue := rfl
@[simp] theorem Device.putEntry_fifo (d : Device) (e : DirEntry) : (d.putEntry e).fifo = d.fifo := rfl
@[simp] theorem Device.putEntry_buffers (d : Device) (e : DirEntry) : (d.putEntry e).buffers = d.buffers := rfl
@[simp] theorem Device.putEntry_flags (d : Device) (e : DirEntry) : (d.putEntry e).flags = d.flags := rfl
@[simp] theorem Device.putEntry_ex (d : Device) (e : DirEntry) : (d.putEntry e).ex = d.ex := rfl
@[simp] theorem Device.putEntry_level (d : Device) (e : DirEntry) : (d.putEntry e).level = d.level := rfl
@[simp] theorem Device.putEntry_banks (d : Device) (e : DirEntry) : (d.putEntry e).banks = d.banks := rfl
@[simp] theorem Device.putEntry_openMark (d : Device) (e : DirEntry) : (d.putEntry e).openMark = d.openMark := rfl
@[simp] theorem Device.putEntry_nextSeq (d : Device) (e : DirEntry) : (d.putEntry e).nextSeq = d.nextSeq := rfl
@[simp] theorem Device.putEntry_nextEpoch (d : Device) (e : DirEntry) : (d.putEntry e).nextEpoch = d.nextEpoch := rfl
@[simp] theorem Device.putEntry_store (d : Device) (e : DirEntry) : (d.putEntry e).store = d.store := rfl
@[simp] theorem Device.putEntry_generation (d : Device) (e : DirEntry) : (d.putEntry e).generation = d.generation := rfl
@[simp] theorem Device.putEntry_causes (d : Device) (e : DirEntry) : (d.putEntry e).causes = d.causes := rfl
@[simp] theorem Device.putEntry_mountOutcome (d : Device) (e : DirEntry) : (d.putEntry e).mountOutcome = d.mountOutcome := rfl
@[simp] theorem Device.putEntry_banksHanded (d : Device) (e : DirEntry) : (d.putEntry e).banksHanded = d.banksHanded := rfl
@[simp] theorem Device.putEntry_group (d : Device) (e : DirEntry) : (d.putEntry e).group = d.group := rfl
@[simp] theorem Device.putEntry_commits (d : Device) (e : DirEntry) : (d.putEntry e).commits = d.commits := rfl
@[simp] theorem Device.putEntry_reclaim (d : Device) (e : DirEntry) : (d.putEntry e).reclaim = d.reclaim := rfl
@[simp] theorem Device.putEntry_fc (d : Device) (e : DirEntry) : (d.putEntry e).fc = d.fc := rfl
@[simp] theorem Device.putEntry_mount (d : Device) (e : DirEntry) : (d.putEntry e).mount = d.mount := rfl

/-! ## removeEntry -/
@[simp] theorem Device.removeEntry_queue (d : Device) (k : Key) : (d.removeEntry k).queue = d.queue := rfl
@[simp] theorem Device.removeEntry_fifo (d : Device) (k : Key) : (d.removeEntry k).fifo = d.fifo := rfl
@[simp] theorem Device.removeEntry_buffers (d : Device) (k : Key) : (d.removeEntry k).buffers = d.buffers := rfl
@[simp] theorem Device.removeEntry_flags (d : Device) (k : Key) : (d.removeEntry k).flags = d.flags := rfl
@[simp] theorem Device.removeEntry_ex (d : Device) (k : Key) : (d.removeEntry k).ex = d.ex := rfl
@[simp] theorem Device.removeEntry_level (d : Device) (k : Key) : (d.removeEntry k).level = d.level := rfl
@[simp] theorem Device.removeEntry_banks (d : Device) (k : Key) : (d.removeEntry k).banks = d.banks := rfl
@[simp] theorem Device.removeEntry_openMark (d : Device) (k : Key) : (d.removeEntry k).openMark = d.openMark := rfl
@[simp] theorem Device.removeEntry_nextSeq (d : Device) (k : Key) : (d.removeEntry k).nextSeq = d.nextSeq := rfl
@[simp] theorem Device.removeEntry_nextEpoch (d : Device) (k : Key) : (d.removeEntry k).nextEpoch = d.nextEpoch := rfl
@[simp] theorem Device.removeEntry_store (d : Device) (k : Key) : (d.removeEntry k).store = d.store := rfl
@[simp] theorem Device.removeEntry_generation (d : Device) (k : Key) : (d.removeEntry k).generation = d.generation := rfl
@[simp] theorem Device.removeEntry_causes (d : Device) (k : Key) : (d.removeEntry k).causes = d.causes := rfl
@[simp] theorem Device.removeEntry_mountOutcome (d : Device) (k : Key) : (d.removeEntry k).mountOutcome = d.mountOutcome := rfl
@[simp] theorem Device.removeEntry_banksHanded (d : Device) (k : Key) : (d.removeEntry k).banksHanded = d.banksHanded := rfl
@[simp] theorem Device.removeEntry_group (d : Device) (k : Key) : (d.removeEntry k).group = d.group := rfl
@[simp] theorem Device.removeEntry_commits (d : Device) (k : Key) : (d.removeEntry k).commits = d.commits := rfl
@[simp] theorem Device.removeEntry_reclaim (d : Device) (k : Key) : (d.removeEntry k).reclaim = d.reclaim := rfl
@[simp] theorem Device.removeEntry_fc (d : Device) (k : Key) : (d.removeEntry k).fc = d.fc := rfl
@[simp] theorem Device.removeEntry_mount (d : Device) (k : Key) : (d.removeEntry k).mount = d.mount := rfl

/-! ## addDead -/
@[simp] theorem Device.addDead_queue (d : Device) (b : BankId) (n : Nat) : (d.addDead b n).queue = d.queue := rfl
@[simp] theorem Device.addDead_fifo (d : Device) (b : BankId) (n : Nat) : (d.addDead b n).fifo = d.fifo := rfl
@[simp] theorem Device.addDead_buffers (d : Device) (b : BankId) (n : Nat) : (d.addDead b n).buffers = d.buffers := rfl
@[simp] theorem Device.addDead_flags (d : Device) (b : BankId) (n : Nat) : (d.addDead b n).flags = d.flags := rfl
@[simp] theorem Device.addDead_ex (d : Device) (b : BankId) (n : Nat) : (d.addDead b n).ex = d.ex := rfl
@[simp] theorem Device.addDead_dir (d : Device) (b : BankId) (n : Nat) : (d.addDead b n).dir = d.dir := rfl
@[simp] theorem Device.addDead_level (d : Device) (b : BankId) (n : Nat) : (d.addDead b n).level = d.level := rfl
@[simp] theorem Device.addDead_openMark (d : Device) (b : BankId) (n : Nat) : (d.addDead b n).openMark = d.openMark := rfl
@[simp] theorem Device.addDead_nextSeq (d : Device) (b : BankId) (n : Nat) : (d.addDead b n).nextSeq = d.nextSeq := rfl
@[simp] theorem Device.addDead_nextEpoch (d : Device) (b : BankId) (n : Nat) : (d.addDead b n).nextEpoch = d.nextEpoch := rfl
@[simp] theorem Device.addDead_store (d : Device) (b : BankId) (n : Nat) : (d.addDead b n).store = d.store := rfl
@[simp] theorem Device.addDead_generation (d : Device) (b : BankId) (n : Nat) : (d.addDead b n).generation = d.generation := rfl
@[simp] theorem Device.addDead_causes (d : Device) (b : BankId) (n : Nat) : (d.addDead b n).causes = d.causes := rfl
@[simp] theorem Device.addDead_mountOutcome (d : Device) (b : BankId) (n : Nat) : (d.addDead b n).mountOutcome = d.mountOutcome := rfl
@[simp] theorem Device.addDead_banksHanded (d : Device) (b : BankId) (n : Nat) : (d.addDead b n).banksHanded = d.banksHanded := rfl
@[simp] theorem Device.addDead_group (d : Device) (b : BankId) (n : Nat) : (d.addDead b n).group = d.group := rfl
@[simp] theorem Device.addDead_commits (d : Device) (b : BankId) (n : Nat) : (d.addDead b n).commits = d.commits := rfl
@[simp] theorem Device.addDead_reclaim (d : Device) (b : BankId) (n : Nat) : (d.addDead b n).reclaim = d.reclaim := rfl
@[simp] theorem Device.addDead_fc (d : Device) (b : BankId) (n : Nat) : (d.addDead b n).fc = d.fc := rfl
@[simp] theorem Device.addDead_mount (d : Device) (b : BankId) (n : Nat) : (d.addDead b n).mount = d.mount := rfl

/-! ## addTagged -/
@[simp] theorem Device.addTagged_queue (d : Device) (b : BankId) (n : Nat) : (d.addTagged b n).queue = d.queue := rfl
@[simp] theorem Device.addTagged_fifo (d : Device) (b : BankId) (n : Nat) : (d.addTagged b n).fifo = d.fifo := rfl
@[simp] theorem Device.addTagged_buffers (d : Device) (b : BankId) (n : Nat) : (d.addTagged b n).buffers = d.buffers := rfl
@[simp] theorem Device.addTagged_flags (d : Device) (b : BankId) (n : Nat) : (d.addTagged b n).flags = d.flags := rfl
@[simp] theorem Device.addTagged_ex (d : Device) (b : BankId) (n : Nat) : (d.addTagged b n).ex = d.ex := rfl
@[simp] theorem Device.addTagged_dir (d : Device) (b : BankId) (n : Nat) : (d.addTagged b n).dir = d.dir := rfl
@[simp] theorem Device.addTagged_level (d : Device) (b : BankId) (n : Nat) : (d.addTagged b n).level = d.level := rfl
@[simp] theorem Device.addTagged_openMark (d : Device) (b : BankId) (n : Nat) : (d.addTagged b n).openMark = d.openMark := rfl
@[simp] theorem Device.addTagged_nextSeq (d : Device) (b : BankId) (n : Nat) : (d.addTagged b n).nextSeq = d.nextSeq := rfl
@[simp] theorem Device.addTagged_nextEpoch (d : Device) (b : BankId) (n : Nat) : (d.addTagged b n).nextEpoch = d.nextEpoch := rfl
@[simp] theorem Device.addTagged_store (d : Device) (b : BankId) (n : Nat) : (d.addTagged b n).store = d.store := rfl
@[simp] theorem Device.addTagged_generation (d : Device) (b : BankId) (n : Nat) : (d.addTagged b n).generation = d.generation := rfl
@[simp] theorem Device.addTagged_causes (d : Device) (b : BankId) (n : Nat) : (d.addTagged b n).causes = d.causes := rfl
@[simp] theorem Device.addTagged_mountOutcome (d : Device) (b : BankId) (n : Nat) : (d.addTagged b n).mountOutcome = d.mountOutcome := rfl
@[simp] theorem Device.addTagged_banksHanded (d : Device) (b : BankId) (n : Nat) : (d.addTagged b n).banksHanded = d.banksHanded := rfl
@[simp] theorem Device.addTagged_group (d : Device) (b : BankId) (n : Nat) : (d.addTagged b n).group = d.group := rfl
@[simp] theorem Device.addTagged_commits (d : Device) (b : BankId) (n : Nat) : (d.addTagged b n).commits = d.commits := rfl
@[simp] theorem Device.addTagged_reclaim (d : Device) (b : BankId) (n : Nat) : (d.addTagged b n).reclaim = d.reclaim := rfl
@[simp] theorem Device.addTagged_fc (d : Device) (b : BankId) (n : Nat) : (d.addTagged b n).fc = d.fc := rfl
@[simp] theorem Device.addTagged_mount (d : Device) (b : BankId) (n : Nat) : (d.addTagged b n).mount = d.mount := rfl

/-! ## markSuspect -/
@[simp] theorem Device.markSuspect_queue (d : Device) (b : BankId) : (d.markSuspect b).queue = d.queue := rfl
@[simp] theorem Device.markSuspect_fifo (d : Device) (b : BankId) : (d.markSuspect b).fifo = d.fifo := rfl
@[simp] theorem Device.markSuspect_buffers (d : Device) (b : BankId) : (d.markSuspect b).buffers = d.buffers := rfl
@[simp] theorem Device.markSuspect_flags (d : Device) (b : BankId) : (d.markSuspect b).flags = d.flags := rfl
@[simp] theorem Device.markSuspect_ex (d : Device) (b : BankId) : (d.markSuspect b).ex = d.ex := rfl
@[simp] theorem Device.markSuspect_dir (d : Device) (b : BankId) : (d.markSuspect b).dir = d.dir := rfl
@[simp] theorem Device.markSuspect_level (d : Device) (b : BankId) : (d.markSuspect b).level = d.level := rfl
@[simp] theorem Device.markSuspect_openMark (d : Device) (b : BankId) : (d.markSuspect b).openMark = d.openMark := rfl
@[simp] theorem Device.markSuspect_nextSeq (d : Device) (b : BankId) : (d.markSuspect b).nextSeq = d.nextSeq := rfl
@[simp] theorem Device.markSuspect_nextEpoch (d : Device) (b : BankId) : (d.markSuspect b).nextEpoch = d.nextEpoch := rfl
@[simp] theorem Device.markSuspect_store (d : Device) (b : BankId) : (d.markSuspect b).store = d.store := rfl
@[simp] theorem Device.markSuspect_generation (d : Device) (b : BankId) : (d.markSuspect b).generation = d.generation := rfl
@[simp] theorem Device.markSuspect_causes (d : Device) (b : BankId) : (d.markSuspect b).causes = d.causes := rfl
@[simp] theorem Device.markSuspect_mountOutcome (d : Device) (b : BankId) : (d.markSuspect b).mountOutcome = d.mountOutcome := rfl
@[simp] theorem Device.markSuspect_banksHanded (d : Device) (b : BankId) : (d.markSuspect b).banksHanded = d.banksHanded := rfl
@[simp] theorem Device.markSuspect_group (d : Device) (b : BankId) : (d.markSuspect b).group = d.group := rfl
@[simp] theorem Device.markSuspect_commits (d : Device) (b : BankId) : (d.markSuspect b).commits = d.commits := rfl
@[simp] theorem Device.markSuspect_reclaim (d : Device) (b : BankId) : (d.markSuspect b).reclaim = d.reclaim := rfl
@[simp] theorem Device.markSuspect_fc (d : Device) (b : BankId) : (d.markSuspect b).fc = d.fc := rfl
@[simp] theorem Device.markSuspect_mount (d : Device) (b : BankId) : (d.markSuspect b).mount = d.mount := rfl

/-! ## makeFree -/
@[simp] theorem Device.makeFree_queue (d : Device) (b : BankId) (n : Nat) : (d.makeFree b n).queue = d.queue := rfl
@[simp] theorem Device.makeFree_fifo (d : Device) (b : BankId) (n : Nat) : (d.makeFree b n).fifo = d.fifo := rfl
@[simp] theorem Device.makeFree_buffers (d : Device) (b : BankId) (n : Nat) : (d.makeFree b n).buffers = d.buffers := rfl
@[simp] theorem Device.makeFree_flags (d : Device) (b : BankId) (n : Nat) : (d.makeFree b n).flags = d.flags := rfl
@[simp] theorem Device.makeFree_ex (d : Device) (b : BankId) (n : Nat) : (d.makeFree b n).ex = d.ex := rfl
@[simp] theorem Device.makeFree_dir (d : Device) (b : BankId) (n : Nat) : (d.makeFree b n).dir = d.dir := rfl
@[simp] theorem Device.makeFree_level (d : Device) (b : BankId) (n : Nat) : (d.makeFree b n).level = d.level := rfl
@[simp] theorem Device.makeFree_openMark (d : Device) (b : BankId) (n : Nat) : (d.makeFree b n).openMark = d.openMark := rfl
@[simp] theorem Device.makeFree_nextSeq (d : Device) (b : BankId) (n : Nat) : (d.makeFree b n).nextSeq = d.nextSeq := rfl
@[simp] theorem Device.makeFree_nextEpoch (d : Device) (b : BankId) (n : Nat) : (d.makeFree b n).nextEpoch = d.nextEpoch := rfl
@[simp] theorem Device.makeFree_store (d : Device) (b : BankId) (n : Nat) : (d.makeFree b n).store = d.store := rfl
@[simp] theorem Device.makeFree_generation (d : Device) (b : BankId) (n : Nat) : (d.makeFree b n).generation = d.generation := rfl
@[simp] theorem Device.makeFree_causes (d : Device) (b : BankId) (n : Nat) : (d.makeFree b n).causes = d.causes := rfl
@[simp] theorem Device.makeFree_mountOutcome (d : Device) (b : BankId) (n : Nat) : (d.makeFree b n).mountOutcome = d.mountOutcome := rfl
@[simp] theorem Device.makeFree_banksHanded (d : Device) (b : BankId) (n : Nat) : (d.makeFree b n).banksHanded = d.banksHanded := rfl
@[simp] theorem Device.makeFree_group (d : Device) (b : BankId) (n : Nat) : (d.makeFree b n).group = d.group := rfl
@[simp] theorem Device.makeFree_commits (d : Device) (b : BankId) (n : Nat) : (d.makeFree b n).commits = d.commits := rfl
@[simp] theorem Device.makeFree_reclaim (d : Device) (b : BankId) (n : Nat) : (d.makeFree b n).reclaim = d.reclaim := rfl
@[simp] theorem Device.makeFree_fc (d : Device) (b : BankId) (n : Nat) : (d.makeFree b n).fc = d.fc := rfl
@[simp] theorem Device.makeFree_mount (d : Device) (b : BankId) (n : Nat) : (d.makeFree b n).mount = d.mount := rfl

/-! ## emptyInto -/
@[simp] theorem Device.emptyInto_queue (d : Device) (b : BankId) (st : BankState) : (d.emptyInto b st).queue = d.queue := rfl
@[simp] theorem Device.emptyInto_fifo (d : Device) (b : BankId) (st : BankState) : (d.emptyInto b st).fifo = d.fifo := rfl
@[simp] theorem Device.emptyInto_buffers (d : Device) (b : BankId) (st : BankState) : (d.emptyInto b st).buffers = d.buffers := rfl
@[simp] theorem Device.emptyInto_flags (d : Device) (b : BankId) (st : BankState) : (d.emptyInto b st).flags = d.flags := rfl
@[simp] theorem Device.emptyInto_ex (d : Device) (b : BankId) (st : BankState) : (d.emptyInto b st).ex = d.ex := rfl
@[simp] theorem Device.emptyInto_dir (d : Device) (b : BankId) (st : BankState) : (d.emptyInto b st).dir = d.dir := rfl
@[simp] theorem Device.emptyInto_level (d : Device) (b : BankId) (st : BankState) : (d.emptyInto b st).level = d.level := rfl
@[simp] theorem Device.emptyInto_openMark (d : Device) (b : BankId) (st : BankState) : (d.emptyInto b st).openMark = d.openMark := rfl
@[simp] theorem Device.emptyInto_nextSeq (d : Device) (b : BankId) (st : BankState) : (d.emptyInto b st).nextSeq = d.nextSeq := rfl
@[simp] theorem Device.emptyInto_nextEpoch (d : Device) (b : BankId) (st : BankState) : (d.emptyInto b st).nextEpoch = d.nextEpoch := rfl
@[simp] theorem Device.emptyInto_store (d : Device) (b : BankId) (st : BankState) : (d.emptyInto b st).store = d.store := rfl
@[simp] theorem Device.emptyInto_generation (d : Device) (b : BankId) (st : BankState) : (d.emptyInto b st).generation = d.generation := rfl
@[simp] theorem Device.emptyInto_causes (d : Device) (b : BankId) (st : BankState) : (d.emptyInto b st).causes = d.causes := rfl
@[simp] theorem Device.emptyInto_mountOutcome (d : Device) (b : BankId) (st : BankState) : (d.emptyInto b st).mountOutcome = d.mountOutcome := rfl
@[simp] theorem Device.emptyInto_banksHanded (d : Device) (b : BankId) (st : BankState) : (d.emptyInto b st).banksHanded = d.banksHanded := rfl
@[simp] theorem Device.emptyInto_group (d : Device) (b : BankId) (st : BankState) : (d.emptyInto b st).group = d.group := rfl
@[simp] theorem Device.emptyInto_commits (d : Device) (b : BankId) (st : BankState) : (d.emptyInto b st).commits = d.commits := rfl
@[simp] theorem Device.emptyInto_reclaim (d : Device) (b : BankId) (st : BankState) : (d.emptyInto b st).reclaim = d.reclaim := rfl
@[simp] theorem Device.emptyInto_fc (d : Device) (b : BankId) (st : BankState) : (d.emptyInto b st).fc = d.fc := rfl
@[simp] theorem Device.emptyInto_mount (d : Device) (b : BankId) (st : BankState) : (d.emptyInto b st).mount = d.mount := rfl

/-! ## reserveLines -/
@[simp] theorem Device.reserveLines_queue (d : Device) (b : BankId) (n : Nat) : (d.reserveLines b n).queue = d.queue := rfl
@[simp] theorem Device.reserveLines_fifo (d : Device) (b : BankId) (n : Nat) : (d.reserveLines b n).fifo = d.fifo := rfl
@[simp] theorem Device.reserveLines_buffers (d : Device) (b : BankId) (n : Nat) : (d.reserveLines b n).buffers = d.buffers := rfl
@[simp] theorem Device.reserveLines_flags (d : Device) (b : BankId) (n : Nat) : (d.reserveLines b n).flags = d.flags := rfl
@[simp] theorem Device.reserveLines_ex (d : Device) (b : BankId) (n : Nat) : (d.reserveLines b n).ex = d.ex := rfl
@[simp] theorem Device.reserveLines_dir (d : Device) (b : BankId) (n : Nat) : (d.reserveLines b n).dir = d.dir := rfl
@[simp] theorem Device.reserveLines_level (d : Device) (b : BankId) (n : Nat) : (d.reserveLines b n).level = d.level := rfl
@[simp] theorem Device.reserveLines_openMark (d : Device) (b : BankId) (n : Nat) : (d.reserveLines b n).openMark = d.openMark := rfl
@[simp] theorem Device.reserveLines_nextSeq (d : Device) (b : BankId) (n : Nat) : (d.reserveLines b n).nextSeq = d.nextSeq := rfl
@[simp] theorem Device.reserveLines_nextEpoch (d : Device) (b : BankId) (n : Nat) : (d.reserveLines b n).nextEpoch = d.nextEpoch := rfl
@[simp] theorem Device.reserveLines_store (d : Device) (b : BankId) (n : Nat) : (d.reserveLines b n).store = d.store := rfl
@[simp] theorem Device.reserveLines_generation (d : Device) (b : BankId) (n : Nat) : (d.reserveLines b n).generation = d.generation := rfl
@[simp] theorem Device.reserveLines_causes (d : Device) (b : BankId) (n : Nat) : (d.reserveLines b n).causes = d.causes := rfl
@[simp] theorem Device.reserveLines_mountOutcome (d : Device) (b : BankId) (n : Nat) : (d.reserveLines b n).mountOutcome = d.mountOutcome := rfl
@[simp] theorem Device.reserveLines_banksHanded (d : Device) (b : BankId) (n : Nat) : (d.reserveLines b n).banksHanded = d.banksHanded := rfl
@[simp] theorem Device.reserveLines_group (d : Device) (b : BankId) (n : Nat) : (d.reserveLines b n).group = d.group := rfl
@[simp] theorem Device.reserveLines_commits (d : Device) (b : BankId) (n : Nat) : (d.reserveLines b n).commits = d.commits := rfl
@[simp] theorem Device.reserveLines_reclaim (d : Device) (b : BankId) (n : Nat) : (d.reserveLines b n).reclaim = d.reclaim := rfl
@[simp] theorem Device.reserveLines_fc (d : Device) (b : BankId) (n : Nat) : (d.reserveLines b n).fc = d.fc := rfl
@[simp] theorem Device.reserveLines_mount (d : Device) (b : BankId) (n : Nat) : (d.reserveLines b n).mount = d.mount := rfl

/-! ## abandonSpan -/
@[simp] theorem Device.abandonSpan_queue (d : Device) (w : Writer) (r : Reservation) : (d.abandonSpan w r).queue = d.queue := rfl
@[simp] theorem Device.abandonSpan_fifo (d : Device) (w : Writer) (r : Reservation) : (d.abandonSpan w r).fifo = d.fifo := rfl
@[simp] theorem Device.abandonSpan_buffers (d : Device) (w : Writer) (r : Reservation) : (d.abandonSpan w r).buffers = d.buffers := rfl
@[simp] theorem Device.abandonSpan_flags (d : Device) (w : Writer) (r : Reservation) : (d.abandonSpan w r).flags = d.flags := rfl
@[simp] theorem Device.abandonSpan_ex (d : Device) (w : Writer) (r : Reservation) : (d.abandonSpan w r).ex = d.ex := rfl
@[simp] theorem Device.abandonSpan_dir (d : Device) (w : Writer) (r : Reservation) : (d.abandonSpan w r).dir = d.dir := rfl
@[simp] theorem Device.abandonSpan_level (d : Device) (w : Writer) (r : Reservation) : (d.abandonSpan w r).level = d.level := rfl
@[simp] theorem Device.abandonSpan_openMark (d : Device) (w : Writer) (r : Reservation) : (d.abandonSpan w r).openMark = d.openMark := rfl
@[simp] theorem Device.abandonSpan_nextSeq (d : Device) (w : Writer) (r : Reservation) : (d.abandonSpan w r).nextSeq = d.nextSeq := rfl
@[simp] theorem Device.abandonSpan_nextEpoch (d : Device) (w : Writer) (r : Reservation) : (d.abandonSpan w r).nextEpoch = d.nextEpoch := rfl
@[simp] theorem Device.abandonSpan_store (d : Device) (w : Writer) (r : Reservation) : (d.abandonSpan w r).store = d.store := rfl
@[simp] theorem Device.abandonSpan_generation (d : Device) (w : Writer) (r : Reservation) : (d.abandonSpan w r).generation = d.generation := rfl
@[simp] theorem Device.abandonSpan_causes (d : Device) (w : Writer) (r : Reservation) : (d.abandonSpan w r).causes = d.causes := rfl
@[simp] theorem Device.abandonSpan_mountOutcome (d : Device) (w : Writer) (r : Reservation) : (d.abandonSpan w r).mountOutcome = d.mountOutcome := rfl
@[simp] theorem Device.abandonSpan_banksHanded (d : Device) (w : Writer) (r : Reservation) : (d.abandonSpan w r).banksHanded = d.banksHanded := rfl
@[simp] theorem Device.abandonSpan_group (d : Device) (w : Writer) (r : Reservation) : (d.abandonSpan w r).group = d.group := rfl
@[simp] theorem Device.abandonSpan_commits (d : Device) (w : Writer) (r : Reservation) : (d.abandonSpan w r).commits = d.commits := rfl
@[simp] theorem Device.abandonSpan_reclaim (d : Device) (w : Writer) (r : Reservation) : (d.abandonSpan w r).reclaim = d.reclaim := rfl
@[simp] theorem Device.abandonSpan_fc (d : Device) (w : Writer) (r : Reservation) : (d.abandonSpan w r).fc = d.fc := rfl
@[simp] theorem Device.abandonSpan_mount (d : Device) (w : Writer) (r : Reservation) : (d.abandonSpan w r).mount = d.mount := rfl

/-! ## placeCompletion -/
@[simp] theorem Device.placeCompletion_queue (d : Device) (tag : Byte) (st : Status) (n : Nat) : (d.placeCompletion tag st n).queue = d.queue := rfl
@[simp] theorem Device.placeCompletion_buffers (d : Device) (tag : Byte) (st : Status) (n : Nat) : (d.placeCompletion tag st n).buffers = d.buffers := rfl
@[simp] theorem Device.placeCompletion_flags (d : Device) (tag : Byte) (st : Status) (n : Nat) : (d.placeCompletion tag st n).flags = d.flags := rfl
@[simp] theorem Device.placeCompletion_ex (d : Device) (tag : Byte) (st : Status) (n : Nat) : (d.placeCompletion tag st n).ex = d.ex := rfl
@[simp] theorem Device.placeCompletion_dir (d : Device) (tag : Byte) (st : Status) (n : Nat) : (d.placeCompletion tag st n).dir = d.dir := rfl
@[simp] theorem Device.placeCompletion_level (d : Device) (tag : Byte) (st : Status) (n : Nat) : (d.placeCompletion tag st n).level = d.level := rfl
@[simp] theorem Device.placeCompletion_banks (d : Device) (tag : Byte) (st : Status) (n : Nat) : (d.placeCompletion tag st n).banks = d.banks := rfl
@[simp] theorem Device.placeCompletion_openMark (d : Device) (tag : Byte) (st : Status) (n : Nat) : (d.placeCompletion tag st n).openMark = d.openMark := rfl
@[simp] theorem Device.placeCompletion_nextSeq (d : Device) (tag : Byte) (st : Status) (n : Nat) : (d.placeCompletion tag st n).nextSeq = d.nextSeq := rfl
@[simp] theorem Device.placeCompletion_nextEpoch (d : Device) (tag : Byte) (st : Status) (n : Nat) : (d.placeCompletion tag st n).nextEpoch = d.nextEpoch := rfl
@[simp] theorem Device.placeCompletion_store (d : Device) (tag : Byte) (st : Status) (n : Nat) : (d.placeCompletion tag st n).store = d.store := rfl
@[simp] theorem Device.placeCompletion_generation (d : Device) (tag : Byte) (st : Status) (n : Nat) : (d.placeCompletion tag st n).generation = d.generation := rfl
@[simp] theorem Device.placeCompletion_causes (d : Device) (tag : Byte) (st : Status) (n : Nat) : (d.placeCompletion tag st n).causes = d.causes := rfl
@[simp] theorem Device.placeCompletion_mountOutcome (d : Device) (tag : Byte) (st : Status) (n : Nat) : (d.placeCompletion tag st n).mountOutcome = d.mountOutcome := rfl
@[simp] theorem Device.placeCompletion_banksHanded (d : Device) (tag : Byte) (st : Status) (n : Nat) : (d.placeCompletion tag st n).banksHanded = d.banksHanded := rfl
@[simp] theorem Device.placeCompletion_group (d : Device) (tag : Byte) (st : Status) (n : Nat) : (d.placeCompletion tag st n).group = d.group := rfl
@[simp] theorem Device.placeCompletion_commits (d : Device) (tag : Byte) (st : Status) (n : Nat) : (d.placeCompletion tag st n).commits = d.commits := rfl
@[simp] theorem Device.placeCompletion_reclaim (d : Device) (tag : Byte) (st : Status) (n : Nat) : (d.placeCompletion tag st n).reclaim = d.reclaim := rfl
@[simp] theorem Device.placeCompletion_fc (d : Device) (tag : Byte) (st : Status) (n : Nat) : (d.placeCompletion tag st n).fc = d.fc := rfl
@[simp] theorem Device.placeCompletion_mount (d : Device) (tag : Byte) (st : Status) (n : Nat) : (d.placeCompletion tag st n).mount = d.mount := rfl

/-! ## advanceCursor -/
@[simp] theorem Device.advanceCursor_queue (d : Device) : (d.advanceCursor).queue = d.queue := rfl
@[simp] theorem Device.advanceCursor_fifo (d : Device) : (d.advanceCursor).fifo = d.fifo := rfl
@[simp] theorem Device.advanceCursor_buffers (d : Device) : (d.advanceCursor).buffers = d.buffers := rfl
@[simp] theorem Device.advanceCursor_flags (d : Device) : (d.advanceCursor).flags = d.flags := rfl
@[simp] theorem Device.advanceCursor_ex (d : Device) : (d.advanceCursor).ex = d.ex := rfl
@[simp] theorem Device.advanceCursor_dir (d : Device) : (d.advanceCursor).dir = d.dir := rfl
@[simp] theorem Device.advanceCursor_level (d : Device) : (d.advanceCursor).level = d.level := rfl
@[simp] theorem Device.advanceCursor_banks (d : Device) : (d.advanceCursor).banks = d.banks := rfl
@[simp] theorem Device.advanceCursor_openMark (d : Device) : (d.advanceCursor).openMark = d.openMark := rfl
@[simp] theorem Device.advanceCursor_nextSeq (d : Device) : (d.advanceCursor).nextSeq = d.nextSeq := rfl
@[simp] theorem Device.advanceCursor_nextEpoch (d : Device) : (d.advanceCursor).nextEpoch = d.nextEpoch := rfl
@[simp] theorem Device.advanceCursor_store (d : Device) : (d.advanceCursor).store = d.store := rfl
@[simp] theorem Device.advanceCursor_generation (d : Device) : (d.advanceCursor).generation = d.generation := rfl
@[simp] theorem Device.advanceCursor_causes (d : Device) : (d.advanceCursor).causes = d.causes := rfl
@[simp] theorem Device.advanceCursor_mountOutcome (d : Device) : (d.advanceCursor).mountOutcome = d.mountOutcome := rfl
@[simp] theorem Device.advanceCursor_banksHanded (d : Device) : (d.advanceCursor).banksHanded = d.banksHanded := rfl
@[simp] theorem Device.advanceCursor_group (d : Device) : (d.advanceCursor).group = d.group := rfl
@[simp] theorem Device.advanceCursor_commits (d : Device) : (d.advanceCursor).commits = d.commits := rfl
@[simp] theorem Device.advanceCursor_fc (d : Device) : (d.advanceCursor).fc = d.fc := rfl
@[simp] theorem Device.advanceCursor_mount (d : Device) : (d.advanceCursor).mount = d.mount := rfl

/-! ## opDone -/
@[simp] theorem Device.opDone_queue (d : Device) : (d.opDone).queue = d.queue := rfl
@[simp] theorem Device.opDone_fifo (d : Device) : (d.opDone).fifo = d.fifo := rfl
@[simp] theorem Device.opDone_buffers (d : Device) : (d.opDone).buffers = d.buffers := rfl
@[simp] theorem Device.opDone_flags (d : Device) : (d.opDone).flags = d.flags := rfl
@[simp] theorem Device.opDone_ex (d : Device) : (d.opDone).ex = d.ex := rfl
@[simp] theorem Device.opDone_dir (d : Device) : (d.opDone).dir = d.dir := rfl
@[simp] theorem Device.opDone_level (d : Device) : (d.opDone).level = d.level := rfl
@[simp] theorem Device.opDone_banks (d : Device) : (d.opDone).banks = d.banks := rfl
@[simp] theorem Device.opDone_openMark (d : Device) : (d.opDone).openMark = d.openMark := rfl
@[simp] theorem Device.opDone_nextSeq (d : Device) : (d.opDone).nextSeq = d.nextSeq := rfl
@[simp] theorem Device.opDone_nextEpoch (d : Device) : (d.opDone).nextEpoch = d.nextEpoch := rfl
@[simp] theorem Device.opDone_store (d : Device) : (d.opDone).store = d.store := rfl
@[simp] theorem Device.opDone_generation (d : Device) : (d.opDone).generation = d.generation := rfl
@[simp] theorem Device.opDone_causes (d : Device) : (d.opDone).causes = d.causes := rfl
@[simp] theorem Device.opDone_mountOutcome (d : Device) : (d.opDone).mountOutcome = d.mountOutcome := rfl
@[simp] theorem Device.opDone_banksHanded (d : Device) : (d.opDone).banksHanded = d.banksHanded := rfl
@[simp] theorem Device.opDone_group (d : Device) : (d.opDone).group = d.group := rfl
@[simp] theorem Device.opDone_commits (d : Device) : (d.opDone).commits = d.commits := rfl
@[simp] theorem Device.opDone_reclaim (d : Device) : (d.opDone).reclaim = d.reclaim := rfl
@[simp] theorem Device.opDone_mount (d : Device) : (d.opDone).mount = d.mount := rfl

/-! ## eraseOver -/
@[simp] theorem Device.eraseOver_queue (d : Device) : (d.eraseOver).queue = d.queue := rfl
@[simp] theorem Device.eraseOver_fifo (d : Device) : (d.eraseOver).fifo = d.fifo := rfl
@[simp] theorem Device.eraseOver_buffers (d : Device) : (d.eraseOver).buffers = d.buffers := rfl
@[simp] theorem Device.eraseOver_flags (d : Device) : (d.eraseOver).flags = d.flags := rfl
@[simp] theorem Device.eraseOver_ex (d : Device) : (d.eraseOver).ex = d.ex := rfl
@[simp] theorem Device.eraseOver_dir (d : Device) : (d.eraseOver).dir = d.dir := rfl
@[simp] theorem Device.eraseOver_level (d : Device) : (d.eraseOver).level = d.level := rfl
@[simp] theorem Device.eraseOver_banks (d : Device) : (d.eraseOver).banks = d.banks := rfl
@[simp] theorem Device.eraseOver_openMark (d : Device) : (d.eraseOver).openMark = d.openMark := rfl
@[simp] theorem Device.eraseOver_nextSeq (d : Device) : (d.eraseOver).nextSeq = d.nextSeq := rfl
@[simp] theorem Device.eraseOver_nextEpoch (d : Device) : (d.eraseOver).nextEpoch = d.nextEpoch := rfl
@[simp] theorem Device.eraseOver_store (d : Device) : (d.eraseOver).store = d.store := rfl
@[simp] theorem Device.eraseOver_generation (d : Device) : (d.eraseOver).generation = d.generation := rfl
@[simp] theorem Device.eraseOver_causes (d : Device) : (d.eraseOver).causes = d.causes := rfl
@[simp] theorem Device.eraseOver_mountOutcome (d : Device) : (d.eraseOver).mountOutcome = d.mountOutcome := rfl
@[simp] theorem Device.eraseOver_banksHanded (d : Device) : (d.eraseOver).banksHanded = d.banksHanded := rfl
@[simp] theorem Device.eraseOver_group (d : Device) : (d.eraseOver).group = d.group := rfl
@[simp] theorem Device.eraseOver_commits (d : Device) : (d.eraseOver).commits = d.commits := rfl
@[simp] theorem Device.eraseOver_reclaim (d : Device) : (d.eraseOver).reclaim = d.reclaim := rfl
@[simp] theorem Device.eraseOver_mount (d : Device) : (d.eraseOver).mount = d.mount := rfl

/-! ## stopMount -/
@[simp] theorem Device.stopMount_queue (d : Device) : (d.stopMount).queue = d.queue := rfl
@[simp] theorem Device.stopMount_fifo (d : Device) : (d.stopMount).fifo = d.fifo := rfl
@[simp] theorem Device.stopMount_buffers (d : Device) : (d.stopMount).buffers = d.buffers := rfl
@[simp] theorem Device.stopMount_flags (d : Device) : (d.stopMount).flags = d.flags := rfl
@[simp] theorem Device.stopMount_ex (d : Device) : (d.stopMount).ex = d.ex := rfl
@[simp] theorem Device.stopMount_dir (d : Device) : (d.stopMount).dir = d.dir := rfl
@[simp] theorem Device.stopMount_level (d : Device) : (d.stopMount).level = d.level := rfl
@[simp] theorem Device.stopMount_banks (d : Device) : (d.stopMount).banks = d.banks := rfl
@[simp] theorem Device.stopMount_openMark (d : Device) : (d.stopMount).openMark = d.openMark := rfl
@[simp] theorem Device.stopMount_nextSeq (d : Device) : (d.stopMount).nextSeq = d.nextSeq := rfl
@[simp] theorem Device.stopMount_nextEpoch (d : Device) : (d.stopMount).nextEpoch = d.nextEpoch := rfl
@[simp] theorem Device.stopMount_store (d : Device) : (d.stopMount).store = d.store := rfl
@[simp] theorem Device.stopMount_generation (d : Device) : (d.stopMount).generation = d.generation := rfl
@[simp] theorem Device.stopMount_causes (d : Device) : (d.stopMount).causes = d.causes := rfl
@[simp] theorem Device.stopMount_mountOutcome (d : Device) : (d.stopMount).mountOutcome = d.mountOutcome := rfl
@[simp] theorem Device.stopMount_banksHanded (d : Device) : (d.stopMount).banksHanded = d.banksHanded := rfl
@[simp] theorem Device.stopMount_group (d : Device) : (d.stopMount).group = d.group := rfl
@[simp] theorem Device.stopMount_commits (d : Device) : (d.stopMount).commits = d.commits := rfl
@[simp] theorem Device.stopMount_reclaim (d : Device) : (d.stopMount).reclaim = d.reclaim := rfl
@[simp] theorem Device.stopMount_fc (d : Device) : (d.stopMount).fc = d.fc := rfl

/-! ## What they write -/
@[simp] theorem Device.setJob_reclaim (d : Device) (j : ReclaimJob) : (d.setJob j).reclaim = { d.reclaim with job := j } := rfl
@[simp] theorem Device.mapReclaim_reclaim (d : Device) (f : Reclaim → Reclaim) : (d.mapReclaim f).reclaim = f d.reclaim := rfl
@[simp] theorem Device.mapGroup_group (d : Device) (f : GroupContext → GroupContext) : (d.mapGroup f).group = d.group.map f := rfl
@[simp] theorem Device.putEntry_dir (d : Device) (e : DirEntry) : (d.putEntry e).dir = dirPut e d.dir := rfl
@[simp] theorem Device.placeCompletion_fifo (d : Device) (tag : Byte) (st : Status) (n : Nat) :
    (d.placeCompletion tag st n).fifo = d.fifo ++ [{ tag := tag, status := st, result := n }] := rfl
@[simp] theorem Device.setStage_ex (d : Device) (st : Stage) : (d.setStage st).ex = d.ex.map fun x => { x with stage := st } := rfl
@[simp] theorem Device.opDone_fc (d : Device) : d.opDone.fc = { d.fc with op := none } := rfl
@[simp] theorem Device.stopMount_mount (d : Device) : d.stopMount.mount = .idle := rfl

/-! ## An event of the engines changes the device alone -/
@[simp] theorem State.engines_pending (s : State) (g : Device → Device) : (s.engines g).pending = s.pending := rfl
@[simp] theorem State.engines_flash (s : State) (g : Device → Device) : (s.engines g).flash = s.flash := rfl
@[simp] theorem State.engines_port (s : State) (g : Device → Device) : (s.engines g).port = s.port := rfl
@[simp] theorem State.engines_desc (s : State) (g : Device → Device) : (s.engines g).desc = s.desc := rfl
@[simp] theorem State.engines_select (s : State) (g : Device → Device) : (s.engines g).select = s.select := rfl
@[simp] theorem State.engines_mask (s : State) (g : Device → Device) : (s.engines g).mask = s.mask := rfl
@[simp] theorem State.engines_cfg (s : State) (g : Device → Device) : (s.engines g).cfg = s.cfg := rfl
@[simp] theorem State.engines_power (s : State) (g : Device → Device) : (s.engines g).power = s.power := rfl
@[simp] theorem State.engines_dev (s : State) (g : Device → Device) : (s.engines g).dev = (g s.dev).settle s.ctx := rfl
@[simp] theorem State.engines_rstLow (s : State) (g : Device → Device) : (s.engines g).rstLow = s.rstLow := rfl

/-! ## markWalkDamaged -/
@[simp] theorem Device.markWalkDamaged_queue (d : Device) (loc : Location) : (d.markWalkDamaged loc).queue = d.queue := rfl
@[simp] theorem Device.markWalkDamaged_fifo (d : Device) (loc : Location) : (d.markWalkDamaged loc).fifo = d.fifo := rfl
@[simp] theorem Device.markWalkDamaged_buffers (d : Device) (loc : Location) : (d.markWalkDamaged loc).buffers = d.buffers := rfl
@[simp] theorem Device.markWalkDamaged_flags (d : Device) (loc : Location) : (d.markWalkDamaged loc).flags = d.flags := rfl
@[simp] theorem Device.markWalkDamaged_ex (d : Device) (loc : Location) : (d.markWalkDamaged loc).ex = d.ex := rfl
@[simp] theorem Device.markWalkDamaged_dir (d : Device) (loc : Location) : (d.markWalkDamaged loc).dir = d.dir := rfl
@[simp] theorem Device.markWalkDamaged_level (d : Device) (loc : Location) : (d.markWalkDamaged loc).level = d.level := rfl
@[simp] theorem Device.markWalkDamaged_banks (d : Device) (loc : Location) : (d.markWalkDamaged loc).banks = d.banks := rfl
@[simp] theorem Device.markWalkDamaged_openMark (d : Device) (loc : Location) : (d.markWalkDamaged loc).openMark = d.openMark := rfl
@[simp] theorem Device.markWalkDamaged_nextSeq (d : Device) (loc : Location) : (d.markWalkDamaged loc).nextSeq = d.nextSeq := rfl
@[simp] theorem Device.markWalkDamaged_nextEpoch (d : Device) (loc : Location) : (d.markWalkDamaged loc).nextEpoch = d.nextEpoch := rfl
@[simp] theorem Device.markWalkDamaged_store (d : Device) (loc : Location) : (d.markWalkDamaged loc).store = d.store := rfl
@[simp] theorem Device.markWalkDamaged_generation (d : Device) (loc : Location) : (d.markWalkDamaged loc).generation = d.generation := rfl
@[simp] theorem Device.markWalkDamaged_causes (d : Device) (loc : Location) : (d.markWalkDamaged loc).causes = d.causes := rfl
@[simp] theorem Device.markWalkDamaged_mountOutcome (d : Device) (loc : Location) : (d.markWalkDamaged loc).mountOutcome = d.mountOutcome := rfl
@[simp] theorem Device.markWalkDamaged_banksHanded (d : Device) (loc : Location) : (d.markWalkDamaged loc).banksHanded = d.banksHanded := rfl
@[simp] theorem Device.markWalkDamaged_group (d : Device) (loc : Location) : (d.markWalkDamaged loc).group = d.group := rfl
@[simp] theorem Device.markWalkDamaged_commits (d : Device) (loc : Location) : (d.markWalkDamaged loc).commits = d.commits := rfl
@[simp] theorem Device.markWalkDamaged_fc (d : Device) (loc : Location) : (d.markWalkDamaged loc).fc = d.fc := rfl
@[simp] theorem Device.markWalkDamaged_mount (d : Device) (loc : Location) : (d.markWalkDamaged loc).mount = d.mount := rfl

/-! ## RST# going LOW (R198) -/
@[simp] theorem State.rstHeld_pending (s : State) : s.rstHeld.pending = s.pending := rfl
@[simp] theorem State.rstHeld_flash (s : State) : s.rstHeld.flash = s.flash := rfl
@[simp] theorem State.rstHeld_dev (s : State) : s.rstHeld.dev = s.dev := rfl
@[simp] theorem State.rstHeld_desc (s : State) : s.rstHeld.desc = s.desc := rfl
@[simp] theorem State.rstHeld_select (s : State) : s.rstHeld.select = s.select := rfl
@[simp] theorem State.rstHeld_mask (s : State) : s.rstHeld.mask = s.mask := rfl
@[simp] theorem State.rstHeld_cfg (s : State) : s.rstHeld.cfg = s.cfg := rfl
@[simp] theorem State.rstHeld_power (s : State) : s.rstHeld.power = s.power := rfl
@[simp] theorem State.rstHeld_rstLow (s : State) : s.rstHeld.rstLow = true := rfl
@[simp] theorem State.rstHeld_frame (s : State) : s.rstHeld.port.frame = none := rfl

/-! ## A reset (R20, R83, R187, R198) -/
@[simp] theorem State.resetTo_pending (s : State) (cut : CutShort) (p : Bool) (mv : Nat) : (s.resetTo cut p mv).pending = s.pending := rfl
@[simp] theorem State.resetTo_port (s : State) (cut : CutShort) (p : Bool) (mv : Nat) : (s.resetTo cut p mv).port = {} := rfl
@[simp] theorem State.resetTo_desc (s : State) (cut : CutShort) (p : Bool) (mv : Nat) : (s.resetTo cut p mv).desc = {} := rfl
@[simp] theorem State.resetTo_select (s : State) (cut : CutShort) (p : Bool) (mv : Nat) : (s.resetTo cut p mv).select = 0 := rfl
@[simp] theorem State.resetTo_mask (s : State) (cut : CutShort) (p : Bool) (mv : Nat) : (s.resetTo cut p mv).mask = 0 := rfl
@[simp] theorem State.resetTo_cfg (s : State) (cut : CutShort) (p : Bool) (mv : Nat) : (s.resetTo cut p mv).cfg = {} := rfl
@[simp] theorem State.resetTo_power (s : State) (cut : CutShort) (p : Bool) (mv : Nat) : (s.resetTo cut p mv).power = resetPower p mv := rfl
@[simp] theorem State.resetTo_rstLow (s : State) (cut : CutShort) (p : Bool) (mv : Nat) : (s.resetTo cut p mv).rstLow = s.rstLow := rfl
@[simp] theorem State.resetTo_flash (s : State) (cut : CutShort) (p : Bool) (mv : Nat) : (s.resetTo cut p mv).flash = cutErase (cutProgram s.flash s.dev.fc.op cut.line) s.dev.fc.erase cut.erase := rfl

/-! ## The levels of the sources (R179, R180, R181) -/

/-- Where the supply stays at or above the brown-out level, new levels of the sources are only judged. -/
theorem State.levels_judged (s : State) (p : Bool) (mv : Nat) (cut : CutShort) (b : Bool) (h : 1600 ≤ mv) (hs : 1600 ≤ s.power.vdd) :
    s.levels p mv cut b =
      ({ s with power := { s.power with pfwLow := p, vdd := mv } } : State).judgePower { erase := cut.erase, between := b } := by
  unfold State.levels
  exact if_neg (by simp only [Config.brownOut]; omega)

/-- A supply below the brown-out level, and its rise from there, is a reset. -/
theorem State.levels_brownOut (s : State) (p : Bool) (mv : Nat) (cut : CutShort) (b : Bool) (h : mv < 1600 ∨ s.power.vdd < 1600) :
    s.levels p mv cut b = s.resetTo cut p mv := if_pos h

end Sys2Proof.Machine
end

