-- ==== Sys2Proof/Laws/FlagsRise.lean ====
section
/-! SUPPORT. No operation of the engines clears a latched flag (R195): one lemma for each operation. -/
namespace Sys2Proof.Machine
open Sys2Proof

/-- Every latched flag set in `fl` is set in the device. -/
def Device.over (d : Device) (fl : Flags) : Prop := fl.within d.flags

/-- A record update that keeps the flags. -/
@[simp] theorem Device.mk_flg (fl : Flags) (d : Device) (queue' : List Posted) (fifo' : List Completion) (buffers' : Vector Buffer 4) (ex' : Option Executing) (dir' : List DirEntry) (level' : LockLevel) (banks' : Vector BankEntry 32) (openMark' : Option (BankId × Opener)) (nextSeq' : Nat) (nextEpoch' : Nat) (store' : StoreState) (generation' : Option Nat) (causes' : Causes) (mountOutcome' : MountOutcome) (banksHanded' : Nat) (group' : Option GroupContext) (commits' : List CommitEntry) (reclaim' : Reclaim) (fc' : FlashController) (mount' : MountUnit) :
    (Device.mk queue' fifo' buffers' d.flags ex' dir' level' banks' openMark' nextSeq' nextEpoch' store' generation' causes' mountOutcome' banksHanded' group' commits' reclaim' fc' mount').over fl ↔ d.over fl := ⟨fun h => h, fun h => h⟩

theorem Flags.within_refl (f : Flags) : f.within f := ⟨id, id, id, id, id, id, id⟩

theorem Flags.within_trans {f f' f'' : Flags} (h : f.within f') (h' : f'.within f'') : f.within f'' := by
  obtain ⟨a1, a2, a3, a4, a5, a6, a7⟩ := h
  obtain ⟨b1, b2, b3, b4, b5, b6, b7⟩ := h'
  exact ⟨b1 ∘ a1, b2 ∘ a2, b3 ∘ a3, b4 ∘ a4, b5 ∘ a5, b6 ∘ a6, b7 ∘ a7⟩

theorem Device.foldl_flg {α : Type} (fl : Flags) (g : Device → α → Device) (hf : ∀ d a, d.over fl → (g d a).over fl) (l : List α)
    (d : Device) (h : d.over fl) : (l.foldl g d).over fl := by
  induction l generalizing d with
  | nil => exact h
  | cons a l ih => exact ih _ (hf d a h)

/-! ## Ops.lean -/

theorem Device.setBank_flg (fl : Flags) (d : Device) (b : BankId) (e : BankEntry) (hb : d.over fl) :
    (Device.setBank d b e).over fl := hb

theorem Device.addDead_flg (fl : Flags) (d : Device) (b : BankId) (n : Nat) (hb : d.over fl) :
    (Device.addDead d b n).over fl := hb

theorem Device.fillActive_flg (fl : Flags) (d : Device) (b : BankId) (hb : d.over fl) :
    (Device.fillActive d b).over fl := by
  dsimp only [Device.fillActive]
  repeat' split
  all_goals with_reducible repeat' (first | exact hb | apply Device.setBank_flg)

theorem Device.markSuspect_flg (fl : Flags) (d : Device) (b : BankId) (hb : d.over fl) :
    (Device.markSuspect d b).over fl := hb

theorem Device.makeFree_flg (fl : Flags) (d : Device) (b : BankId) (count : Nat) (hb : d.over fl) :
    (Device.makeFree d b count).over fl := hb

theorem Device.emptyInto_flg (fl : Flags) (d : Device) (b : BankId) (st : BankState) (hb : d.over fl) :
    (Device.emptyInto d b st).over fl := hb

theorem Device.putEntry_flg (fl : Flags) (d : Device) (e : DirEntry) (hb : d.over fl) :
    (Device.putEntry d e).over fl := hb

theorem Device.removeEntry_flg (fl : Flags) (d : Device) (k : Key) (hb : d.over fl) :
    (Device.removeEntry d k).over fl := hb

theorem Device.mapGroup_flg (fl : Flags) (d : Device) (f : GroupContext → GroupContext) (hb : d.over fl) :
    (Device.mapGroup d f).over fl := hb

theorem Device.mapReclaim_flg (fl : Flags) (d : Device) (f : Reclaim → Reclaim) (hb : d.over fl) :
    (Device.mapReclaim d f).over fl := hb

theorem Device.setJob_flg (fl : Flags) (d : Device) (j : ReclaimJob) (hb : d.over fl) :
    (Device.setJob d j).over fl := hb

theorem Device.mapVictim_flg (fl : Flags) (d : Device) (f : Victim → Victim) (hb : d.over fl) :
    (Device.mapVictim d f).over fl := hb

theorem Device.setStage_flg (fl : Flags) (d : Device) (st : Stage) (hb : d.over fl) :
    (Device.setStage d st).over fl := hb

theorem Device.request_flg (fl : Flags) (d : Device) (who : Requester) (r : Request) (hb : d.over fl) :
    (Device.request d who r).over fl := by
  dsimp only [Device.request]
  repeat' split
  all_goals with_reducible repeat' (first | exact hb | apply (Device.mk_flg ..).mpr)

/-! ## Flags.lean -/

theorem Device.noteOpening_flg (fl : Flags) (d : Device) (freeBefore : Nat) (hb : d.over fl) :
    (Device.noteOpening d freeBefore).over fl := by
  unfold Device.noteOpening
  split
  · exact Flags.within_trans hb (by simp +contextual [Flags.within])
  · exact hb

/-! ## Operands.lean -/

theorem Device.setBuffer_flg (fl : Flags) (d : Device) (i : Fin 4) (b : Buffer) (hb : d.over fl) :
    (Device.setBuffer d i b).over fl := hb

/-! ## Tables.lean -/

theorem Device.supersede_flg (fl : Flags) (d : Device) (e : DirEntry) (hb : d.over fl) :
    (Device.supersede d e).over fl := by
  dsimp only [Device.supersede]
  repeat' split
  all_goals with_reducible repeat' (first | exact hb | apply Device.addDead_flg)

theorem Device.dropSpentTombstone_flg (fl : Flags) (d : Device) (k : Key) (hb : d.over fl) :
    (Device.dropSpentTombstone d k).over fl := by
  dsimp only [Device.dropSpentTombstone]
  repeat' split
  all_goals with_reducible repeat' (first | exact hb | apply Device.removeEntry_flg | apply Device.addDead_flg)

theorem Device.commitEntry_flg (fl : Flags) (d : Device) (c : Committed) (hb : d.over fl) :
    (Device.commitEntry d c).over fl := by
  dsimp only [Device.commitEntry]
  repeat' split
  all_goals with_reducible repeat' (first | exact hb | apply Device.supersede_flg | apply Device.putEntry_flg | apply Device.dropSpentTombstone_flg)

theorem Device.damageEntry_flg (fl : Flags) (d : Device) (k : Key) (hb : d.over fl) :
    (Device.damageEntry d k).over fl := by
  dsimp only [Device.damageEntry]
  repeat' split
  all_goals with_reducible repeat' (first | exact hb | apply Device.putEntry_flg | apply Device.supersede_flg)

theorem Device.markWalkDamaged_flg (fl : Flags) (d : Device) (loc : Location) (hb : d.over fl) :
    (Device.markWalkDamaged d loc).over fl := hb

theorem Device.damageMember_flg (fl : Flags) (d : Device) (k : Key) (read : Location) (hb : d.over fl) :
    (Device.damageMember d k read).over fl := by
  dsimp only [Device.damageMember]
  repeat' split
  all_goals with_reducible repeat' (first | exact hb | apply Device.markWalkDamaged_flg | apply Device.mapGroup_flg | apply Device.addDead_flg)

theorem Device.copyTakesOver_flg (fl : Flags) (d : Device) (h : Header) (original copy : Location) (hb : d.over fl) :
    (Device.copyTakesOver d h original copy).over fl := by
  dsimp only [Device.copyTakesOver]
  repeat' split
  all_goals with_reducible repeat' (first | exact hb | apply Device.putEntry_flg | apply Device.addDead_flg)

theorem Device.mapCommit_flg (fl : Flags) (d : Device) (gid : Nat) (f : CommitEntry → CommitEntry) (hb : d.over fl) :
    (Device.mapCommit d gid f).over fl := hb

theorem Device.addTagged_flg (fl : Flags) (d : Device) (b : BankId) (n : Nat) (hb : d.over fl) :
    (Device.addTagged d b n).over fl := hb

theorem Device.memberCopyVerifies_flg (fl : Flags) (d : Device) (h : Header) (gid : Nat) (original copy : Location) (hb : d.over fl) :
    (Device.memberCopyVerifies d h gid original copy).over fl := by
  dsimp only [Device.memberCopyVerifies]
  repeat' split
  all_goals with_reducible repeat' (first | exact hb | apply Device.mapGroup_flg | apply Device.mapReclaim_flg | apply Device.addDead_flg | apply Device.copyTakesOver_flg | apply Device.mapCommit_flg | apply Device.addTagged_flg)

theorem Device.commitCopyVerifies_flg (fl : Flags) (d : Device) (original copy : Location) (hb : d.over fl) :
    (Device.commitCopyVerifies d original copy).over fl := by
  dsimp only [Device.commitCopyVerifies]
  repeat' split
  all_goals with_reducible repeat' (first | exact hb | apply Device.addDead_flg | apply (Device.mk_flg ..).mpr)

theorem Device.commitMember_flg (fl : Flags) (d : Device) (c : Committed) (loc : Location) (hb : d.over fl) :
    (Device.commitMember d c loc).over fl := by
  dsimp only [Device.commitMember]
  repeat' split
  all_goals with_reducible repeat' (first | exact hb | apply Device.mapGroup_flg | apply Device.addDead_flg)

theorem Device.applyMember_flg (fl : Flags) (d : Device) (gid : Nat) (m : MemberEntry) (hb : d.over fl) :
    (Device.applyMember d gid m).over fl := by
  dsimp only [Device.applyMember]
  repeat' split
  all_goals with_reducible repeat' (first | exact hb | apply Device.commitEntry_flg | apply Device.putEntry_flg)

theorem Device.commitGroup_flg (fl : Flags) (d : Device) (loc : Location) (hb : d.over fl) :
    (Device.commitGroup d loc).over fl := by
  unfold Device.commitGroup
  split
  · exact hb
  · rename_i g _
    have h1 := Device.foldl_flg fl _ (fun d m => Device.applyMember_flg fl d g.id m) g.members d hb
    have h2 := Device.foldl_flg fl _ (fun d (l : Location) => Device.addTagged_flg fl d l.bank 1) g.records _ h1
    dsimp only
    split
    · exact h2
    · exact Device.addDead_flg fl _ loc.bank 3 h2

theorem Device.orphanMember_flg (fl : Flags) (d : Device) (m : MemberEntry) (hb : d.over fl) :
    (Device.orphanMember d m).over fl := by
  dsimp only [Device.orphanMember]
  repeat' split
  all_goals with_reducible repeat' (first | exact hb | apply Device.addDead_flg)

theorem Device.endGroup_flg (fl : Flags) (d : Device) (hb : d.over fl) :
    (Device.endGroup d).over fl := by
  unfold Device.endGroup
  split
  · exact hb
  · rename_i g _
    exact Device.foldl_flg fl _ (fun d m => Device.orphanMember_flg fl d m) g.members d hb

theorem Device.expireGroup_flg (fl : Flags) (d : Device) (hb : d.over fl) :
    (Device.expireGroup d).over fl := by
  exact Flags.within_trans (Device.endGroup_flg fl d hb) (by simp +contextual [Flags.within, Device.expireGroup])

theorem Device.memberEnded_flg (fl : Flags) (d : Device) (hb : d.over fl) :
    (Device.memberEnded d).over fl := by
  dsimp only [Device.memberEnded]
  repeat' split
  all_goals with_reducible repeat' (first | exact hb | apply Device.endGroup_flg | apply Device.expireGroup_flg)

theorem Device.releaseBuffer_flg (fl : Flags) (d : Device) (code : CommandCode) (field : Byte) (hb : d.over fl) :
    (Device.releaseBuffer d code field).over fl := by
  dsimp only [Device.releaseBuffer]
  repeat' split
  all_goals with_reducible repeat' (first | exact hb | apply Device.setBuffer_flg)

theorem Device.placeCompletion_flg (fl : Flags) (d : Device) (tag : Byte) (status : Status) (result : Nat) (hb : d.over fl) :
    (Device.placeCompletion d tag status result).over fl := hb

theorem Device.output_flg (fl : Flags) (d : Device) (bytes : List Byte) (hb : d.over fl) :
    (Device.output d bytes).over fl := by
  dsimp only [Device.output]
  repeat' split
  all_goals with_reducible repeat' (first | exact hb | apply Device.setBuffer_flg)

theorem Device.endCommand_flg (fl : Flags) (d : Device) (status : Status) (result : Nat) (hb : d.over fl) :
    (Device.endCommand d status result).over fl := by
  dsimp only [Device.endCommand]
  repeat' split
  all_goals with_reducible repeat' (first | exact hb | apply Device.commitGroup_flg | apply Device.endGroup_flg | apply Device.memberEnded_flg | apply Device.releaseBuffer_flg | apply Device.placeCompletion_flg | apply (Device.mk_flg ..).mpr)

theorem Device.degrade_flg (fl : Flags) (d : Device) (c : Cause) (hb : d.over fl) :
    (Device.degrade d c).over fl := by
  unfold Device.degrade
  have h : fl.within { d.flags with degraded := true } := Flags.within_trans hb (by simp +contextual [Flags.within])
  dsimp only
  split
  · split
    · exact Device.endCommand_flg fl _ _ _ h
    · exact h
  · exact hb

/-! ## Controller.lean -/

theorem Device.decideSuspension_flg (fl : Flags) (c : Ctx) (d : Device) (hb : d.over fl) :
    (Device.decideSuspension c d).over fl := by
  dsimp only [Device.decideSuspension]
  repeat' split
  all_goals with_reducible repeat' (first | exact hb | apply (Device.mk_flg ..).mpr)

theorem Device.noteFormatGrant_flg (fl : Flags) (d : Device) (who : Requester) (hb : d.over fl) :
    (Device.noteFormatGrant d who).over fl := by
  dsimp only [Device.noteFormatGrant]
  repeat' split
  all_goals with_reducible repeat' (first | exact hb | apply (Device.mk_flg ..).mpr)

theorem Device.grantRequest_flg (fl : Flags) (d : Device) (who : Requester) (r : Request) (hb : d.over fl) :
    (Device.grantRequest d who r).over fl := by
  dsimp only [Device.grantRequest]
  all_goals with_reducible repeat' (first | exact hb | apply Device.noteFormatGrant_flg | apply (Device.mk_flg ..).mpr)

theorem Device.resumeErase_flg (fl : Flags) (d : Device) (hb : d.over fl) :
    (Device.resumeErase d).over fl := by
  dsimp only [Device.resumeErase]
  repeat' split
  all_goals with_reducible repeat' (first | exact hb | apply (Device.mk_flg ..).mpr)

theorem Device.grantAll_flg (fl : Flags) (c : Ctx) (n : Nat) (d : Device) (hb : d.over fl) : (Device.grantAll c n d).over fl := by
  induction n generalizing d with
  | zero => exact hb
  | succ n ih =>
    unfold Device.grantAll
    split
    · exact ih _ (Device.grantRequest_flg fl _ _ _ (Device.decideSuspension_flg fl c d hb))
    · exact Device.decideSuspension_flg fl c d hb

theorem Device.arbitrate_flg (fl : Flags) (c : Ctx) (d : Device) (hb : d.over fl) :
    (Device.arbitrate c d).over fl := by
  dsimp only [Device.arbitrate]
  repeat' split
  all_goals with_reducible repeat' (first | exact hb | apply Device.grantAll_flg | apply Device.resumeErase_flg)

/-! ## Placement.lean -/

theorem Device.reserveLines_flg (fl : Flags) (d : Device) (b : BankId) (span : Nat) (hb : d.over fl) :
    (Device.reserveLines d b span).over fl := hb

theorem Device.reserve_flg (fl : Flags) (d : Device) (w : Writer) (b : BankId) (hb : d.over fl) : (d.reserve w b).2.over fl := by
  unfold Device.reserve
  split <;> exact hb

theorem Device.beginOpen_flg (fl : Flags) (d : Device) (who : Opener) (b : BankId) (hb : d.over fl) :
    (Device.beginOpen d who b).over fl := by
  dsimp only [Device.beginOpen]
  repeat' split
  all_goals with_reducible repeat' (first | exact hb | apply Device.request_flg | apply (Device.mk_flg ..).mpr)

theorem Device.openSucceeded_flg (fl : Flags) (d : Device) (b : BankId) (epoch : Nat) (quiet : Bool) (hb : d.over fl) :
    (Device.openSucceeded d b epoch quiet).over fl := by
  dsimp only [Device.openSucceeded]
  repeat' split
  all_goals with_reducible repeat' (first | exact hb | apply Device.fillActive_flg | apply Device.setBank_flg | apply Device.noteOpening_flg | apply (Device.mk_flg ..).mpr)

theorem Device.openFaulted_flg (fl : Flags) (d : Device) (b : BankId) (epoch : Nat) (quiet : Bool) (hb : d.over fl) :
    (Device.openFaulted d b epoch quiet).over fl := by
  dsimp only [Device.openFaulted]
  repeat' split
  all_goals with_reducible repeat' (first | exact hb | apply Device.setBank_flg | apply Device.noteOpening_flg | apply (Device.mk_flg ..).mpr)

theorem Device.abandonSpan_flg (fl : Flags) (d : Device) (w : Writer) (r : Reservation) (hb : d.over fl) :
    (Device.abandonSpan d w r).over fl := hb

theorem Device.faultBank_flg (fl : Flags) (d : Device) (b : BankId) (hb : d.over fl) :
    (Device.faultBank d b).over fl := by
  dsimp only [Device.faultBank]
  all_goals with_reducible repeat' (first | exact hb | apply Device.markSuspect_flg | apply Device.fillActive_flg)

theorem Device.epochExhausted_flg (fl : Flags) (d : Device) (hb : d.over fl) :
    (Device.epochExhausted d).over fl := by
  dsimp only [Device.epochExhausted]
  all_goals with_reducible repeat' (first | exact hb | apply Device.degrade_flg | apply (Device.mk_flg ..).mpr)

/-! ## Mount.lean -/

theorem Device.resetTables_flg (fl : Flags) (d : Device) (hb : d.over fl) :
    (Device.resetTables d).over fl := hb

theorem Device.beginMount_flg (fl : Flags) (d : Device) (hb : d.over fl) :
    (Device.beginMount d).over fl := hb

theorem Device.handOff_flg (fl : Flags) (d : Device) (hb : d.over fl) :
    (Device.handOff d).over fl := by
  exact Flags.within_trans hb (by simp +contextual [Flags.within, Device.handOff])

theorem Device.finishMount_flg (fl : Flags) (d : Device) (rows : List CensusRow) (scans : List ScanBank) (hb : d.over fl) :
    (Device.finishMount d rows scans).over fl := by
  dsimp only [Device.finishMount]
  all_goals with_reducible repeat' (first | exact hb | apply Device.handOff_flg | apply (Device.mk_flg ..).mpr)

theorem Device.finishBlank_flg (fl : Flags) (d : Device) (rows : List CensusRow) (hb : d.over fl) :
    (Device.finishBlank d rows).over fl := by
  dsimp only [Device.finishBlank]
  all_goals with_reducible repeat' (first | exact hb | apply Device.handOff_flg | apply (Device.mk_flg ..).mpr)

theorem Device.nextScan_flg (fl : Flags) (d : Device) (rows : List CensusRow) (todo : List (BankId × Nat)) (done : List ScanBank) (hb : d.over fl) :
    (Device.nextScan d rows todo done).over fl := by
  dsimp only [Device.nextScan]
  repeat' split
  all_goals with_reducible repeat' (first | exact hb | apply Device.finishMount_flg | apply Device.request_flg | apply (Device.mk_flg ..).mpr)

theorem Device.censusDone_flg (fl : Flags) (d : Device) (rows : List CensusRow) (hb : d.over fl) :
    (Device.censusDone d rows).over fl := by
  dsimp only [Device.censusDone]
  repeat' split
  all_goals with_reducible repeat' (first | exact hb | apply Device.request_flg | apply Device.finishBlank_flg | apply Device.nextScan_flg | apply (Device.mk_flg ..).mpr)

theorem Device.mountRead_flg (fl : Flags) (d : Device) (lines : List Line) (hb : d.over fl) :
    (Device.mountRead d lines).over fl := by
  dsimp only [Device.mountRead]
  repeat' split
  all_goals with_reducible repeat' (first | exact hb | apply Device.erased_flg | apply Device.request_flg | apply Device.censusDone_flg | apply Device.nextScan_flg | apply (Device.mk_flg ..).mpr)

theorem Device.stopMount_flg (fl : Flags) (d : Device) (hb : d.over fl) :
    (Device.stopMount d).over fl := hb

/-! ## FormatEnds.lean -/

theorem Device.mapFormat_flg (fl : Flags) (d : Device) (f : FormatProgress → FormatProgress) (hb : d.over fl) :
    (Device.mapFormat d f).over fl := hb

theorem Device.formatCommitted_flg (fl : Flags) (d : Device) (hb : d.over fl) :
    (Device.formatCommitted d).over fl := by
  refine Flags.within_trans hb ?_
  simp +contextual [Flags.within, Device.formatCommitted]

theorem Device.formatFinish_flg (fl : Flags) (d : Device) (hb : d.over fl) :
    (Device.formatFinish d).over fl := by
  dsimp only [Device.formatFinish]
  repeat' split
  all_goals with_reducible repeat' (first | exact hb | apply Device.formatCommitted_flg | apply Device.endCommand_flg | apply Device.beginMount_flg)

theorem Device.formatWithdrawn_flg (fl : Flags) (d : Device) (f : FormatProgress) (hb : d.over fl) :
    (Device.formatWithdrawn d f).over fl := by
  refine Flags.within_trans hb ?_
  simp +contextual [Flags.within, Device.formatWithdrawn]

theorem Device.formatPowerEnd_flg (fl : Flags) (d : Device) (hb : d.over fl) :
    (Device.formatPowerEnd d).over fl := by
  dsimp only [Device.formatPowerEnd]
  repeat' split
  all_goals with_reducible repeat' (first | exact hb | apply Device.resetTables_flg | apply Device.endCommand_flg | apply Device.formatWithdrawn_flg)

/-! ## CommandRecord.lean -/

theorem Device.commandPowerEnd_flg (fl : Flags) (d : Device) (hb : d.over fl) :
    (Device.commandPowerEnd d).over fl := by
  dsimp only [Device.commandPowerEnd]
  repeat' split
  all_goals with_reducible repeat' (first | exact hb | apply Device.formatPowerEnd_flg | apply Device.endCommand_flg)

theorem Device.commandFails_flg (fl : Flags) (d : Device) (status : Status) (hb : d.over fl) :
    (Device.commandFails d status).over fl := by
  dsimp only [Device.commandFails]
  repeat' split
  all_goals with_reducible repeat' (first | exact hb | apply Device.degrade_flg | apply Device.formatFinish_flg | apply Device.endCommand_flg)

theorem Device.commandOutOfSequences_flg (fl : Flags) (d : Device) (hb : d.over fl) :
    (Device.commandOutOfSequences d).over fl := by
  dsimp only [Device.commandOutOfSequences]
  all_goals with_reducible repeat' (first | exact hb | apply Device.degrade_flg | apply Device.commandFails_flg)

theorem Device.commandReserve_flg (fl : Flags) (d : Device) (w : Writer) (b : BankId) (hb : d.over fl) :
    (Device.commandReserve d w b).over fl := by
  dsimp only [Device.commandReserve]
  split
  · exact Device.request_flg fl _ _ _ (Device.setStage_flg fl _ _ (Device.reserve_flg fl d w b hb))
  · exact Device.commandOutOfSequences_flg fl d hb

theorem Device.commandOpen_flg (fl : Flags) (d : Device) (w : Writer) (b : BankId) (hb : d.over fl) :
    (Device.commandOpen d w b).over fl := by
  dsimp only [Device.commandOpen]
  repeat' split
  all_goals with_reducible repeat' (first | exact hb | apply Device.setStage_flg | apply Device.beginOpen_flg | apply Device.epochExhausted_flg | apply Device.commandFails_flg)

theorem Device.commandWaits_flg (fl : Flags) (d : Device) (w : Writer) (hb : d.over fl) :
    (Device.commandWaits d w).over fl := by
  dsimp only [Device.commandWaits]
  repeat' split
  all_goals with_reducible repeat' (first | exact hb | apply Device.commandFails_flg | apply Device.endCommand_flg | apply Device.setStage_flg)

theorem Device.commandPlace_flg (fl : Flags) (c : Ctx) (d : Device) (w : Writer) (hb : d.over fl) :
    (Device.commandPlace c d w).over fl := by
  dsimp only [Device.commandPlace]
  repeat' split
  all_goals with_reducible repeat' (first | exact hb | apply Device.commandPowerEnd_flg | apply Device.commandOutOfSequences_flg | apply Device.commandReserve_flg | apply Device.setStage_flg | apply Device.commandOpen_flg | apply Device.commandWaits_flg)

theorem Device.commitUserRecord_flg (fl : Flags) (d : Device) (x : Executing) (w : Writer) (r : Reservation) (hb : d.over fl) :
    (Device.commitUserRecord d x w r).over fl := by
  dsimp only [Device.commitUserRecord]
  repeat' split
  all_goals with_reducible repeat' (first | exact hb | apply Device.commitMember_flg | apply Device.commitEntry_flg)

theorem Device.commandCommit_flg (fl : Flags) (d : Device) (x : Executing) (w : Writer) (r : Reservation) (hb : d.over fl) :
    (Device.commandCommit d x w r).over fl := by
  dsimp only [Device.commandCommit]
  repeat' split
  all_goals with_reducible repeat' (first | exact hb | apply Device.commitGroup_flg | apply Device.endCommand_flg | apply Device.commitEntry_flg | apply Device.formatFinish_flg | apply Device.commitUserRecord_flg | apply Device.output_flg | apply (Device.mk_flg ..).mpr)

theorem Device.commandFault_flg (fl : Flags) (c : Ctx) (d : Device) (w : Writer) (hb : d.over fl) :
    (Device.commandFault c d w).over fl := by
  dsimp only [Device.commandFault]
  repeat' split
  all_goals with_reducible repeat' (first | exact hb | apply Device.commandPowerEnd_flg | apply Device.commandFails_flg | apply Device.commandPlace_flg)

theorem Device.commandOpened_flg (fl : Flags) (c : Ctx) (d : Device) (x : Executing) (w : Writer) (b : BankId) (epoch : Nat) (o : ProgramOutcome) (hb : d.over fl) :
    (Device.commandOpened c d x w b epoch o).over fl := by
  dsimp only [Device.commandOpened]
  repeat' split
  all_goals with_reducible repeat' (first | exact hb | apply Device.openSucceeded_flg | apply Device.commandReserve_flg | apply Device.openFaulted_flg | apply Device.commandFault_flg)

theorem Device.commandLine_flg (fl : Flags) (c : Ctx) (d : Device) (x : Executing) (w : Writer) (r : Reservation) (o : ProgramOutcome) (hb : d.over fl) :
    (Device.commandLine c d x w r o).over fl := by
  dsimp only [Device.commandLine]
  repeat' split
  all_goals with_reducible repeat' (first | exact hb | apply Device.formatPowerEnd_flg | apply Device.setStage_flg | apply Device.request_flg | apply Device.faultBank_flg | apply Device.commandCommit_flg | apply Device.abandonSpan_flg | apply Device.commandFault_flg)

theorem Device.commandRefused_flg (fl : Flags) (d : Device) (hb : d.over fl) :
    (Device.commandRefused d).over fl := by
  dsimp only [Device.commandRefused]
  repeat' split
  all_goals with_reducible repeat' (first | exact hb | apply Device.commandPowerEnd_flg | apply Device.abandonSpan_flg | apply (Device.mk_flg ..).mpr)

/-! ## FormatWork.lean -/

theorem Device.formatTaken_flg (fl : Flags) (d : Device) (hb : d.over fl) :
    (Device.formatTaken d).over fl := hb

theorem Device.formatHeaderOf_flg (fl : Flags) (d : Device) (f : FormatProgress) (b : BankId) (again : Bool) (hb : d.over fl) :
    (Device.formatHeaderOf d f b again).over fl := hb

theorem Device.formatEraseOf_flg (fl : Flags) (d : Device) (b : BankId) (again : Bool) (hb : d.over fl) :
    (Device.formatEraseOf d b again).over fl := hb

theorem Device.formatBank_flg (fl : Flags) (d : Device) (f : FormatProgress) (b : BankId) (hb : d.over fl) :
    (Device.formatBank d f b).over fl := by
  dsimp only [Device.formatBank]
  repeat' split
  all_goals with_reducible repeat' (first | exact hb | apply Device.formatHeaderOf_flg | apply Device.formatEraseOf_flg)

theorem Device.formatTables_flg (fl : Flags) (d : Device) (hb : d.over fl) :
    (Device.formatTables d).over fl := hb

theorem Device.formatMap_flg (fl : Flags) (c : Ctx) (d : Device) (hb : d.over fl) :
    (Device.formatMap c d).over fl := by
  dsimp only [Device.formatMap]
  repeat' split
  all_goals with_reducible repeat' (first | exact hb | apply Device.formatTables_flg | apply Device.formatFinish_flg | apply Device.degrade_flg | apply Device.commandPlace_flg)

theorem Device.formatNext_flg (fl : Flags) (c : Ctx) (d : Device) (f : FormatProgress) (hb : d.over fl) :
    (Device.formatNext c d f).over fl := by
  dsimp only [Device.formatNext]
  repeat' split
  all_goals with_reducible repeat' (first | exact hb | apply Device.formatMap_flg | apply Device.mapFormat_flg | apply Device.formatBank_flg)

theorem Device.formatChoose_flg (fl : Flags) (d : Device) (f : FormatProgress) (hb : d.over fl) :
    (Device.formatChoose d f).over fl := by
  dsimp only [Device.formatChoose]
  repeat' split
  all_goals with_reducible repeat' (first | exact hb | apply Device.formatBank_flg | apply Device.formatFinish_flg)

theorem Device.unlist_flg (fl : Flags) (d : Device) (b : BankId) (hb : d.over fl) :
    (Device.unlist d b).over fl := hb

theorem Device.formatFailed_flg (fl : Flags) (c : Ctx) (d : Device) (f : FormatProgress) (b : BankId) (again : Bool) (hb : d.over fl) :
    (Device.formatFailed c d f b again).over fl := by
  dsimp only [Device.formatFailed]
  repeat' split
  all_goals with_reducible repeat' (first | exact hb | apply Device.emptyInto_flg | apply Device.unlist_flg | apply Device.formatNext_flg | apply Device.formatChoose_flg | apply Device.formatEraseOf_flg)

theorem Device.formatFreed_flg (fl : Flags) (c : Ctx) (d : Device) (f : FormatProgress) (b : BankId) (count : Nat) (hb : d.over fl) :
    (Device.formatFreed c d f b count).over fl := by
  dsimp only [Device.formatFreed]
  repeat' split
  all_goals with_reducible repeat' (first | exact hb | apply Device.makeFree_flg | apply Device.unlist_flg | apply Device.formatNext_flg | apply Device.mapFormat_flg | apply (Device.mk_flg ..).mpr)

theorem Device.formatErased_flg (fl : Flags) (c : Ctx) (d : Device) (f : FormatProgress) (b : BankId) (again ok : Bool) (hb : d.over fl) :
    (Device.formatErased c d f b again ok).over fl := by
  dsimp only [Device.formatErased]
  repeat' split
  all_goals with_reducible repeat' (first | exact hb | apply Device.formatPowerEnd_flg | apply Device.formatHeaderOf_flg | apply Device.formatFailed_flg)

theorem Device.formatHeadered_flg (fl : Flags) (c : Ctx) (d : Device) (f : FormatProgress) (b : BankId) (again : Bool) (count : Nat) (o : ProgramOutcome) (hb : d.over fl) :
    (Device.formatHeadered c d f b again count o).over fl := by
  dsimp only [Device.formatHeadered]
  repeat' split
  all_goals with_reducible repeat' (first | exact hb | apply Device.formatPowerEnd_flg | apply Device.formatFreed_flg | apply Device.markSuspect_flg | apply Device.formatFailed_flg)

theorem Device.haltForFormat_flg (fl : Flags) (d : Device) (hb : d.over fl) :
    (Device.haltForFormat d).over fl := by
  dsimp only [Device.haltForFormat]
  repeat' split
  all_goals with_reducible repeat' (first | exact hb | apply Device.setJob_flg)

theorem Device.formatWaits_flg (fl : Flags) (d : Device) (f : FormatProgress) (hb : d.over fl) :
    (Device.formatWaits d f).over fl := by
  dsimp only [Device.formatWaits]
  repeat' split
  all_goals with_reducible repeat' (first | exact hb | apply Device.haltForFormat_flg | apply Device.formatChoose_flg)

/-! ## CommandReads.lean -/

theorem Device.readDone_flg (fl : Flags) (d : Device) (x : Executing) (payload : Option (List Byte)) (hb : d.over fl) :
    (Device.readDone d x payload).over fl := by
  dsimp only [Device.readDone]
  repeat' split
  all_goals with_reducible repeat' (first | exact hb | apply Device.output_flg | apply Device.endCommand_flg | apply Device.damageEntry_flg)

theorem Device.damageCounter_flg (fl : Flags) (d : Device) (x : Executing) (loc : Location) (hb : d.over fl) :
    (Device.damageCounter d x loc).over fl := by
  dsimp only [Device.damageCounter]
  repeat' split
  all_goals with_reducible repeat' (first | exact hb | apply Device.damageMember_flg | apply Device.damageEntry_flg)

theorem Device.addDone_flg (fl : Flags) (c : Ctx) (d : Device) (x : Executing) (loc : Location) (payload : Option (List Byte)) (hb : d.over fl) :
    (Device.addDone c d x loc payload).over fl := by
  dsimp only [Device.addDone]
  repeat' split
  all_goals with_reducible repeat' (first | exact hb | apply Device.damageCounter_flg | apply Device.endCommand_flg | apply Device.commandPowerEnd_flg | apply Device.commandPlace_flg)

theorem Device.commandRead_flg (fl : Flags) (c : Ctx) (d : Device) (lines : List Line) (hb : d.over fl) :
    (Device.commandRead c d lines).over fl := by
  dsimp only [Device.commandRead]
  repeat' split
  all_goals with_reducible repeat' (first | exact hb | apply Device.addDone_flg | apply Device.readDone_flg)

/-! ## Commands.lean -/

theorem Device.startRead_flg (fl : Flags) (d : Device) (x : Executing) (hb : d.over fl) :
    (Device.startRead d x).over fl := by
  dsimp only [Device.startRead]
  repeat' split
  all_goals with_reducible repeat' (first | exact hb | apply Device.endCommand_flg | apply Device.setStage_flg | apply Device.request_flg)

theorem Device.startWrite_flg (fl : Flags) (c : Ctx) (d : Device) (x : Executing) (payload : List Byte) (hb : d.over fl) :
    (Device.startWrite c d x payload).over fl := by
  dsimp only [Device.startWrite]
  repeat' split
  all_goals with_reducible repeat' (first | exact hb | apply Device.endCommand_flg | apply Device.commandPlace_flg)

theorem Device.startDelete_flg (fl : Flags) (c : Ctx) (d : Device) (x : Executing) (hb : d.over fl) :
    (Device.startDelete c d x).over fl := by
  dsimp only [Device.startDelete]
  repeat' split
  all_goals with_reducible repeat' (first | exact hb | apply Device.endCommand_flg | apply Device.commandPlace_flg)

theorem Device.startAdd_flg (fl : Flags) (c : Ctx) (d : Device) (x : Executing) (hb : d.over fl) :
    (Device.startAdd c d x).over fl := by
  dsimp only [Device.startAdd]
  repeat' split
  all_goals with_reducible repeat' (first | exact hb | apply Device.endCommand_flg | apply Device.setStage_flg | apply Device.request_flg | apply Device.commandPlace_flg)

theorem Device.startList_flg (fl : Flags) (d : Device) (x : Executing) (hb : d.over fl) :
    (Device.startList d x).over fl := by
  dsimp only [Device.startList]
  all_goals with_reducible repeat' (first | exact hb | apply Device.output_flg | apply Device.endCommand_flg)

theorem Device.openGroup_flg (fl : Flags) (d : Device) (timeout : Nat) (hb : d.over fl) :
    (Device.openGroup d timeout).over fl := hb

theorem Device.startOpenGroup_flg (fl : Flags) (c : Ctx) (d : Device) (x : Executing) (timeout : Nat) (hb : d.over fl) :
    (Device.startOpenGroup c d x timeout).over fl := by
  dsimp only [Device.startOpenGroup]
  repeat' split
  all_goals with_reducible repeat' (first | exact hb | apply Device.endCommand_flg | apply Device.openGroup_flg | apply Device.degrade_flg | apply (Device.mk_flg ..).mpr)

theorem Device.closeGroup_flg (fl : Flags) (d : Device) (code : CommandCode) (hb : d.over fl) : (Device.closeGroup d code).over fl := by
  unfold Device.closeGroup
  split
  · exact Device.mapGroup_flg fl _ _ hb
  · exact hb

theorem Device.startCommitGroup_flg (fl : Flags) (c : Ctx) (d : Device) (hb : d.over fl) :
    (Device.startCommitGroup c d).over fl := by
  dsimp only [Device.startCommitGroup]
  repeat' split
  all_goals with_reducible repeat' (first | exact hb | apply Device.endCommand_flg | apply Device.mapGroup_flg | apply Device.commandPlace_flg | apply (Device.mk_flg ..).mpr)

theorem Device.startDropGroup_flg (fl : Flags) (d : Device) (hb : d.over fl) :
    (Device.startDropGroup d).over fl := by
  dsimp only [Device.startDropGroup]
  repeat' split
  all_goals with_reducible repeat' (first | exact hb | apply Device.endCommand_flg | apply Device.endGroup_flg)

theorem Device.startReclaim_flg (fl : Flags) (c : Ctx) (d : Device) (x : Executing) (hb : d.over fl) :
    (Device.startReclaim c d x).over fl := by
  dsimp only [Device.startReclaim]
  repeat' split
  all_goals with_reducible repeat' (first | exact hb | apply Device.endCommand_flg | apply Device.mapReclaim_flg | apply Device.request_flg | apply Device.setStage_flg)

theorem Device.startFormat_flg (fl : Flags) (c : Ctx) (d : Device) (hb : d.over fl) :
    (Device.startFormat c d).over fl := by
  dsimp only [Device.startFormat]
  repeat' split
  all_goals with_reducible repeat' (first | exact hb | apply Device.endCommand_flg | apply Device.formatPowerEnd_flg | apply Device.formatTaken_flg)

theorem Device.startRaiseLock_flg (fl : Flags) (c : Ctx) (d : Device) (x : Executing) (hb : d.over fl) :
    (Device.startRaiseLock c d x).over fl := by
  dsimp only [Device.startRaiseLock]
  repeat' split
  all_goals with_reducible repeat' (first | exact hb | apply Device.endCommand_flg | apply Device.setStage_flg | apply Device.commandPlace_flg)

theorem Device.startCommand_flg (fl : Flags) (c : Ctx) (d : Device) (x : Executing) (t : Taken) (hb : d.over fl) :
    (Device.startCommand c d x t).over fl := by
  dsimp only [Device.startCommand]
  repeat' split
  all_goals with_reducible repeat' (first | exact hb | apply Device.startRead_flg | apply Device.startWrite_flg | apply Device.startDelete_flg | apply Device.startAdd_flg | apply Device.startList_flg | apply Device.openGroup_flg | apply Device.startOpenGroup_flg | apply Device.commitGroup_flg | apply Device.startCommitGroup_flg | apply Device.startDropGroup_flg | apply Device.startReclaim_flg | apply Device.startFormat_flg | apply Device.startRaiseLock_flg)

theorem Device.takeHead_flg (fl : Flags) (c : Ctx) (d : Device) (hb : d.over fl) : (d.takeHead c).over fl := by
  dsimp only [Device.takeHead]
  repeat' split
  all_goals with_reducible repeat' (first | exact hb | apply Device.endCommand_flg | apply Device.closeGroup_flg | apply (Device.mk_flg ..).mpr)

theorem Device.makeStep_flg (fl : Flags) (c : Ctx) (d : Device) (hb : d.over fl) : (d.makeStep c).over fl := by
  dsimp only [Device.makeStep]
  repeat' split
  all_goals first | exact hb | exact Device.startCommand_flg fl _ _ _ _ hb

theorem Device.takeCommand_flg (fl : Flags) (c : Ctx) (d : Device) (hb : d.over fl) : (Device.takeCommand c d).over fl :=
  Device.makeStep_flg fl _ _ (Device.takeHead_flg fl _ _ hb)

/-! ## ReclaimRecord.lean -/

theorem Device.setWriter_flg (fl : Flags) (d : Device) (w : Writer) (hb : d.over fl) :
    (Device.setWriter d w).over fl := hb

theorem Device.answerReclaim_flg (fl : Flags) (d : Device) (status : Status) (result : Nat) (hb : d.over fl) :
    (Device.answerReclaim d status result).over fl := by
  dsimp only [Device.answerReclaim]
  repeat' split
  all_goals with_reducible repeat' (first | exact hb | apply Device.request_flg | apply Device.mapReclaim_flg | apply Device.endCommand_flg)

theorem Device.reclaimHalt_flg (fl : Flags) (c : Ctx) (d : Device) (hb : d.over fl) :
    (Device.reclaimHalt c d).over fl := by
  dsimp only [Device.reclaimHalt]
  repeat' split
  all_goals with_reducible repeat' (first | exact hb | apply Device.setJob_flg | apply Device.degrade_flg | apply Device.answerReclaim_flg)

theorem Device.reclaimCannot_flg (fl : Flags) (c : Ctx) (d : Device) (hb : d.over fl) :
    (Device.reclaimCannot c d).over fl := by
  dsimp only [Device.reclaimCannot]
  repeat' split
  all_goals with_reducible repeat' (first | exact hb | apply Device.reclaimHalt_flg | apply Device.setJob_flg | apply Device.degrade_flg | apply Device.mapReclaim_flg)

theorem Device.reclaimOutOfSequences_flg (fl : Flags) (d : Device) (hb : d.over fl) :
    (Device.reclaimOutOfSequences d).over fl := by
  dsimp only [Device.reclaimOutOfSequences]
  repeat' split
  all_goals with_reducible repeat' (first | exact hb | apply Device.mapReclaim_flg | apply Device.setJob_flg | apply Device.degrade_flg)

theorem Device.reclaimReserve_flg (fl : Flags) (d : Device) (w : Writer) (b : BankId) (hb : d.over fl) :
    (Device.reclaimReserve d w b).over fl := by
  dsimp only [Device.reclaimReserve]
  split
  · exact Device.request_flg fl _ _ _ (Device.setWriter_flg fl _ _ (Device.reserve_flg fl d w b hb))
  · exact Device.reclaimOutOfSequences_flg fl d hb

theorem Device.reclaimOpen_flg (fl : Flags) (c : Ctx) (d : Device) (w : Writer) (b : BankId) (hb : d.over fl) :
    (Device.reclaimOpen c d w b).over fl := by
  dsimp only [Device.reclaimOpen]
  repeat' split
  all_goals with_reducible repeat' (first | exact hb | apply Device.setWriter_flg | apply Device.beginOpen_flg | apply Device.epochExhausted_flg | apply Device.reclaimCannot_flg)

theorem Device.reclaimPlace_flg (fl : Flags) (c : Ctx) (d : Device) (w : Writer) (hb : d.over fl) :
    (Device.reclaimPlace c d w).over fl := by
  dsimp only [Device.reclaimPlace]
  repeat' split
  all_goals with_reducible repeat' (first | exact hb | apply Device.reclaimOutOfSequences_flg | apply Device.reclaimReserve_flg | apply Device.setWriter_flg | apply Device.reclaimOpen_flg | apply Device.reclaimCannot_flg)

theorem Device.reclaimFault_flg (fl : Flags) (c : Ctx) (d : Device) (w : Writer) (hb : d.over fl) :
    (Device.reclaimFault c d w).over fl := by
  dsimp only [Device.reclaimFault]
  repeat' split
  all_goals with_reducible repeat' (first | exact hb | apply Device.reclaimCannot_flg | apply Device.setWriter_flg | apply Device.reclaimPlace_flg)

theorem Device.reclaimOpened_flg (fl : Flags) (c : Ctx) (d : Device) (w : Writer) (b : BankId) (epoch : Nat) (o : ProgramOutcome) (hb : d.over fl) :
    (Device.reclaimOpened c d w b epoch o).over fl := by
  dsimp only [Device.reclaimOpened]
  repeat' split
  all_goals with_reducible repeat' (first | exact hb | apply Device.openSucceeded_flg | apply Device.reclaimReserve_flg | apply Device.openFaulted_flg | apply Device.reclaimFault_flg)

theorem Device.reclaimAbandon_flg (fl : Flags) (d : Device) (w : Writer) (hb : d.over fl) :
    (Device.reclaimAbandon d w).over fl := by
  dsimp only [Device.reclaimAbandon]
  repeat' split
  all_goals with_reducible repeat' (first | exact hb | apply Device.abandonSpan_flg | apply (Device.mk_flg ..).mpr)

theorem Device.eraseHeld_flg (fl : Flags) (d : Device) (b : BankId) (hb : d.over fl) :
    (Device.eraseHeld d b).over fl := hb

theorem Device.reclaimRefused_flg (fl : Flags) (d : Device) (hb : d.over fl) :
    (Device.reclaimRefused d).over fl := by
  dsimp only [Device.reclaimRefused]
  repeat' split
  all_goals with_reducible repeat' (first | exact hb | apply Device.eraseHeld_flg | apply Device.setJob_flg | apply Device.reclaimAbandon_flg | apply Device.mapReclaim_flg)

/-! ## CopyWalk.lean -/

theorem Device.entryUnlocated_flg (fl : Flags) (d : Device) (k : Key) (hb : d.over fl) :
    (Device.entryUnlocated d k).over fl := by
  dsimp only [Device.entryUnlocated]
  repeat' split
  all_goals with_reducible repeat' (first | exact hb | apply Device.putEntry_flg)

theorem Device.memberUnlocated_flg (fl : Flags) (d : Device) (k : Key) (hb : d.over fl) :
    (Device.memberUnlocated d k).over fl := hb

theorem Device.advanceCursor_flg (fl : Flags) (d : Device) (hb : d.over fl) :
    (Device.advanceCursor d).over fl := hb

theorem Device.beginRetire_flg (fl : Flags) (d : Device) (v : Victim) (hb : d.over fl) :
    (Device.beginRetire d v).over fl := hb

theorem Device.beginCopyRead_flg (fl : Flags) (d : Device) (v : Victim) (r : WalkRecord) (owner : CopyOwner) (hb : d.over fl) :
    (Device.beginCopyRead d v r owner).over fl := hb

theorem Device.walkOn_flg (fl : Flags) (v : Victim) (l : List WalkRecord) (d : Device) (hb : d.over fl) :
    (Device.walkOn v l d).over fl := by
  induction l generalizing d with
  | nil => exact Device.beginRetire_flg fl d v hb
  | cons r l ih =>
    unfold Device.walkOn
    split
    · exact Device.beginCopyRead_flg fl _ _ _ _ hb
    · exact ih _ (Device.advanceCursor_flg fl _ hb)
    · exact ih _ (Device.advanceCursor_flg fl _ (Device.entryUnlocated_flg fl _ _ hb))
    · exact ih _ (Device.advanceCursor_flg fl _ (Device.memberUnlocated_flg fl _ _ hb))

theorem Device.walk_flg (fl : Flags) (d : Device) (hb : d.over fl) :
    (Device.walk d).over fl := by
  dsimp only [Device.walk]
  repeat' split
  all_goals with_reducible repeat' (first | exact hb | apply Device.walkOn_flg)

theorem Device.planned_flg (fl : Flags) (c : Ctx) (d : Device) (lines : List Line) (hb : d.over fl) :
    (Device.planned c d lines).over fl := by
  dsimp only [Device.planned]
  repeat' split
  all_goals with_reducible repeat' (first | exact hb | apply Device.setJob_flg | apply Device.walk_flg | apply (Device.mk_flg ..).mpr)

theorem Device.entryFoundDamaged_flg (fl : Flags) (d : Device) (k : Key) (loc : Location) (hb : d.over fl) :
    (Device.entryFoundDamaged d k loc).over fl := by
  dsimp only [Device.entryFoundDamaged]
  repeat' split
  all_goals with_reducible repeat' (first | exact hb | apply Device.damageEntry_flg | apply Device.entryUnlocated_flg | apply Device.mapReclaim_flg)

theorem Device.memberFoundDamaged_flg (fl : Flags) (d : Device) (k : Key) (loc : Location) (hb : d.over fl) :
    (Device.memberFoundDamaged d k loc).over fl := by
  dsimp only [Device.memberFoundDamaged]
  repeat' split
  all_goals with_reducible repeat' (first | exact hb | apply Device.damageMember_flg | apply Device.memberUnlocated_flg)

theorem Device.beginCopy_flg (fl : Flags) (c : Ctx) (d : Device) (r : WalkRecord) (owner : CopyOwner) (payload : List Byte) (hb : d.over fl) :
    (Device.beginCopy c d r owner payload).over fl := by
  dsimp only [Device.beginCopy]
  all_goals with_reducible repeat' (first | exact hb | apply Device.setJob_flg | apply Device.reclaimPlace_flg)

theorem Device.rebuildCommit_flg (fl : Flags) (c : Ctx) (d : Device) (r : WalkRecord) (loc : Location) (hb : d.over fl) :
    (Device.rebuildCommit c d r loc).over fl := by
  dsimp only [Device.rebuildCommit]
  repeat' split
  all_goals with_reducible repeat' (first | exact hb | apply Device.beginCopy_flg | apply Device.advanceCursor_flg | apply Device.walk_flg)

theorem Device.copyFoundDamaged_flg (fl : Flags) (c : Ctx) (d : Device) (v : Victim) (r : WalkRecord) (hb : d.over fl) :
    (Device.copyFoundDamaged c d v r).over fl := by
  dsimp only [Device.copyFoundDamaged]
  all_goals with_reducible repeat' (first | exact hb | apply Device.markWalkDamaged_flg | apply Device.entryFoundDamaged_flg | apply Device.advanceCursor_flg | apply Device.walk_flg | apply Device.memberFoundDamaged_flg | apply Device.rebuildCommit_flg)

theorem Device.copyReadDone_flg (fl : Flags) (c : Ctx) (d : Device) (owner : CopyOwner) (lines : List Line) (hb : d.over fl) :
    (Device.copyReadDone c d owner lines).over fl := by
  dsimp only [Device.copyReadDone]
  repeat' split
  all_goals with_reducible repeat' (first | exact hb | apply Device.walk_flg | apply Device.beginCopy_flg | apply Device.copyFoundDamaged_flg)

theorem Device.copyVerified_flg (fl : Flags) (d : Device) (v : Victim) (cj : CopyJob) (r : Reservation) (hb : d.over fl) :
    (Device.copyVerified d v cj r).over fl := by
  dsimp only [Device.copyVerified]
  repeat' split
  all_goals with_reducible repeat' (first | exact hb | apply Device.copyTakesOver_flg | apply Device.memberCopyVerifies_flg | apply Device.commitCopyVerifies_flg)

theorem Device.reclaimCommit_flg (fl : Flags) (d : Device) (w : Writer) (r : Reservation) (hb : d.over fl) :
    (Device.reclaimCommit d w r).over fl := by
  dsimp only [Device.reclaimCommit]
  repeat' split
  all_goals with_reducible repeat' (first | exact hb | apply Device.commitEntry_flg | apply Device.setJob_flg | apply Device.mapReclaim_flg | apply Device.copyVerified_flg | apply Device.advanceCursor_flg | apply Device.walk_flg)

theorem Device.reclaimLine_flg (fl : Flags) (c : Ctx) (d : Device) (w : Writer) (r : Reservation) (o : ProgramOutcome) (hb : d.over fl) :
    (Device.reclaimLine c d w r o).over fl := by
  dsimp only [Device.reclaimLine]
  repeat' split
  all_goals with_reducible repeat' (first | exact hb | apply Device.setWriter_flg | apply Device.request_flg | apply Device.faultBank_flg | apply Device.reclaimCommit_flg | apply Device.abandonSpan_flg | apply Device.reclaimFault_flg)

theorem Device.retireRecord_flg (fl : Flags) (d : Device) (bank : BankId) (r : WalkRecord) (hb : d.over fl) :
    (Device.retireRecord d bank r).over fl := by
  dsimp only [Device.retireRecord]
  repeat' split
  all_goals with_reducible repeat' (first | exact hb | apply Device.putEntry_flg)

theorem Device.tombstoneDead_flg (fl : Flags) (d : Device) (victim : BankId) (e : DirEntry) (hb : d.over fl) :
    (Device.tombstoneDead d victim e).over fl := by
  dsimp only [Device.tombstoneDead]
  repeat' split
  all_goals with_reducible repeat' (first | exact hb | apply Device.addDead_flg)

theorem Device.retireDirectory_flg (fl : Flags) (d : Device) (bank : BankId) (valid : List WalkRecord) (hb : d.over fl) :
    (Device.retireDirectory d bank valid).over fl := by
  dsimp only [Device.retireDirectory]
  apply Device.foldl_flg fl _ fun d e => Device.tombstoneDead_flg fl d bank e
  exact Device.foldl_flg fl _ (fun d r => Device.retireRecord_flg fl d bank r) valid d hb

theorem Device.retireGroup_flg (fl : Flags) (d : Device) (bank : BankId) (walk : List WalkRecord) (hb : d.over fl) :
    (Device.retireGroup d bank walk).over fl := hb

theorem Device.retireCommits_flg (fl : Flags) (d : Device) (bank : BankId) (valid : List WalkRecord) (hb : d.over fl) :
    (Device.retireCommits d bank valid).over fl := by
  dsimp only [Device.retireCommits]
  exact Device.foldl_flg fl _ (fun d (c : CommitEntry) => Device.addDead_flg fl d c.loc.bank 3) _ _ hb

theorem Device.retired_flg (fl : Flags) (d : Device) (v : Victim) (hb : d.over fl) :
    (Device.retired d v).over fl := by
  dsimp only [Device.retired]
  repeat' split
  all_goals with_reducible repeat' (first | exact hb | apply Device.emptyInto_flg | apply Device.mapReclaim_flg | apply Device.walk_flg | apply Device.retireDirectory_flg | apply Device.retireGroup_flg | apply Device.retireCommits_flg | apply Device.request_flg | apply Device.answerReclaim_flg)

theorem Device.retireOutcome_flg (fl : Flags) (c : Ctx) (d : Device) (o : ProgramOutcome) (hb : d.over fl) :
    (Device.retireOutcome c d o).over fl := by
  dsimp only [Device.retireOutcome]
  repeat' split
  all_goals with_reducible repeat' (first | exact hb | apply Device.retired_flg | apply Device.markSuspect_flg | apply Device.reclaimHalt_flg)

/-! ## ReclaimWork.lean -/

theorem Device.decideMap_flg (fl : Flags) (c : Ctx) (d : Device) (hb : d.over fl) :
    (Device.decideMap c d).over fl := by
  dsimp only [Device.decideMap]
  repeat' split
  all_goals with_reducible repeat' (first | exact hb | apply Device.setJob_flg | apply Device.degrade_flg | apply Device.reclaimPlace_flg)

theorem Device.takeMap_flg (fl : Flags) (c : Ctx) (d : Device) (hb : d.over fl) :
    (Device.takeMap c d).over fl := by
  dsimp only [Device.takeMap]
  all_goals with_reducible repeat' (first | exact hb | apply Device.mapReclaim_flg | apply Device.decideMap_flg)

theorem Device.beginBlankHeader_flg (fl : Flags) (d : Device) (b : BankId) (hb : d.over fl) :
    (Device.beginBlankHeader d b).over fl := hb

theorem Device.blankHeaderDone_flg (fl : Flags) (d : Device) (b : BankId) (count : Nat) (o : ProgramOutcome) (hb : d.over fl) :
    (Device.blankHeaderDone d b count o).over fl := by
  dsimp only [Device.blankHeaderDone]
  repeat' split
  all_goals with_reducible repeat' (first | exact hb | apply Device.makeFree_flg | apply Device.setJob_flg | apply Device.emptyInto_flg | apply Device.retired_flg | apply Device.markSuspect_flg | apply Device.mapReclaim_flg)

theorem Device.beginErase_flg (fl : Flags) (d : Device) (b : BankId) (rest : List BankId) (hb : d.over fl) :
    (Device.beginErase d b rest).over fl := hb

theorem Device.eraseFailed_flg (fl : Flags) (c : Ctx) (d : Device) (b : BankId) (hb : d.over fl) :
    (Device.eraseFailed c d b).over fl := by
  dsimp only [Device.eraseFailed]
  repeat' split
  all_goals with_reducible repeat' (first | exact hb | apply Device.mapReclaim_flg | apply Device.request_flg | apply Device.emptyInto_flg | apply Device.decideMap_flg)

theorem Device.eraseDone_flg (fl : Flags) (c : Ctx) (d : Device) (b : BankId) (ok : Bool) (hb : d.over fl) :
    (Device.eraseDone c d b ok).over fl := by
  dsimp only [Device.eraseDone]
  repeat' split
  all_goals with_reducible repeat' (first | exact hb | apply Device.setJob_flg | apply Device.request_flg | apply Device.eraseFailed_flg)

theorem Device.eraseHeaderDone_flg (fl : Flags) (c : Ctx) (d : Device) (b : BankId) (count : Nat) (o : ProgramOutcome) (hb : d.over fl) :
    (Device.eraseHeaderDone c d b count o).over fl := by
  dsimp only [Device.eraseHeaderDone]
  repeat' split
  all_goals with_reducible repeat' (first | exact hb | apply Device.makeFree_flg | apply Device.mapReclaim_flg | apply Device.markSuspect_flg | apply Device.eraseFailed_flg)

theorem Device.beginVictim_flg (fl : Flags) (d : Device) (b : BankId) (forRequest : Bool) (hb : d.over fl) :
    (Device.beginVictim d b forRequest).over fl := hb

theorem Device.resumeVictim_flg (fl : Flags) (d : Device) (v : Victim) (hb : d.over fl) :
    (Device.resumeVictim d v).over fl := by
  dsimp only [Device.resumeVictim]
  repeat' split
  all_goals with_reducible repeat' (first | exact hb | apply Device.setJob_flg | apply Device.request_flg | apply Device.walk_flg | apply Device.beginRetire_flg)

theorem Device.answerNone_flg (fl : Flags) (d : Device) (hb : d.over fl) :
    (Device.answerNone d).over fl := by
  dsimp only [Device.answerNone]
  repeat' split
  all_goals with_reducible repeat' (first | exact hb | apply Device.request_flg | apply Device.answerReclaim_flg)

theorem Device.reportNoSpace_flg (fl : Flags) (d : Device) (hb : d.over fl) :
    (Device.reportNoSpace d).over fl := by
  dsimp only [Device.reportNoSpace]
  repeat' split
  all_goals with_reducible repeat' (first | exact hb | apply Device.endCommand_flg)

theorem Device.beginRepair_flg (fl : Flags) (c : Ctx) (d : Device) (hb : d.over fl) :
    (Device.beginRepair c d).over fl := by
  dsimp only [Device.beginRepair]
  all_goals with_reducible repeat' (first | exact hb | apply Device.setJob_flg | apply Device.reclaimPlace_flg)

theorem Device.takeVictim_flg (fl : Flags) (c : Ctx) (d : Device) (hb : d.over fl) :
    (Device.takeVictim c d).over fl := by
  dsimp only [Device.takeVictim]
  repeat' split
  all_goals with_reducible repeat' (first | exact hb | apply Device.resumeVictim_flg | apply Device.answerNone_flg | apply Device.beginVictim_flg | apply Device.reportNoSpace_flg)

theorem Device.takeErase_flg (fl : Flags) (c : Ctx) (d : Device) (hb : d.over fl) :
    (Device.takeErase c d).over fl := by
  dsimp only [Device.takeErase]
  repeat' split
  all_goals with_reducible repeat' (first | exact hb | apply Device.beginBlankHeader_flg | apply Device.beginErase_flg | apply Device.takeVictim_flg)

theorem Device.takeRepair_flg (fl : Flags) (c : Ctx) (d : Device) (hb : d.over fl) :
    (Device.takeRepair c d).over fl := by
  dsimp only [Device.takeRepair]
  repeat' split
  all_goals with_reducible repeat' (first | exact hb | apply Device.mapReclaim_flg | apply Device.takeErase_flg | apply Device.beginRepair_flg)

theorem Device.takeWork_flg (fl : Flags) (c : Ctx) (d : Device) (hb : d.over fl) :
    (Device.takeWork c d).over fl := by
  dsimp only [Device.takeWork]
  repeat' split
  all_goals with_reducible repeat' (first | exact hb | apply Device.resumeVictim_flg | apply Device.takeMap_flg | apply Device.takeRepair_flg)

theorem Device.reclaimProgrammed_flg (fl : Flags) (c : Ctx) (d : Device) (o : ProgramOutcome) (hb : d.over fl) :
    (Device.reclaimProgrammed c d o).over fl := by
  dsimp only [Device.reclaimProgrammed]
  repeat' split
  all_goals with_reducible repeat' (first | exact hb | apply Device.eraseHeaderDone_flg | apply Device.blankHeaderDone_flg | apply Device.retireOutcome_flg | apply Device.reclaimOpened_flg | apply Device.reclaimLine_flg)

theorem Device.reclaimRead_flg (fl : Flags) (c : Ctx) (d : Device) (lines : List Line) (hb : d.over fl) :
    (Device.reclaimRead c d lines).over fl := by
  dsimp only [Device.reclaimRead]
  repeat' split
  all_goals with_reducible repeat' (first | exact hb | apply Device.planned_flg | apply Device.copyReadDone_flg)

theorem Device.reclaimErased_flg (fl : Flags) (c : Ctx) (d : Device) (ok : Bool) (hb : d.over fl) :
    (Device.reclaimErased c d ok).over fl := by
  dsimp only [Device.reclaimErased]
  repeat' split
  all_goals with_reducible repeat' (first | exact hb | apply Device.eraseDone_flg)

/-! ## Settle.lean -/

theorem Device.refuseWaiting_flg (fl : Flags) (c : Ctx) (d : Device) (hb : d.over fl) :
    (Device.refuseWaiting c d).over fl := by
  dsimp only [Device.refuseWaiting]
  repeat' split
  all_goals with_reducible repeat' (first | exact hb | apply Device.commandRefused_flg | apply Device.reclaimRefused_flg | apply Device.stopMount_flg | apply (Device.mk_flg ..).mpr)

theorem Device.wakeReclaim_flg (fl : Flags) (c : Ctx) (d : Device) (hb : d.over fl) :
    (Device.wakeReclaim c d).over fl := by
  dsimp only [Device.wakeReclaim]
  repeat' split
  all_goals with_reducible repeat' (first | exact hb | apply Device.reclaimPlace_flg)

theorem Device.wakeCommand_flg (fl : Flags) (c : Ctx) (d : Device) (hb : d.over fl) :
    (Device.wakeCommand c d).over fl := by
  dsimp only [Device.wakeCommand]
  repeat' split
  all_goals with_reducible repeat' (first | exact hb | apply Device.commandPlace_flg | apply Device.startRaiseLock_flg | apply Device.formatWaits_flg)

theorem Device.settle_flg (fl : Flags) (c : Ctx) (d : Device) (hb : d.over fl) :
    (Device.settle c d).over fl := by
  dsimp only [Device.settle]
  all_goals with_reducible repeat' (first | exact hb | apply Device.refuseWaiting_flg | apply Device.wakeReclaim_flg | apply Device.wakeCommand_flg | apply Device.arbitrate_flg)

theorem Device.commandProgrammed_flg (fl : Flags) (c : Ctx) (d : Device) (o : ProgramOutcome) (hb : d.over fl) :
    (Device.commandProgrammed c d o).over fl := by
  dsimp only [Device.commandProgrammed]
  repeat' split
  all_goals with_reducible repeat' (first | exact hb | apply Device.commandOpened_flg | apply Device.commandLine_flg | apply Device.formatHeadered_flg)

theorem Device.commandErased_flg (fl : Flags) (c : Ctx) (d : Device) (ok : Bool) (hb : d.over fl) :
    (Device.commandErased c d ok).over fl := by
  dsimp only [Device.commandErased]
  repeat' split
  all_goals with_reducible repeat' (first | exact hb | apply Device.formatErased_flg)

theorem Device.programmed_flg (fl : Flags) (c : Ctx) (d : Device) (who : Requester) (o : ProgramOutcome) (hb : d.over fl) :
    (Device.programmed c d who o).over fl := by
  dsimp only [Device.programmed]
  repeat' split
  all_goals with_reducible repeat' (first | exact hb | apply Device.commandProgrammed_flg | apply Device.reclaimProgrammed_flg)

theorem Device.readLines_flg (fl : Flags) (c : Ctx) (d : Device) (who : Requester) (lines : List Line) (hb : d.over fl) :
    (Device.readLines c d who lines).over fl := by
  dsimp only [Device.readLines]
  repeat' split
  all_goals with_reducible repeat' (first | exact hb | apply Device.commandRead_flg | apply Device.reclaimRead_flg | apply Device.mountRead_flg)

theorem Device.erased_flg (fl : Flags) (c : Ctx) (d : Device) (who : Requester) (ok : Bool) (hb : d.over fl) :
    (Device.erased c d who ok).over fl := by
  dsimp only [Device.erased]
  repeat' split
  all_goals with_reducible repeat' (first | exact hb | apply Device.commandErased_flg | apply Device.reclaimErased_flg)

/-! ## Power.lean -/

theorem Device.endOpenGroup_flg (fl : Flags) (d : Device) (hb : d.over fl) :
    (Device.endOpenGroup d).over fl := by
  dsimp only [Device.endOpenGroup]
  repeat' split
  all_goals with_reducible repeat' (first | exact hb | apply Device.mapGroup_flg | apply Device.endGroup_flg)

theorem Device.expireOrHold_flg (fl : Flags) (d : Device) (hb : d.over fl) :
    (Device.expireOrHold d).over fl := by
  dsimp only [Device.expireOrHold]
  repeat' split
  all_goals with_reducible repeat' (first | exact hb | apply Device.expireGroup_flg)

theorem Device.tickGroup_flg (fl : Flags) (d : Device) (hb : d.over fl) :
    (Device.tickGroup d).over fl := by
  dsimp only [Device.tickGroup]
  repeat' split
  all_goals with_reducible repeat' (first | exact hb | apply Device.mapGroup_flg | apply Device.expireOrHold_flg)

theorem Device.warnCommand_flg (fl : Flags) (d : Device) (hb : d.over fl) :
    (Device.warnCommand d).over fl := by
  dsimp only [Device.warnCommand]
  repeat' split
  all_goals with_reducible repeat' (first | exact hb | apply Device.commandPowerEnd_flg | apply Device.answerReclaim_flg | apply Device.formatPowerEnd_flg)

theorem Device.abandonErase_flg (fl : Flags) (d : Device) (hb : d.over fl) :
    (Device.abandonErase d).over fl := by
  dsimp only [Device.abandonErase]
  repeat' split
  all_goals with_reducible repeat' (first | exact hb | apply Device.reclaimRefused_flg | apply Device.commandPowerEnd_flg | apply (Device.mk_flg ..).mpr)

theorem Device.warn_flg (fl : Flags) (d : Device) (hb : d.over fl) :
    (Device.warn d).over fl := by
  unfold Device.warn
  refine Device.warnCommand_flg fl _ (Device.abandonErase_flg fl _ (Device.endOpenGroup_flg fl _ ?_))
  exact Flags.within_trans hb (by simp +contextual [Flags.within])

theorem Device.warnBetween_flg (fl : Flags) (g : Configuration) (d : Device) (hb : d.over fl) : (Device.warnBetween g d).over fl :=
  Device.makeStep_flg fl _ _ (Device.warn_flg fl _ (Device.takeHead_flg fl _ _ hb))

theorem Device.recover_flg (fl : Flags) (d : Device) (hb : d.over fl) :
    (Device.recover d).over fl := by
  have h : fl.within { d.flags with powerOk := true } := Flags.within_trans hb (by simp +contextual [Flags.within])
  unfold Device.recover
  dsimp only
  split
  · exact Device.beginMount_flg fl _ h
  · exact h

end Sys2Proof.Machine
end

