-- ==== Sys2Proof/Laws/Groups.lean ====
section
/-! SUPPORT. Every operation of the engines keeps the law of groups (R115, R117, R120, R121, R122): one lemma for each operation. -/
namespace Sys2Proof.Machine
open Sys2Proof

/-- A record update that keeps the group and the executing command keeps the law. -/
@[simp] theorem Device.mk_grp (d : Device) (queue' : List Posted) (fifo' : List Completion) (buffers' : Vector Buffer 4) (flags' : Flags) (dir' : List DirEntry) (level' : LockLevel) (banks' : Vector BankEntry 32) (openMark' : Option (BankId × Opener)) (nextSeq' : Nat) (nextEpoch' : Nat) (store' : StoreState) (generation' : Option Nat) (causes' : Causes) (mountOutcome' : MountOutcome) (banksHanded' : Nat) (commits' : List CommitEntry) (reclaim' : Reclaim) (fc' : FlashController) (mount' : MountUnit) :
    (Device.mk queue' fifo' buffers' flags' d.ex dir' level' banks' openMark' nextSeq' nextEpoch' store' generation' causes' mountOutcome' banksHanded' d.group commits' reclaim' fc' mount').groupLaw ↔ d.groupLaw := ⟨fun h => h, fun h => h⟩

theorem Device.grp_of_eq {d d' : Device} (h : d.groupLaw) (hg : d'.group = d.group) (hx : d'.ex = d.ex) : d'.groupLaw := by
  intro g e
  rw [hx]
  exact h g (hg ▸ e)

/-- Without a group there is nothing to hold. -/
theorem Device.grp_of_none {d : Device} (h : d.group = none) : d.groupLaw := by
  intro g e
  rw [h] at e
  cases e

/-- A change of the group that keeps its state, its deadline and its held end keeps the law. -/
theorem Device.mapGroup_grp (d : Device) (f : GroupContext → GroupContext)
    (hf : ∀ g, (f g).state = g.state ∧ (f g).deadline = g.deadline ∧ (f g).endsWithMember = g.endsWithMember) (hb : d.groupLaw) :
    (d.mapGroup f).groupLaw := by
  intro g e
  obtain ⟨g0, h0, rfl⟩ := Option.map_eq_some_iff.mp (show d.group.map f = some g from e)
  obtain ⟨h1, h2, h3⟩ := hf g0
  rw [h1, h2, h3]
  exact hb g0 h0

/-- A change of the executing command that keeps its code and its member mark keeps the law. -/
theorem Device.mapEx_grp (d d' : Device) (f : Executing → Executing)
    (hf : ∀ x, (f x).code = x.code ∧ (f x).member = x.member) (hg : d'.group = d.group) (hx : d'.ex = d.ex.map f)
    (hb : d.groupLaw) : d'.groupLaw := by
  intro g e
  have h := hb g (hg ▸ e)
  rw [hx]
  cases hd : d.ex with
  | none => rw [hd] at h; exact h
  | some x => rw [hd] at h; simpa [hf x] using h

theorem Device.foldl_grp {α : Type} (f : Device → α → Device) (hf : ∀ d a, d.groupLaw → (f d a).groupLaw) (l : List α)
    (d : Device) (h : d.groupLaw) : (l.foldl f d).groupLaw := by
  induction l generalizing d with
  | nil => exact h
  | cons a l ih => exact ih _ (hf d a h)

/-! ## Ops.lean -/

theorem Device.setBank_grp (d : Device) (b : BankId) (e : BankEntry) (hb : d.groupLaw) :
    (Device.setBank d b e).groupLaw := hb

theorem Device.addDead_grp (d : Device) (b : BankId) (n : Nat) (hb : d.groupLaw) :
    (Device.addDead d b n).groupLaw := hb

theorem Device.fillActive_grp (d : Device) (b : BankId) (hb : d.groupLaw) :
    (Device.fillActive d b).groupLaw := by
  unfold Device.fillActive
  split <;> exact hb

theorem Device.markSuspect_grp (d : Device) (b : BankId) (hb : d.groupLaw) :
    (Device.markSuspect d b).groupLaw := hb

theorem Device.makeFree_grp (d : Device) (b : BankId) (count : Nat) (hb : d.groupLaw) :
    (Device.makeFree d b count).groupLaw := hb

theorem Device.emptyInto_grp (d : Device) (b : BankId) (st : BankState) (hb : d.groupLaw) :
    (Device.emptyInto d b st).groupLaw := hb

theorem Device.putEntry_grp (d : Device) (e : DirEntry) (hb : d.groupLaw) :
    (Device.putEntry d e).groupLaw := hb

theorem Device.removeEntry_grp (d : Device) (k : Key) (hb : d.groupLaw) :
    (Device.removeEntry d k).groupLaw := hb

theorem Device.mapReclaim_grp (d : Device) (f : Reclaim → Reclaim) (hb : d.groupLaw) :
    (Device.mapReclaim d f).groupLaw := hb

theorem Device.setJob_grp (d : Device) (j : ReclaimJob) (hb : d.groupLaw) :
    (Device.setJob d j).groupLaw := hb

theorem Device.mapVictim_grp (d : Device) (f : Victim → Victim) (hb : d.groupLaw) :
    (Device.mapVictim d f).groupLaw := hb

theorem Device.setStage_grp (d : Device) (st : Stage) (hb : d.groupLaw) :
    (Device.setStage d st).groupLaw := by
  refine Device.mapEx_grp d _ _ ?_ rfl rfl hb
  exact fun x => ⟨rfl, rfl⟩

theorem Device.request_grp (d : Device) (who : Requester) (r : Request) (hb : d.groupLaw) :
    (Device.request d who r).groupLaw := by
  unfold Device.request
  split <;> exact hb

/-! ## Flags.lean -/

theorem Device.noteOpening_grp (d : Device) (freeBefore : Nat) (hb : d.groupLaw) :
    (Device.noteOpening d freeBefore).groupLaw := by
  unfold Device.noteOpening
  split <;> exact hb

theorem Device.setBuffer_grp (d : Device) (i : Fin 4) (b : Buffer) (hb : d.groupLaw) : (d.setBuffer i b).groupLaw := hb

/-! ## Tables.lean -/

theorem Device.supersede_grp (d : Device) (e : DirEntry) (hb : d.groupLaw) :
    (Device.supersede d e).groupLaw := by
  unfold Device.supersede
  split <;> exact hb

theorem Device.dropSpentTombstone_grp (d : Device) (k : Key) (hb : d.groupLaw) :
    (Device.dropSpentTombstone d k).groupLaw := by
  dsimp only [Device.dropSpentTombstone]
  repeat' split
  all_goals with_reducible repeat' (first | exact hb | apply Device.removeEntry_grp | apply Device.addDead_grp)

theorem Device.commitEntry_grp (d : Device) (c : Committed) (hb : d.groupLaw) :
    (Device.commitEntry d c).groupLaw := by
  dsimp only [Device.commitEntry]
  repeat' split
  all_goals with_reducible repeat' (first | exact hb | apply Device.supersede_grp | apply Device.putEntry_grp | apply Device.dropSpentTombstone_grp)

theorem Device.damageEntry_grp (d : Device) (k : Key) (hb : d.groupLaw) :
    (Device.damageEntry d k).groupLaw := by
  dsimp only [Device.damageEntry]
  repeat' split
  all_goals with_reducible repeat' (first | exact hb | apply Device.putEntry_grp | apply Device.supersede_grp)

theorem Device.markWalkDamaged_grp (d : Device) (loc : Location) (hb : d.groupLaw) :
    (Device.markWalkDamaged d loc).groupLaw := hb

theorem Device.damageMember_grp (d : Device) (k : Key) (read : Location) (hb : d.groupLaw) :
    (Device.damageMember d k read).groupLaw := by
  dsimp only [Device.damageMember]
  repeat' split
  all_goals with_reducible repeat' (first | exact hb | apply Device.markWalkDamaged_grp | apply Device.addDead_grp | apply Device.mapGroup_grp | exact fun _ => ⟨rfl, rfl, rfl⟩)

theorem Device.copyTakesOver_grp (d : Device) (h : Header) (original copy : Location) (hb : d.groupLaw) :
    (Device.copyTakesOver d h original copy).groupLaw := by
  dsimp only [Device.copyTakesOver]
  repeat' split
  all_goals with_reducible repeat' (first | exact hb | apply Device.putEntry_grp | apply Device.addDead_grp)

theorem Device.mapCommit_grp (d : Device) (gid : Nat) (f : CommitEntry → CommitEntry) (hb : d.groupLaw) :
    (Device.mapCommit d gid f).groupLaw := hb

theorem Device.addTagged_grp (d : Device) (b : BankId) (n : Nat) (hb : d.groupLaw) :
    (Device.addTagged d b n).groupLaw := hb

theorem Device.memberCopyVerifies_grp (d : Device) (h : Header) (gid : Nat) (original copy : Location) (hb : d.groupLaw) :
    (Device.memberCopyVerifies d h gid original copy).groupLaw := by
  dsimp only [Device.memberCopyVerifies]
  repeat' split
  all_goals with_reducible repeat' (first | exact hb | apply Device.mapReclaim_grp | apply Device.addDead_grp | apply Device.copyTakesOver_grp | apply Device.mapCommit_grp | apply Device.addTagged_grp | apply Device.mapGroup_grp | exact fun _ => ⟨rfl, rfl, rfl⟩)

theorem Device.commitCopyVerifies_grp (d : Device) (original copy : Location) (hb : d.groupLaw) :
    (Device.commitCopyVerifies d original copy).groupLaw := by
  unfold Device.commitCopyVerifies
  split <;> exact hb

theorem Device.commitMember_grp (d : Device) (c : Committed) (loc : Location) (hb : d.groupLaw) :
    (Device.commitMember d c loc).groupLaw := by
  dsimp only [Device.commitMember]
  repeat' split
  all_goals with_reducible repeat' (first | exact hb | apply Device.addDead_grp | apply Device.mapGroup_grp | exact fun _ => ⟨rfl, rfl, rfl⟩)

theorem Device.applyMember_grp (d : Device) (gid : Nat) (m : MemberEntry) (hb : d.groupLaw) :
    (Device.applyMember d gid m).groupLaw := by
  dsimp only [Device.applyMember]
  repeat' split
  all_goals with_reducible repeat' (first | exact hb | apply Device.commitEntry_grp | apply Device.putEntry_grp)

theorem Device.commitGroup_grp (d : Device) (loc : Location) (hb : d.groupLaw) :
    (Device.commitGroup d loc).groupLaw := by
  unfold Device.commitGroup
  split
  · exact hb
  · exact Device.grp_of_none rfl

theorem Device.orphanMember_grp (d : Device) (m : MemberEntry) (hb : d.groupLaw) :
    (Device.orphanMember d m).groupLaw := by
  unfold Device.orphanMember
  split <;> exact hb

theorem Device.endGroup_grp (d : Device) (hb : d.groupLaw) :
    (Device.endGroup d).groupLaw := by
  unfold Device.endGroup
  split
  · exact hb
  · exact Device.grp_of_none rfl

@[simp] theorem Device.endGroup_group (d : Device) : d.endGroup.group = none := by
  unfold Device.endGroup
  split
  · assumption
  · rfl

theorem Device.expireGroup_grp (d : Device) (hb : d.groupLaw) :
    (Device.expireGroup d).groupLaw := by
  dsimp only [Device.expireGroup]
  all_goals with_reducible repeat' (first | exact hb | apply Device.endGroup_grp | apply (Device.mk_grp _ ..).mpr)

theorem Device.memberEnded_grp (d : Device) (hb : d.groupLaw) :
    (Device.memberEnded d).groupLaw := by
  unfold Device.memberEnded
  split
  · exact hb
  · split
    · exact Device.endGroup_grp d hb
    · split
      · exact Device.expireGroup_grp d hb
      · exact hb

theorem Device.groupEnded_grp (e : Device) (x : Executing) (_hx : e.ex = none)
    (hb : ∀ g, e.group = some g → (g.state = .committing → x.code = .commitGroup) ∧
      (g.state = .opened → g.endsWithMember = true ∨ g.deadline = some 0 → x.member = true)) :
    let e' := match e.group with
      | some g => if x.code = CommandCode.commitGroup ∧ g.state = GroupState.committing then e.endGroup else e
      | none => e
    (if x.member then e'.memberEnded else e').groupLaw := by
  intro e'
  have hend : e.endGroup.groupLaw := Device.grp_of_none (Device.endGroup_group e)
  cases hg : e.group with
  | none =>
    have he : e' = e := by simp only [e', hg]
    rw [he]
    have h0 : e.groupLaw := Device.grp_of_none hg
    split
    · exact Device.memberEnded_grp e h0
    · exact h0
  | some g =>
    obtain ⟨hc, ho⟩ := hb g hg
    by_cases hk : x.code = .commitGroup ∧ g.state = .committing
    · have he : e' = e.endGroup := by simp only [e', hg, hk]; simp
      rw [he]
      split
      · exact Device.memberEnded_grp _ hend
      · exact hend
    · have he : e' = e := by simp only [e', hg]; rw [if_neg hk]
      rw [he]
      have hs : g.state = .opened := by
        cases hst : g.state with
        | opened => rfl
        | committing => exact absurd ⟨hc hst, hst⟩ hk
      have hq (h : ¬(g.endsWithMember = true ∨ g.deadline = some 0)) : e.groupLaw := by
        intro g' e2
        rw [hg] at e2
        cases e2
        exact ⟨fun h' => (by rw [hs] at h'; cases h'), fun _ h' => absurd h' h⟩
      split
      · unfold Device.memberEnded
        rw [hg]
        dsimp only
        split
        · exact hend
        · split
          · exact Device.grp_of_none (Device.endGroup_group e)
          · exact hq (by rename_i h1 h2; exact fun h => h.elim h1 h2)
      · rename_i hm
        exact hq fun h => hm (ho hs h)

theorem Device.releaseBuffer_grp (d : Device) (code : CommandCode) (field : Byte) (hb : d.groupLaw) :
    (Device.releaseBuffer d code field).groupLaw := by
  dsimp only [Device.releaseBuffer]
  repeat' split
  all_goals with_reducible repeat' (first | exact hb | apply Device.setBuffer_grp)

theorem Device.placeCompletion_grp (d : Device) (tag : Byte) (status : Status) (result : Nat) (hb : d.groupLaw) :
    (d.placeCompletion tag status result).groupLaw := hb

theorem Device.output_grp (d : Device) (bytes : List Byte) (hb : d.groupLaw) :
    (Device.output d bytes).groupLaw := by
  dsimp only [Device.output]
  repeat' split
  all_goals with_reducible repeat' (first | exact hb | apply Device.setBuffer_grp)

theorem Device.endCommand_grp (d : Device) (status : Status) (result : Nat) (hb : d.groupLaw) :
    (Device.endCommand d status result).groupLaw := by
  unfold Device.endCommand
  split
  · exact hb
  · rename_i x hx
    have key := Device.groupEnded_grp { d with ex := none } x rfl fun g hg => by
      have h := hb g hg
      rw [hx] at h
      simpa using h
    dsimp only
    split
    · exact key
    · exact Device.placeCompletion_grp _ _ _ _ (Device.releaseBuffer_grp _ _ _ key)

theorem Device.degrade_grp (d : Device) (c : Cause) (hb : d.groupLaw) :
    (Device.degrade d c).groupLaw := by
  dsimp only [Device.degrade]
  repeat' split
  all_goals with_reducible repeat' (first | exact hb | apply Device.endCommand_grp | apply (Device.mk_grp _ ..).mpr)

/-! ## Controller.lean -/

theorem Device.decideSuspension_grp (c : Ctx) (d : Device) (hb : d.groupLaw) :
    (Device.decideSuspension c d).groupLaw := by
  dsimp only [Device.decideSuspension]
  repeat' split
  all_goals with_reducible repeat' (first | exact hb | apply (Device.mk_grp _ ..).mpr)

theorem Device.noteFormatGrant_grp (d : Device) (who : Requester) (hb : d.groupLaw) :
    (Device.noteFormatGrant d who).groupLaw := by
  unfold Device.noteFormatGrant
  split
  · refine Device.mapEx_grp d _ _ ?_ rfl rfl hb
    exact fun x => ⟨rfl, rfl⟩
  · exact hb

theorem Device.grantRequest_grp (d : Device) (who : Requester) (r : Request) (hb : d.groupLaw) :
    (Device.grantRequest d who r).groupLaw := by
  dsimp only [Device.grantRequest]
  all_goals with_reducible repeat' (first | exact hb | apply Device.noteFormatGrant_grp | apply (Device.mk_grp _ ..).mpr)

theorem Device.resumeErase_grp (d : Device) (hb : d.groupLaw) :
    (Device.resumeErase d).groupLaw := by
  unfold Device.resumeErase
  split <;> exact hb

theorem Device.grantAll_grp (c : Ctx) (n : Nat) (d : Device) (hb : d.groupLaw) : (Device.grantAll c n d).groupLaw := by
  induction n generalizing d with
  | zero => exact hb
  | succ n ih =>
    unfold Device.grantAll
    split
    · exact ih _ (Device.grantRequest_grp _ _ _ (Device.decideSuspension_grp c d hb))
    · exact Device.decideSuspension_grp c d hb

theorem Device.arbitrate_grp (c : Ctx) (d : Device) (hb : d.groupLaw) :
    (Device.arbitrate c d).groupLaw := by
  dsimp only [Device.arbitrate]
  repeat' split
  all_goals with_reducible repeat' (first | exact hb | apply Device.grantAll_grp | apply Device.resumeErase_grp)

/-! ## Placement.lean -/

theorem Device.reserveLines_grp (d : Device) (b : BankId) (span : Nat) (hb : d.groupLaw) :
    (Device.reserveLines d b span).groupLaw := hb

theorem Device.reserve_grp (d : Device) (w : Writer) (b : BankId) (hb : d.groupLaw) : (d.reserve w b).2.groupLaw := by
  unfold Device.reserve
  split <;> exact hb

theorem Device.beginOpen_grp (d : Device) (who : Opener) (b : BankId) (hb : d.groupLaw) :
    (Device.beginOpen d who b).groupLaw := by
  unfold Device.beginOpen
  split <;> exact hb

theorem Device.openSucceeded_grp (d : Device) (b : BankId) (epoch : Nat) (quiet : Bool) (hb : d.groupLaw) :
    (Device.openSucceeded d b epoch quiet).groupLaw := by
  dsimp only [Device.openSucceeded]
  repeat' split
  all_goals with_reducible repeat' (first | exact hb | apply Device.fillActive_grp | apply Device.setBank_grp | apply Device.noteOpening_grp | apply (Device.mk_grp _ ..).mpr)

theorem Device.openFaulted_grp (d : Device) (b : BankId) (epoch : Nat) (quiet : Bool) (hb : d.groupLaw) :
    (Device.openFaulted d b epoch quiet).groupLaw := by
  dsimp only [Device.openFaulted]
  repeat' split
  all_goals with_reducible repeat' (first | exact hb | apply Device.setBank_grp | apply Device.noteOpening_grp | apply (Device.mk_grp _ ..).mpr)

theorem Device.abandonSpan_grp (d : Device) (w : Writer) (r : Reservation) (hb : d.groupLaw) :
    (Device.abandonSpan d w r).groupLaw := hb

theorem Device.faultBank_grp (d : Device) (b : BankId) (hb : d.groupLaw) :
    (Device.faultBank d b).groupLaw := by
  dsimp only [Device.faultBank]
  all_goals with_reducible repeat' (first | exact hb | apply Device.markSuspect_grp | apply Device.fillActive_grp)

theorem Device.epochExhausted_grp (d : Device) (hb : d.groupLaw) :
    (Device.epochExhausted d).groupLaw := by
  dsimp only [Device.epochExhausted]
  all_goals with_reducible repeat' (first | exact hb | apply Device.degrade_grp | apply (Device.mk_grp _ ..).mpr)

/-! ## Mount.lean -/

theorem Device.resetTables_grp (d : Device) (_hb : d.groupLaw) :
    (Device.resetTables d).groupLaw := by
  exact Device.grp_of_none rfl

theorem Device.beginMount_grp (d : Device) (hb : d.groupLaw) :
    (Device.beginMount d).groupLaw := by
  dsimp only [Device.beginMount]
  all_goals with_reducible repeat' (first | exact hb | apply Device.resetTables_grp | apply Device.request_grp | apply (Device.mk_grp _ ..).mpr)

theorem Device.handOff_grp (d : Device) (hb : d.groupLaw) :
    (Device.handOff d).groupLaw := hb

theorem Device.finishMount_grp (d : Device) (rows : List CensusRow) (scans : List ScanBank) (hb : d.groupLaw) :
    (Device.finishMount d rows scans).groupLaw := hb

theorem Device.finishBlank_grp (d : Device) (rows : List CensusRow) (hb : d.groupLaw) :
    (Device.finishBlank d rows).groupLaw := hb

theorem Device.nextScan_grp (d : Device) (rows : List CensusRow) (todo : List (BankId × Nat)) (done : List ScanBank) (hb : d.groupLaw) :
    (Device.nextScan d rows todo done).groupLaw := by
  unfold Device.nextScan
  split <;> exact hb

theorem Device.censusDone_grp (d : Device) (rows : List CensusRow) (hb : d.groupLaw) :
    (Device.censusDone d rows).groupLaw := by
  dsimp only [Device.censusDone]
  repeat' split
  all_goals with_reducible repeat' (first | exact hb | apply Device.request_grp | apply Device.finishBlank_grp | apply Device.nextScan_grp | apply (Device.mk_grp _ ..).mpr)

theorem Device.mountRead_grp (d : Device) (lines : List Line) (hb : d.groupLaw) :
    (Device.mountRead d lines).groupLaw := by
  dsimp only [Device.mountRead]
  repeat' split
  all_goals with_reducible repeat' (first | exact hb | apply Device.erased_grp | apply Device.request_grp | apply Device.censusDone_grp | apply Device.nextScan_grp | apply (Device.mk_grp _ ..).mpr)

theorem Device.stopMount_grp (d : Device) (hb : d.groupLaw) :
    (Device.stopMount d).groupLaw := hb

/-! ## FormatEnds.lean -/

theorem Device.mapFormat_grp (d : Device) (f : FormatProgress → FormatProgress) (hb : d.groupLaw) :
    (Device.mapFormat d f).groupLaw := by
  refine Device.mapEx_grp d _ _ ?_ rfl rfl hb
  exact fun x => ⟨rfl, rfl⟩

theorem Device.formatCommitted_grp (d : Device) (hb : d.groupLaw) :
    (Device.formatCommitted d).groupLaw := hb

theorem Device.formatFinish_grp (d : Device) (hb : d.groupLaw) :
    (Device.formatFinish d).groupLaw := by
  dsimp only [Device.formatFinish]
  repeat' split
  all_goals with_reducible repeat' (first | exact hb | apply Device.formatCommitted_grp | apply Device.endCommand_grp | apply Device.beginMount_grp)

theorem Device.formatWithdrawn_grp (d : Device) (f : FormatProgress) (hb : d.groupLaw) :
    (Device.formatWithdrawn d f).groupLaw := hb

theorem Device.formatPowerEnd_grp (d : Device) (hb : d.groupLaw) :
    (Device.formatPowerEnd d).groupLaw := by
  dsimp only [Device.formatPowerEnd]
  repeat' split
  all_goals with_reducible repeat' (first | exact hb | apply Device.resetTables_grp | apply Device.endCommand_grp | apply Device.formatWithdrawn_grp)

/-! ## CommandRecord.lean -/

theorem Device.commandPowerEnd_grp (d : Device) (hb : d.groupLaw) :
    (Device.commandPowerEnd d).groupLaw := by
  dsimp only [Device.commandPowerEnd]
  repeat' split
  all_goals with_reducible repeat' (first | exact hb | apply Device.formatPowerEnd_grp | apply Device.endCommand_grp)

theorem Device.commandFails_grp (d : Device) (status : Status) (hb : d.groupLaw) :
    (Device.commandFails d status).groupLaw := by
  dsimp only [Device.commandFails]
  repeat' split
  all_goals with_reducible repeat' (first | exact hb | apply Device.degrade_grp | apply Device.formatFinish_grp | apply Device.endCommand_grp)

theorem Device.commandOutOfSequences_grp (d : Device) (hb : d.groupLaw) :
    (Device.commandOutOfSequences d).groupLaw := by
  dsimp only [Device.commandOutOfSequences]
  all_goals with_reducible repeat' (first | exact hb | apply Device.degrade_grp | apply Device.commandFails_grp)

theorem Device.commandReserve_grp (d : Device) (w : Writer) (b : BankId) (hb : d.groupLaw) :
    (Device.commandReserve d w b).groupLaw := by
  dsimp only [Device.commandReserve]
  split
  · exact Device.request_grp _ _ _ (Device.setStage_grp _ _ (Device.reserve_grp d w b hb))
  · exact Device.commandOutOfSequences_grp d hb

theorem Device.commandOpen_grp (d : Device) (w : Writer) (b : BankId) (hb : d.groupLaw) :
    (Device.commandOpen d w b).groupLaw := by
  dsimp only [Device.commandOpen]
  repeat' split
  all_goals with_reducible repeat' (first | exact hb | apply Device.setStage_grp | apply Device.beginOpen_grp | apply Device.epochExhausted_grp | apply Device.commandFails_grp)

theorem Device.commandWaits_grp (d : Device) (w : Writer) (hb : d.groupLaw) :
    (Device.commandWaits d w).groupLaw := by
  dsimp only [Device.commandWaits]
  repeat' split
  all_goals with_reducible repeat' (first | exact hb | apply Device.commandFails_grp | apply Device.endCommand_grp | apply Device.setStage_grp)

theorem Device.commandPlace_grp (c : Ctx) (d : Device) (w : Writer) (hb : d.groupLaw) :
    (Device.commandPlace c d w).groupLaw := by
  dsimp only [Device.commandPlace]
  repeat' split
  all_goals with_reducible repeat' (first | exact hb | apply Device.commandPowerEnd_grp | apply Device.commandOutOfSequences_grp | apply Device.commandReserve_grp | apply Device.setStage_grp | apply Device.commandOpen_grp | apply Device.commandWaits_grp)

theorem Device.commitUserRecord_grp (d : Device) (x : Executing) (w : Writer) (r : Reservation) (hb : d.groupLaw) :
    (Device.commitUserRecord d x w r).groupLaw := by
  dsimp only [Device.commitUserRecord]
  repeat' split
  all_goals with_reducible repeat' (first | exact hb | apply Device.commitMember_grp | apply Device.commitEntry_grp)

theorem Device.commandCommit_grp (d : Device) (x : Executing) (w : Writer) (r : Reservation) (hb : d.groupLaw) :
    (Device.commandCommit d x w r).groupLaw := by
  dsimp only [Device.commandCommit]
  repeat' split
  all_goals with_reducible repeat' (first | exact hb | apply Device.commitGroup_grp | apply Device.endCommand_grp | apply Device.commitEntry_grp | apply Device.formatFinish_grp | apply Device.commitUserRecord_grp | apply Device.output_grp | apply (Device.mk_grp _ ..).mpr)

theorem Device.commandFault_grp (c : Ctx) (d : Device) (w : Writer) (hb : d.groupLaw) :
    (Device.commandFault c d w).groupLaw := by
  dsimp only [Device.commandFault]
  repeat' split
  all_goals with_reducible repeat' (first | exact hb | apply Device.commandPowerEnd_grp | apply Device.commandFails_grp | apply Device.commandPlace_grp)

theorem Device.commandOpened_grp (c : Ctx) (d : Device) (x : Executing) (w : Writer) (b : BankId) (epoch : Nat) (o : ProgramOutcome) (hb : d.groupLaw) :
    (Device.commandOpened c d x w b epoch o).groupLaw := by
  dsimp only [Device.commandOpened]
  repeat' split
  all_goals with_reducible repeat' (first | exact hb | apply Device.openSucceeded_grp | apply Device.commandReserve_grp | apply Device.openFaulted_grp | apply Device.commandFault_grp)

theorem Device.commandLine_grp (c : Ctx) (d : Device) (x : Executing) (w : Writer) (r : Reservation) (o : ProgramOutcome) (hb : d.groupLaw) :
    (Device.commandLine c d x w r o).groupLaw := by
  dsimp only [Device.commandLine]
  repeat' split
  all_goals with_reducible repeat' (first | exact hb | apply Device.formatPowerEnd_grp | apply Device.setStage_grp | apply Device.request_grp | apply Device.faultBank_grp | apply Device.commandCommit_grp | apply Device.abandonSpan_grp | apply Device.commandFault_grp)

theorem Device.commandRefused_grp (d : Device) (hb : d.groupLaw) :
    (Device.commandRefused d).groupLaw := by
  dsimp only [Device.commandRefused]
  repeat' split
  all_goals with_reducible repeat' (first | exact hb | apply Device.commandPowerEnd_grp | apply Device.abandonSpan_grp | apply (Device.mk_grp _ ..).mpr)

/-! ## FormatWork.lean -/

theorem Device.formatTaken_grp (d : Device) (hb : d.groupLaw) :
    (Device.formatTaken d).groupLaw := by
  refine Device.mapEx_grp d _ _ ?_ rfl rfl hb
  exact fun x => ⟨rfl, rfl⟩

theorem Device.formatHeaderOf_grp (d : Device) (f : FormatProgress) (b : BankId) (again : Bool) (hb : d.groupLaw) :
    (Device.formatHeaderOf d f b again).groupLaw := by
  dsimp only [Device.formatHeaderOf]
  all_goals with_reducible repeat' (first | exact hb | apply Device.setStage_grp | apply Device.request_grp)

theorem Device.formatEraseOf_grp (d : Device) (b : BankId) (again : Bool) (hb : d.groupLaw) :
    (Device.formatEraseOf d b again).groupLaw := by
  dsimp only [Device.formatEraseOf]
  all_goals with_reducible repeat' (first | exact hb | apply Device.setStage_grp | apply Device.request_grp)

theorem Device.formatBank_grp (d : Device) (f : FormatProgress) (b : BankId) (hb : d.groupLaw) :
    (Device.formatBank d f b).groupLaw := by
  dsimp only [Device.formatBank]
  repeat' split
  all_goals with_reducible repeat' (first | exact hb | apply Device.formatHeaderOf_grp | apply Device.formatEraseOf_grp)

theorem Device.formatTables_grp (d : Device) (_hb : d.groupLaw) :
    (Device.formatTables d).groupLaw := by
  exact Device.grp_of_none rfl

theorem Device.formatMap_grp (c : Ctx) (d : Device) (hb : d.groupLaw) :
    (Device.formatMap c d).groupLaw := by
  dsimp only [Device.formatMap]
  repeat' split
  all_goals with_reducible repeat' (first | exact hb | apply Device.formatTables_grp | apply Device.formatFinish_grp | apply Device.degrade_grp | apply Device.commandPlace_grp)

theorem Device.formatNext_grp (c : Ctx) (d : Device) (f : FormatProgress) (hb : d.groupLaw) :
    (Device.formatNext c d f).groupLaw := by
  dsimp only [Device.formatNext]
  repeat' split
  all_goals with_reducible repeat' (first | exact hb | apply Device.formatMap_grp | apply Device.mapFormat_grp | apply Device.formatBank_grp)

theorem Device.formatChoose_grp (d : Device) (f : FormatProgress) (hb : d.groupLaw) :
    (Device.formatChoose d f).groupLaw := by
  dsimp only [Device.formatChoose]
  repeat' split
  all_goals with_reducible repeat' (first | exact hb | apply Device.formatBank_grp | apply Device.formatFinish_grp)

theorem Device.unlist_grp (d : Device) (b : BankId) (hb : d.groupLaw) :
    (Device.unlist d b).groupLaw := hb

theorem Device.formatFailed_grp (c : Ctx) (d : Device) (f : FormatProgress) (b : BankId) (again : Bool) (hb : d.groupLaw) :
    (Device.formatFailed c d f b again).groupLaw := by
  dsimp only [Device.formatFailed]
  repeat' split
  all_goals with_reducible repeat' (first | exact hb | apply Device.emptyInto_grp | apply Device.unlist_grp | apply Device.formatNext_grp | apply Device.formatChoose_grp | apply Device.formatEraseOf_grp)

theorem Device.formatFreed_grp (c : Ctx) (d : Device) (f : FormatProgress) (b : BankId) (count : Nat) (hb : d.groupLaw) :
    (Device.formatFreed c d f b count).groupLaw := by
  dsimp only [Device.formatFreed]
  repeat' split
  all_goals with_reducible repeat' (first | exact hb | apply Device.makeFree_grp | apply Device.unlist_grp | apply Device.formatNext_grp | apply Device.mapFormat_grp | apply (Device.mk_grp _ ..).mpr)

theorem Device.formatErased_grp (c : Ctx) (d : Device) (f : FormatProgress) (b : BankId) (again ok : Bool) (hb : d.groupLaw) :
    (Device.formatErased c d f b again ok).groupLaw := by
  dsimp only [Device.formatErased]
  repeat' split
  all_goals with_reducible repeat' (first | exact hb | apply Device.formatPowerEnd_grp | apply Device.formatHeaderOf_grp | apply Device.formatFailed_grp)

theorem Device.formatHeadered_grp (c : Ctx) (d : Device) (f : FormatProgress) (b : BankId) (again : Bool) (count : Nat) (o : ProgramOutcome) (hb : d.groupLaw) :
    (Device.formatHeadered c d f b again count o).groupLaw := by
  dsimp only [Device.formatHeadered]
  repeat' split
  all_goals with_reducible repeat' (first | exact hb | apply Device.formatPowerEnd_grp | apply Device.formatFreed_grp | apply Device.markSuspect_grp | apply Device.formatFailed_grp)

theorem Device.haltForFormat_grp (d : Device) (hb : d.groupLaw) :
    (Device.haltForFormat d).groupLaw := by
  unfold Device.haltForFormat
  split <;> exact hb

theorem Device.formatWaits_grp (d : Device) (f : FormatProgress) (hb : d.groupLaw) :
    (Device.formatWaits d f).groupLaw := by
  dsimp only [Device.formatWaits]
  repeat' split
  all_goals with_reducible repeat' (first | exact hb | apply Device.haltForFormat_grp | apply Device.formatChoose_grp)

/-! ## CommandReads.lean -/

theorem Device.readDone_grp (d : Device) (x : Executing) (payload : Option (List Byte)) (hb : d.groupLaw) :
    (Device.readDone d x payload).groupLaw := by
  dsimp only [Device.readDone]
  repeat' split
  all_goals with_reducible repeat' (first | exact hb | apply Device.output_grp | apply Device.endCommand_grp | apply Device.damageEntry_grp)

theorem Device.damageCounter_grp (d : Device) (x : Executing) (loc : Location) (hb : d.groupLaw) :
    (Device.damageCounter d x loc).groupLaw := by
  dsimp only [Device.damageCounter]
  repeat' split
  all_goals with_reducible repeat' (first | exact hb | apply Device.damageMember_grp | apply Device.damageEntry_grp)

theorem Device.addDone_grp (c : Ctx) (d : Device) (x : Executing) (loc : Location) (payload : Option (List Byte)) (hb : d.groupLaw) :
    (Device.addDone c d x loc payload).groupLaw := by
  dsimp only [Device.addDone]
  repeat' split
  all_goals with_reducible repeat' (first | exact hb | apply Device.damageCounter_grp | apply Device.endCommand_grp | apply Device.commandPowerEnd_grp | apply Device.commandPlace_grp)

theorem Device.commandRead_grp (c : Ctx) (d : Device) (lines : List Line) (hb : d.groupLaw) :
    (Device.commandRead c d lines).groupLaw := by
  dsimp only [Device.commandRead]
  repeat' split
  all_goals with_reducible repeat' (first | exact hb | apply Device.addDone_grp | apply Device.readDone_grp)

/-! ## Commands.lean -/

theorem Device.startRead_grp (d : Device) (x : Executing) (hb : d.groupLaw) :
    (Device.startRead d x).groupLaw := by
  dsimp only [Device.startRead]
  repeat' split
  all_goals with_reducible repeat' (first | exact hb | apply Device.endCommand_grp | apply Device.setStage_grp | apply Device.request_grp)

theorem Device.startWrite_grp (c : Ctx) (d : Device) (x : Executing) (payload : List Byte) (hb : d.groupLaw) :
    (Device.startWrite c d x payload).groupLaw := by
  dsimp only [Device.startWrite]
  repeat' split
  all_goals with_reducible repeat' (first | exact hb | apply Device.endCommand_grp | apply Device.commandPlace_grp)

theorem Device.startDelete_grp (c : Ctx) (d : Device) (x : Executing) (hb : d.groupLaw) :
    (Device.startDelete c d x).groupLaw := by
  dsimp only [Device.startDelete]
  repeat' split
  all_goals with_reducible repeat' (first | exact hb | apply Device.endCommand_grp | apply Device.commandPlace_grp)

theorem Device.startAdd_grp (c : Ctx) (d : Device) (x : Executing) (hb : d.groupLaw) :
    (Device.startAdd c d x).groupLaw := by
  dsimp only [Device.startAdd]
  repeat' split
  all_goals with_reducible repeat' (first | exact hb | apply Device.endCommand_grp | apply Device.setStage_grp | apply Device.request_grp | apply Device.commandPlace_grp)

theorem Device.startList_grp (d : Device) (x : Executing) (hb : d.groupLaw) :
    (Device.startList d x).groupLaw := by
  dsimp only [Device.startList]
  all_goals with_reducible repeat' (first | exact hb | apply Device.output_grp | apply Device.endCommand_grp)

theorem Device.openGroup_grp (d : Device) (timeout : Nat) (_hb : d.groupLaw) :
    (Device.openGroup d timeout).groupLaw := by
  intro g e
  cases e
  refine ⟨fun h => by simp at h, fun _ h => ?_⟩
  rcases h with h | h
  · simp at h
  · exfalso
    revert h
    dsimp only
    split
    · simp
    · rename_i ht
      simp [ht]

theorem Device.startOpenGroup_grp (c : Ctx) (d : Device) (x : Executing) (timeout : Nat) (hb : d.groupLaw) :
    (Device.startOpenGroup c d x timeout).groupLaw := by
  dsimp only [Device.startOpenGroup]
  repeat' split
  all_goals with_reducible repeat' (first | exact hb | apply Device.endCommand_grp | apply Device.openGroup_grp | apply Device.degrade_grp | apply (Device.mk_grp _ ..).mpr)

theorem Device.closeGroup_grp (d : Device) (code : CommandCode) (hb : d.groupLaw)
    (hx : code = .commitGroup → d.ex.any (fun x => x.code = .commitGroup) = true) : (Device.closeGroup d code).groupLaw := by
  unfold Device.closeGroup
  split
  · rename_i hc
    intro g e
    obtain ⟨g0, _, rfl⟩ := Option.map_eq_some_iff.mp e
    exact ⟨fun _ => hx hc, fun h => by cases h⟩
  · exact hb

theorem Device.startCommitGroup_grp (c : Ctx) (d : Device) (hb : d.groupLaw) :
    (Device.startCommitGroup c d).groupLaw := by
  unfold Device.startCommitGroup
  split
  · exact Device.endCommand_grp d _ _ hb
  · split
    · exact Device.endCommand_grp _ _ _ (Device.grp_of_none rfl)
    · exact Device.commandPlace_grp _ _ _ hb

theorem Device.startDropGroup_grp (d : Device) (hb : d.groupLaw) :
    (Device.startDropGroup d).groupLaw := by
  dsimp only [Device.startDropGroup]
  repeat' split
  all_goals with_reducible repeat' (first | exact hb | apply Device.endCommand_grp | apply Device.endGroup_grp)

theorem Device.startReclaim_grp (c : Ctx) (d : Device) (x : Executing) (hb : d.groupLaw) :
    (Device.startReclaim c d x).groupLaw := by
  dsimp only [Device.startReclaim]
  repeat' split
  all_goals with_reducible repeat' (first | exact hb | apply Device.endCommand_grp | apply Device.mapReclaim_grp | apply Device.request_grp | apply Device.setStage_grp)

theorem Device.startFormat_grp (c : Ctx) (d : Device) (hb : d.groupLaw) :
    (Device.startFormat c d).groupLaw := by
  dsimp only [Device.startFormat]
  repeat' split
  all_goals with_reducible repeat' (first | exact hb | apply Device.endCommand_grp | apply Device.formatPowerEnd_grp | apply Device.formatTaken_grp)

theorem Device.startRaiseLock_grp (c : Ctx) (d : Device) (x : Executing) (hb : d.groupLaw) :
    (Device.startRaiseLock c d x).groupLaw := by
  dsimp only [Device.startRaiseLock]
  repeat' split
  all_goals with_reducible repeat' (first | exact hb | apply Device.endCommand_grp | apply Device.setStage_grp | apply Device.commandPlace_grp)

theorem Device.startCommand_grp (c : Ctx) (d : Device) (x : Executing) (t : Taken) (hb : d.groupLaw) :
    (Device.startCommand c d x t).groupLaw := by
  unfold Device.startCommand
  split
  all_goals with_reducible first | apply Device.startRead_grp | apply Device.startWrite_grp | apply Device.startDelete_grp | apply Device.startAdd_grp | apply Device.startList_grp | apply Device.startOpenGroup_grp | apply Device.startCommitGroup_grp | apply Device.startDropGroup_grp | apply Device.startReclaim_grp | apply Device.startFormat_grp | apply Device.startRaiseLock_grp
  all_goals exact hb

theorem Device.takeHead_grp (c : Ctx) (d : Device) (hb : d.groupLaw) : (d.takeHead c).groupLaw := by
  unfold Device.takeHead
  split
  · rename_i p rest hx hq
    have h : ({ d with queue := rest, ex := some (d.taken c p) } : Device).groupLaw := by
      intro g e
      obtain ⟨h1, h2⟩ := hb g e
      rw [hx] at h1 h2
      exact ⟨fun h => by simpa using h1 h, fun h h' => by simpa using h2 h h'⟩
    split
    · exact hb
    · dsimp only
      split
      · exact Device.endCommand_grp _ _ _ h
      · exact Device.closeGroup_grp _ _ h fun hc => by simpa [Device.taken] using hc
  · exact hb

theorem Device.makeStep_grp (c : Ctx) (d : Device) (hb : d.groupLaw) : (d.makeStep c).groupLaw := by
  dsimp only [Device.makeStep]
  repeat' split
  all_goals first | exact hb | exact Device.startCommand_grp _ _ _ _ hb

theorem Device.takeCommand_grp (c : Ctx) (d : Device) (hb : d.groupLaw) : (d.takeCommand c).groupLaw :=
  Device.makeStep_grp _ _ (Device.takeHead_grp _ _ hb)

/-! ## ReclaimRecord.lean -/

theorem Device.setWriter_grp (d : Device) (w : Writer) (hb : d.groupLaw) :
    (Device.setWriter d w).groupLaw := hb

theorem Device.answerReclaim_grp (d : Device) (status : Status) (result : Nat) (hb : d.groupLaw) :
    (Device.answerReclaim d status result).groupLaw := by
  dsimp only [Device.answerReclaim]
  repeat' split
  all_goals with_reducible repeat' (first | exact hb | apply Device.request_grp | apply Device.mapReclaim_grp | apply Device.endCommand_grp)

theorem Device.reclaimHalt_grp (c : Ctx) (d : Device) (hb : d.groupLaw) :
    (Device.reclaimHalt c d).groupLaw := by
  dsimp only [Device.reclaimHalt]
  repeat' split
  all_goals with_reducible repeat' (first | exact hb | apply Device.setJob_grp | apply Device.degrade_grp | apply Device.answerReclaim_grp)

theorem Device.reclaimCannot_grp (c : Ctx) (d : Device) (hb : d.groupLaw) :
    (Device.reclaimCannot c d).groupLaw := by
  dsimp only [Device.reclaimCannot]
  repeat' split
  all_goals with_reducible repeat' (first | exact hb | apply Device.reclaimHalt_grp | apply Device.setJob_grp | apply Device.degrade_grp | apply Device.mapReclaim_grp)

theorem Device.reclaimOutOfSequences_grp (d : Device) (hb : d.groupLaw) :
    (Device.reclaimOutOfSequences d).groupLaw := by
  dsimp only [Device.reclaimOutOfSequences]
  repeat' split
  all_goals with_reducible repeat' (first | exact hb | apply Device.mapReclaim_grp | apply Device.setJob_grp | apply Device.degrade_grp)

theorem Device.reclaimReserve_grp (d : Device) (w : Writer) (b : BankId) (hb : d.groupLaw) :
    (Device.reclaimReserve d w b).groupLaw := by
  dsimp only [Device.reclaimReserve]
  split
  · exact Device.request_grp _ _ _ (Device.setWriter_grp _ _ (Device.reserve_grp d w b hb))
  · exact Device.reclaimOutOfSequences_grp d hb

theorem Device.reclaimOpen_grp (c : Ctx) (d : Device) (w : Writer) (b : BankId) (hb : d.groupLaw) :
    (Device.reclaimOpen c d w b).groupLaw := by
  dsimp only [Device.reclaimOpen]
  repeat' split
  all_goals with_reducible repeat' (first | exact hb | apply Device.setWriter_grp | apply Device.beginOpen_grp | apply Device.epochExhausted_grp | apply Device.reclaimCannot_grp)

theorem Device.reclaimPlace_grp (c : Ctx) (d : Device) (w : Writer) (hb : d.groupLaw) :
    (Device.reclaimPlace c d w).groupLaw := by
  dsimp only [Device.reclaimPlace]
  repeat' split
  all_goals with_reducible repeat' (first | exact hb | apply Device.reclaimOutOfSequences_grp | apply Device.reclaimReserve_grp | apply Device.setWriter_grp | apply Device.reclaimOpen_grp | apply Device.reclaimCannot_grp)

theorem Device.reclaimFault_grp (c : Ctx) (d : Device) (w : Writer) (hb : d.groupLaw) :
    (Device.reclaimFault c d w).groupLaw := by
  dsimp only [Device.reclaimFault]
  repeat' split
  all_goals with_reducible repeat' (first | exact hb | apply Device.reclaimCannot_grp | apply Device.setWriter_grp | apply Device.reclaimPlace_grp)

theorem Device.reclaimOpened_grp (c : Ctx) (d : Device) (w : Writer) (b : BankId) (epoch : Nat) (o : ProgramOutcome) (hb : d.groupLaw) :
    (Device.reclaimOpened c d w b epoch o).groupLaw := by
  dsimp only [Device.reclaimOpened]
  repeat' split
  all_goals with_reducible repeat' (first | exact hb | apply Device.openSucceeded_grp | apply Device.reclaimReserve_grp | apply Device.openFaulted_grp | apply Device.reclaimFault_grp)

theorem Device.reclaimAbandon_grp (d : Device) (w : Writer) (hb : d.groupLaw) :
    (Device.reclaimAbandon d w).groupLaw := by
  unfold Device.reclaimAbandon
  split <;> exact hb

theorem Device.eraseHeld_grp (d : Device) (b : BankId) (hb : d.groupLaw) :
    (Device.eraseHeld d b).groupLaw := hb

theorem Device.reclaimRefused_grp (d : Device) (hb : d.groupLaw) :
    (Device.reclaimRefused d).groupLaw := by
  dsimp only [Device.reclaimRefused]
  repeat' split
  all_goals with_reducible repeat' (first | exact hb | apply Device.eraseHeld_grp | apply Device.setJob_grp | apply Device.reclaimAbandon_grp | apply Device.mapReclaim_grp)

/-! ## CopyWalk.lean -/

theorem Device.entryUnlocated_grp (d : Device) (k : Key) (hb : d.groupLaw) :
    (Device.entryUnlocated d k).groupLaw := by
  unfold Device.entryUnlocated
  split <;> exact hb

theorem Device.memberUnlocated_grp (d : Device) (k : Key) (hb : d.groupLaw) :
    (Device.memberUnlocated d k).groupLaw := by
  dsimp only [Device.memberUnlocated]
  all_goals with_reducible repeat' (first | exact hb | apply Device.mapGroup_grp | exact fun _ => ⟨rfl, rfl, rfl⟩)

theorem Device.advanceCursor_grp (d : Device) (hb : d.groupLaw) :
    (Device.advanceCursor d).groupLaw := hb

theorem Device.beginRetire_grp (d : Device) (v : Victim) (hb : d.groupLaw) :
    (Device.beginRetire d v).groupLaw := hb

theorem Device.beginCopyRead_grp (d : Device) (v : Victim) (r : WalkRecord) (owner : CopyOwner) (hb : d.groupLaw) :
    (Device.beginCopyRead d v r owner).groupLaw := hb

theorem Device.walkOn_grp (v : Victim) (l : List WalkRecord) (d : Device) (hb : d.groupLaw) :
    (Device.walkOn v l d).groupLaw := by
  induction l generalizing d with
  | nil => exact Device.beginRetire_grp d v hb
  | cons r l ih =>
    unfold Device.walkOn
    split
    · exact Device.beginCopyRead_grp _ _ _ _ hb
    · exact ih _ (Device.advanceCursor_grp _ hb)
    · exact ih _ (Device.advanceCursor_grp _ (Device.entryUnlocated_grp _ _ hb))
    · exact ih _ (Device.advanceCursor_grp _ (Device.memberUnlocated_grp _ _ hb))

theorem Device.walk_grp (d : Device) (hb : d.groupLaw) :
    (Device.walk d).groupLaw := by
  dsimp only [Device.walk]
  repeat' split
  all_goals with_reducible repeat' (first | exact hb | apply Device.walkOn_grp)

theorem Device.planned_grp (c : Ctx) (d : Device) (lines : List Line) (hb : d.groupLaw) :
    (Device.planned c d lines).groupLaw := by
  dsimp only [Device.planned]
  repeat' split
  all_goals with_reducible repeat' (first | exact hb | apply Device.setJob_grp | apply Device.walk_grp | apply (Device.mk_grp _ ..).mpr)

theorem Device.entryFoundDamaged_grp (d : Device) (k : Key) (loc : Location) (hb : d.groupLaw) :
    (Device.entryFoundDamaged d k loc).groupLaw := by
  dsimp only [Device.entryFoundDamaged]
  repeat' split
  all_goals with_reducible repeat' (first | exact hb | apply Device.damageEntry_grp | apply Device.entryUnlocated_grp | apply Device.mapReclaim_grp)

theorem Device.memberFoundDamaged_grp (d : Device) (k : Key) (loc : Location) (hb : d.groupLaw) :
    (Device.memberFoundDamaged d k loc).groupLaw := by
  dsimp only [Device.memberFoundDamaged]
  repeat' split
  all_goals with_reducible repeat' (first | exact hb | apply Device.damageMember_grp | apply Device.memberUnlocated_grp)

theorem Device.beginCopy_grp (c : Ctx) (d : Device) (r : WalkRecord) (owner : CopyOwner) (payload : List Byte) (hb : d.groupLaw) :
    (Device.beginCopy c d r owner payload).groupLaw := by
  dsimp only [Device.beginCopy]
  all_goals with_reducible repeat' (first | exact hb | apply Device.setJob_grp | apply Device.reclaimPlace_grp)

theorem Device.rebuildCommit_grp (c : Ctx) (d : Device) (r : WalkRecord) (loc : Location) (hb : d.groupLaw) :
    (Device.rebuildCommit c d r loc).groupLaw := by
  dsimp only [Device.rebuildCommit]
  repeat' split
  all_goals with_reducible repeat' (first | exact hb | apply Device.beginCopy_grp | apply Device.advanceCursor_grp | apply Device.walk_grp)

theorem Device.copyFoundDamaged_grp (c : Ctx) (d : Device) (v : Victim) (r : WalkRecord) (hb : d.groupLaw) :
    (Device.copyFoundDamaged c d v r).groupLaw := by
  dsimp only [Device.copyFoundDamaged]
  all_goals with_reducible repeat' (first | exact hb | apply Device.markWalkDamaged_grp | apply Device.entryFoundDamaged_grp | apply Device.advanceCursor_grp | apply Device.walk_grp | apply Device.memberFoundDamaged_grp | apply Device.rebuildCommit_grp)

theorem Device.copyReadDone_grp (c : Ctx) (d : Device) (owner : CopyOwner) (lines : List Line) (hb : d.groupLaw) :
    (Device.copyReadDone c d owner lines).groupLaw := by
  dsimp only [Device.copyReadDone]
  repeat' split
  all_goals with_reducible repeat' (first | exact hb | apply Device.walk_grp | apply Device.beginCopy_grp | apply Device.copyFoundDamaged_grp)

theorem Device.copyVerified_grp (d : Device) (v : Victim) (cj : CopyJob) (r : Reservation) (hb : d.groupLaw) :
    (Device.copyVerified d v cj r).groupLaw := by
  dsimp only [Device.copyVerified]
  repeat' split
  all_goals with_reducible repeat' (first | exact hb | apply Device.copyTakesOver_grp | apply Device.memberCopyVerifies_grp | apply Device.commitCopyVerifies_grp)

theorem Device.reclaimCommit_grp (d : Device) (w : Writer) (r : Reservation) (hb : d.groupLaw) :
    (Device.reclaimCommit d w r).groupLaw := by
  dsimp only [Device.reclaimCommit]
  repeat' split
  all_goals with_reducible repeat' (first | exact hb | apply Device.commitEntry_grp | apply Device.setJob_grp | apply Device.mapReclaim_grp | apply Device.copyVerified_grp | apply Device.advanceCursor_grp | apply Device.walk_grp)

theorem Device.reclaimLine_grp (c : Ctx) (d : Device) (w : Writer) (r : Reservation) (o : ProgramOutcome) (hb : d.groupLaw) :
    (Device.reclaimLine c d w r o).groupLaw := by
  dsimp only [Device.reclaimLine]
  repeat' split
  all_goals with_reducible repeat' (first | exact hb | apply Device.setWriter_grp | apply Device.request_grp | apply Device.faultBank_grp | apply Device.reclaimCommit_grp | apply Device.abandonSpan_grp | apply Device.reclaimFault_grp)

theorem Device.retireRecord_grp (d : Device) (bank : BankId) (r : WalkRecord) (hb : d.groupLaw) :
    (Device.retireRecord d bank r).groupLaw := by
  dsimp only [Device.retireRecord]
  repeat' split
  all_goals with_reducible repeat' (first | exact hb | apply Device.putEntry_grp)

theorem Device.tombstoneDead_grp (d : Device) (victim : BankId) (e : DirEntry) (hb : d.groupLaw) :
    (Device.tombstoneDead d victim e).groupLaw := by
  dsimp only [Device.tombstoneDead]
  repeat' split
  all_goals with_reducible repeat' (first | exact hb | apply Device.addDead_grp)

theorem Device.retireDirectory_grp (d : Device) (bank : BankId) (valid : List WalkRecord) (hb : d.groupLaw) :
    (Device.retireDirectory d bank valid).groupLaw := by
  dsimp only [Device.retireDirectory]
  apply Device.foldl_grp _ fun d e => Device.tombstoneDead_grp d bank e
  exact Device.foldl_grp _ (fun d r => Device.retireRecord_grp d bank r) valid d hb

theorem Device.retireGroup_grp (d : Device) (bank : BankId) (walk : List WalkRecord) (hb : d.groupLaw) :
    (Device.retireGroup d bank walk).groupLaw := by
  dsimp only [Device.retireGroup]
  apply Device.mapReclaim_grp
  apply Device.mapGroup_grp _ _ _ hb
  intro g
  have h (l : List WalkRecord) (g : GroupContext) :
      (l.foldl GroupContext.retireRecord g).state = g.state ∧ (l.foldl GroupContext.retireRecord g).deadline = g.deadline ∧
        (l.foldl GroupContext.retireRecord g).endsWithMember = g.endsWithMember := by
    induction l generalizing g with
    | nil => exact ⟨rfl, rfl, rfl⟩
    | cons r l ih => exact ih (g.retireRecord r)
  exact h _ g

theorem Device.retireCommits_grp (d : Device) (bank : BankId) (valid : List WalkRecord) (hb : d.groupLaw) :
    (Device.retireCommits d bank valid).groupLaw := by
  dsimp only [Device.retireCommits]
  exact Device.foldl_grp _ (fun d (c : CommitEntry) => Device.addDead_grp d c.loc.bank 3) _ _ hb

theorem Device.retired_grp (d : Device) (v : Victim) (hb : d.groupLaw) :
    (Device.retired d v).groupLaw := by
  dsimp only [Device.retired]
  repeat' split
  all_goals with_reducible repeat' (first | exact hb | apply Device.emptyInto_grp | apply Device.mapReclaim_grp | apply Device.walk_grp | apply Device.retireDirectory_grp | apply Device.retireGroup_grp | apply Device.retireCommits_grp | apply Device.request_grp | apply Device.answerReclaim_grp)

theorem Device.retireOutcome_grp (c : Ctx) (d : Device) (o : ProgramOutcome) (hb : d.groupLaw) :
    (Device.retireOutcome c d o).groupLaw := by
  dsimp only [Device.retireOutcome]
  repeat' split
  all_goals with_reducible repeat' (first | exact hb | apply Device.retired_grp | apply Device.markSuspect_grp | apply Device.reclaimHalt_grp)

/-! ## ReclaimWork.lean -/

theorem Device.decideMap_grp (c : Ctx) (d : Device) (hb : d.groupLaw) :
    (Device.decideMap c d).groupLaw := by
  dsimp only [Device.decideMap]
  repeat' split
  all_goals with_reducible repeat' (first | exact hb | apply Device.setJob_grp | apply Device.degrade_grp | apply Device.reclaimPlace_grp)

theorem Device.takeMap_grp (c : Ctx) (d : Device) (hb : d.groupLaw) :
    (Device.takeMap c d).groupLaw := by
  dsimp only [Device.takeMap]
  all_goals with_reducible repeat' (first | exact hb | apply Device.mapReclaim_grp | apply Device.decideMap_grp)

theorem Device.beginBlankHeader_grp (d : Device) (b : BankId) (hb : d.groupLaw) :
    (Device.beginBlankHeader d b).groupLaw := hb

theorem Device.blankHeaderDone_grp (d : Device) (b : BankId) (count : Nat) (o : ProgramOutcome) (hb : d.groupLaw) :
    (Device.blankHeaderDone d b count o).groupLaw := by
  unfold Device.blankHeaderDone
  split <;> exact hb

theorem Device.beginErase_grp (d : Device) (b : BankId) (rest : List BankId) (hb : d.groupLaw) :
    (Device.beginErase d b rest).groupLaw := hb

theorem Device.eraseFailed_grp (c : Ctx) (d : Device) (b : BankId) (hb : d.groupLaw) :
    (Device.eraseFailed c d b).groupLaw := by
  dsimp only [Device.eraseFailed]
  repeat' split
  all_goals with_reducible repeat' (first | exact hb | apply Device.mapReclaim_grp | apply Device.request_grp | apply Device.emptyInto_grp | apply Device.decideMap_grp)

theorem Device.eraseDone_grp (c : Ctx) (d : Device) (b : BankId) (ok : Bool) (hb : d.groupLaw) :
    (Device.eraseDone c d b ok).groupLaw := by
  dsimp only [Device.eraseDone]
  repeat' split
  all_goals with_reducible repeat' (first | exact hb | apply Device.setJob_grp | apply Device.request_grp | apply Device.eraseFailed_grp)

theorem Device.eraseHeaderDone_grp (c : Ctx) (d : Device) (b : BankId) (count : Nat) (o : ProgramOutcome) (hb : d.groupLaw) :
    (Device.eraseHeaderDone c d b count o).groupLaw := by
  dsimp only [Device.eraseHeaderDone]
  repeat' split
  all_goals with_reducible repeat' (first | exact hb | apply Device.makeFree_grp | apply Device.mapReclaim_grp | apply Device.markSuspect_grp | apply Device.eraseFailed_grp)

theorem Device.beginVictim_grp (d : Device) (b : BankId) (forRequest : Bool) (hb : d.groupLaw) :
    (Device.beginVictim d b forRequest).groupLaw := hb

theorem Device.resumeVictim_grp (d : Device) (v : Victim) (hb : d.groupLaw) :
    (Device.resumeVictim d v).groupLaw := by
  dsimp only [Device.resumeVictim]
  repeat' split
  all_goals with_reducible repeat' (first | exact hb | apply Device.setJob_grp | apply Device.request_grp | apply Device.walk_grp | apply Device.beginRetire_grp)

theorem Device.answerNone_grp (d : Device) (hb : d.groupLaw) :
    (Device.answerNone d).groupLaw := by
  dsimp only [Device.answerNone]
  repeat' split
  all_goals with_reducible repeat' (first | exact hb | apply Device.request_grp | apply Device.answerReclaim_grp)

theorem Device.reportNoSpace_grp (d : Device) (hb : d.groupLaw) :
    (Device.reportNoSpace d).groupLaw := by
  dsimp only [Device.reportNoSpace]
  repeat' split
  all_goals with_reducible repeat' (first | exact hb | apply Device.endCommand_grp)

theorem Device.beginRepair_grp (c : Ctx) (d : Device) (hb : d.groupLaw) :
    (Device.beginRepair c d).groupLaw := by
  dsimp only [Device.beginRepair]
  all_goals with_reducible repeat' (first | exact hb | apply Device.setJob_grp | apply Device.reclaimPlace_grp)

theorem Device.takeVictim_grp (c : Ctx) (d : Device) (hb : d.groupLaw) :
    (Device.takeVictim c d).groupLaw := by
  dsimp only [Device.takeVictim]
  repeat' split
  all_goals with_reducible repeat' (first | exact hb | apply Device.resumeVictim_grp | apply Device.answerNone_grp | apply Device.beginVictim_grp | apply Device.reportNoSpace_grp)

theorem Device.takeErase_grp (c : Ctx) (d : Device) (hb : d.groupLaw) :
    (Device.takeErase c d).groupLaw := by
  dsimp only [Device.takeErase]
  repeat' split
  all_goals with_reducible repeat' (first | exact hb | apply Device.beginBlankHeader_grp | apply Device.beginErase_grp | apply Device.takeVictim_grp)

theorem Device.takeRepair_grp (c : Ctx) (d : Device) (hb : d.groupLaw) :
    (Device.takeRepair c d).groupLaw := by
  dsimp only [Device.takeRepair]
  repeat' split
  all_goals with_reducible repeat' (first | exact hb | apply Device.mapReclaim_grp | apply Device.takeErase_grp | apply Device.beginRepair_grp)

theorem Device.takeWork_grp (c : Ctx) (d : Device) (hb : d.groupLaw) :
    (Device.takeWork c d).groupLaw := by
  dsimp only [Device.takeWork]
  repeat' split
  all_goals with_reducible repeat' (first | exact hb | apply Device.resumeVictim_grp | apply Device.takeMap_grp | apply Device.takeRepair_grp)

theorem Device.reclaimProgrammed_grp (c : Ctx) (d : Device) (o : ProgramOutcome) (hb : d.groupLaw) :
    (Device.reclaimProgrammed c d o).groupLaw := by
  dsimp only [Device.reclaimProgrammed]
  repeat' split
  all_goals with_reducible repeat' (first | exact hb | apply Device.eraseHeaderDone_grp | apply Device.blankHeaderDone_grp | apply Device.retireOutcome_grp | apply Device.reclaimOpened_grp | apply Device.reclaimLine_grp)

theorem Device.reclaimRead_grp (c : Ctx) (d : Device) (lines : List Line) (hb : d.groupLaw) :
    (Device.reclaimRead c d lines).groupLaw := by
  dsimp only [Device.reclaimRead]
  repeat' split
  all_goals with_reducible repeat' (first | exact hb | apply Device.planned_grp | apply Device.copyReadDone_grp)

theorem Device.reclaimErased_grp (c : Ctx) (d : Device) (ok : Bool) (hb : d.groupLaw) :
    (Device.reclaimErased c d ok).groupLaw := by
  dsimp only [Device.reclaimErased]
  repeat' split
  all_goals with_reducible repeat' (first | exact hb | apply Device.eraseDone_grp)

/-! ## Settle.lean -/

theorem Device.refuseWaiting_grp (c : Ctx) (d : Device) (hb : d.groupLaw) :
    (Device.refuseWaiting c d).groupLaw := by
  dsimp only [Device.refuseWaiting]
  repeat' split
  all_goals with_reducible repeat' (first | exact hb | apply Device.commandRefused_grp | apply Device.reclaimRefused_grp | apply Device.stopMount_grp | apply (Device.mk_grp _ ..).mpr)

theorem Device.wakeReclaim_grp (c : Ctx) (d : Device) (hb : d.groupLaw) :
    (Device.wakeReclaim c d).groupLaw := by
  dsimp only [Device.wakeReclaim]
  repeat' split
  all_goals with_reducible repeat' (first | exact hb | apply Device.reclaimPlace_grp)

theorem Device.wakeCommand_grp (c : Ctx) (d : Device) (hb : d.groupLaw) :
    (Device.wakeCommand c d).groupLaw := by
  dsimp only [Device.wakeCommand]
  repeat' split
  all_goals with_reducible repeat' (first | exact hb | apply Device.commandPlace_grp | apply Device.startRaiseLock_grp | apply Device.formatWaits_grp)

theorem Device.settle_grp (c : Ctx) (d : Device) (hb : d.groupLaw) :
    (Device.settle c d).groupLaw := by
  dsimp only [Device.settle]
  all_goals with_reducible repeat' (first | exact hb | apply Device.refuseWaiting_grp | apply Device.wakeReclaim_grp | apply Device.wakeCommand_grp | apply Device.arbitrate_grp)

theorem Device.commandProgrammed_grp (c : Ctx) (d : Device) (o : ProgramOutcome) (hb : d.groupLaw) :
    (Device.commandProgrammed c d o).groupLaw := by
  dsimp only [Device.commandProgrammed]
  repeat' split
  all_goals with_reducible repeat' (first | exact hb | apply Device.commandOpened_grp | apply Device.commandLine_grp | apply Device.formatHeadered_grp)

theorem Device.commandErased_grp (c : Ctx) (d : Device) (ok : Bool) (hb : d.groupLaw) :
    (Device.commandErased c d ok).groupLaw := by
  dsimp only [Device.commandErased]
  repeat' split
  all_goals with_reducible repeat' (first | exact hb | apply Device.formatErased_grp)

theorem Device.programmed_grp (c : Ctx) (d : Device) (who : Requester) (o : ProgramOutcome) (hb : d.groupLaw) :
    (Device.programmed c d who o).groupLaw := by
  dsimp only [Device.programmed]
  repeat' split
  all_goals with_reducible repeat' (first | exact hb | apply Device.commandProgrammed_grp | apply Device.reclaimProgrammed_grp)

theorem Device.readLines_grp (c : Ctx) (d : Device) (who : Requester) (lines : List Line) (hb : d.groupLaw) :
    (Device.readLines c d who lines).groupLaw := by
  dsimp only [Device.readLines]
  repeat' split
  all_goals with_reducible repeat' (first | exact hb | apply Device.commandRead_grp | apply Device.reclaimRead_grp | apply Device.mountRead_grp)

theorem Device.erased_grp (c : Ctx) (d : Device) (who : Requester) (ok : Bool) (hb : d.groupLaw) :
    (Device.erased c d who ok).groupLaw := by
  dsimp only [Device.erased]
  repeat' split
  all_goals with_reducible repeat' (first | exact hb | apply Device.commandErased_grp | apply Device.reclaimErased_grp)

/-! ## Power.lean -/

theorem Device.endOpenGroup_grp (d : Device) (hb : d.groupLaw) :
    (Device.endOpenGroup d).groupLaw := by
  unfold Device.endOpenGroup
  split
  · exact hb
  · rename_i g hg
    split
    · exact hb
    · rename_i hs
      split
      · rename_i hm
        intro g' e
        obtain ⟨g0, h0, rfl⟩ := Option.map_eq_some_iff.mp e
        exact ⟨fun h => (hb g0 h0).1 h, fun _ _ => hm⟩
      · exact Device.endGroup_grp d hb

theorem Device.expireOrHold_grp (d : Device) (hb : d.groupLaw) :
    (Device.expireOrHold d).groupLaw := by
  dsimp only [Device.expireOrHold]
  repeat' split
  all_goals with_reducible repeat' (first | exact hb | apply Device.expireGroup_grp)

theorem Device.tickGroup_grp (d : Device) (hb : d.groupLaw) :
    (Device.tickGroup d).groupLaw := by
  unfold Device.tickGroup
  split
  · exact hb
  · rename_i g hg
    split
    · rename_i n hs hn
      dsimp only
      split
      · rename_i h1
        unfold Device.expireOrHold
        split
        · rename_i hm
          intro g' e
          obtain ⟨g0, h0, rfl⟩ := Option.map_eq_some_iff.mp e
          exact ⟨fun h => (hb g0 h0).1 h, fun _ _ => hm⟩
        · exact Device.grp_of_none (Device.endGroup_group _)
      · rename_i h1
        intro g' e
        obtain ⟨g0, h0, rfl⟩ := Option.map_eq_some_iff.mp e
        refine ⟨fun h => (hb g0 h0).1 h, fun h h' => (hb g0 h0).2 h (.inl ?_)⟩
        rcases h' with h' | h'
        · exact h'
        · exfalso
          simp only [Option.some.injEq] at h'
          omega
    · exact hb

theorem Device.warnCommand_grp (d : Device) (hb : d.groupLaw) :
    (Device.warnCommand d).groupLaw := by
  dsimp only [Device.warnCommand]
  repeat' split
  all_goals with_reducible repeat' (first | exact hb | apply Device.commandPowerEnd_grp | apply Device.answerReclaim_grp | apply Device.formatPowerEnd_grp)

theorem Device.abandonErase_grp (d : Device) (hb : d.groupLaw) :
    (Device.abandonErase d).groupLaw := by
  dsimp only [Device.abandonErase]
  repeat' split
  all_goals with_reducible repeat' (first | exact hb | apply Device.reclaimRefused_grp | apply Device.commandPowerEnd_grp | apply (Device.mk_grp _ ..).mpr)

theorem Device.warn_grp (d : Device) (hb : d.groupLaw) :
    (Device.warn d).groupLaw := by
  dsimp only [Device.warn]
  all_goals with_reducible repeat' (first | exact hb | apply Device.endOpenGroup_grp | apply Device.abandonErase_grp | apply Device.warnCommand_grp | apply (Device.mk_grp _ ..).mpr)

theorem Device.warnBetween_grp (g : Configuration) (d : Device) (hb : d.groupLaw) : (Device.warnBetween g d).groupLaw :=
  Device.makeStep_grp _ _ (Device.warn_grp _ (Device.takeHead_grp _ _ hb))

theorem Device.recover_grp (d : Device) (hb : d.groupLaw) :
    (Device.recover d).groupLaw := by
  dsimp only [Device.recover]
  repeat' split
  all_goals with_reducible repeat' (first | exact hb | apply Device.beginMount_grp | apply (Device.mk_grp _ ..).mpr)

end Sys2Proof.Machine
end

