-- ==== Sys2Proof/Laws/Store.lean ====
section
/-! SUPPORT. What the sparse store does: reads after writes, the addresses a write leaves alone, and the canonical form, which every
operation over the Flash Array and the staging buffers keeps. -/
namespace Sys2Proof.Machine
open Sys2Proof

variable {α : Type}

/-! ## Reads after writes -/

theorem Store.read_put_same (d : α) (a : Nat) (v : α) (m : List (Nat × α)) : Store.read d (Store.put a v m) a = v := by
  induction m with
  | nil => simp [Store.put, Store.read]
  | cons c rest ih =>
    obtain ⟨k, w⟩ := c
    unfold Store.put
    split
    · simp [Store.read]
    · split
      · simp [Store.read]
      · simp [Store.read, *]

theorem Store.read_put_other (d : α) {a b : Nat} (v : α) (m : List (Nat × α)) (h : b ≠ a) :
    Store.read d (Store.put a v m) b = Store.read d m b := by
  induction m with
  | nil => simp [Store.put, Store.read, h]
  | cons c rest ih =>
    obtain ⟨k, w⟩ := c
    unfold Store.put
    split
    · simp [Store.read, h]
    · split
      · subst_vars; simp [Store.read, h]
      · simp [Store.read, ih]

theorem Store.read_clear (d : α) (drop : Nat → Bool) (m : List (Nat × α)) (a : Nat) :
    Store.read d (Store.clear drop m) a = if drop a then d else Store.read d m a := by
  induction m with
  | nil => simp [Store.clear, Store.read]
  | cons c rest ih =>
    obtain ⟨k, w⟩ := c
    simp only [Store.clear, List.filter_cons] at ih ⊢
    by_cases hk : drop k <;> by_cases ha : a = k <;> simp_all [Store.read]

section
variable [DecidableEq α]

theorem Store.read_write_same (d : α) (m : List (Nat × α)) (a : Nat) (v : α) : Store.read d (Store.write d m a v) a = v := by
  unfold Store.write
  split
  · simp [Store.read_clear, *]
  · exact Store.read_put_same d a v m

theorem Store.read_write_other (d : α) (m : List (Nat × α)) {a b : Nat} (v : α) (h : b ≠ a) :
    Store.read d (Store.write d m a v) b = Store.read d m b := by
  unfold Store.write
  split
  · simp [Store.read_clear, h]
  · exact Store.read_put_other d v m h

theorem Store.read_writeAll_other (d : α) (cells : List (Nat × α)) (m : List (Nat × α)) {b : Nat}
    (h : ∀ c ∈ cells, c.1 ≠ b) : Store.read d (Store.writeAll d m cells) b = Store.read d m b := by
  induction cells generalizing m with
  | nil => rfl
  | cons c rest ih =>
    obtain ⟨a, v⟩ := c
    have hb : b ≠ a := fun e => h (a, v) (by simp) e.symm
    rw [Store.writeAll, ih _ fun c hc => h c (by simp [hc]), Store.read_write_other d m v hb]

/-! ## The canonical form -/

/-- The canonical form as a pairwise order and a property of every entry. -/
theorem Store.wf_iff (d : α) (m : List (Nat × α)) :
    Store.wf d m = true ↔ m.Pairwise (fun c e => c.1 < e.1) ∧ ∀ c ∈ m, c.2 ≠ d := by
  induction m with
  | nil => simp [Store.wf]
  | cons c rest ih =>
    obtain ⟨a, v⟩ := c
    cases rest with
    | nil => simp [Store.wf]
    | cons e rest =>
      obtain ⟨b, w⟩ := e
      simp only [Store.wf, Bool.and_eq_true, decide_eq_true_eq, ih, List.pairwise_cons, List.mem_cons, forall_eq_or_imp]
      constructor
      · rintro ⟨⟨hv, hab⟩, ⟨hb, hr⟩, hw, hd⟩
        exact ⟨⟨⟨hab, fun x hx => Nat.lt_trans hab (hb x hx)⟩, hb, hr⟩, hv, hw, hd⟩
      · rintro ⟨⟨⟨hab, _⟩, hb, hr⟩, hv, hw, hd⟩
        exact ⟨⟨hv, hab⟩, ⟨hb, hr⟩, hw, hd⟩

theorem Store.clear_wf (d : α) (drop : Nat → Bool) (m : List (Nat × α)) (h : Store.wf d m = true) :
    Store.wf d (Store.clear drop m) = true := by
  rw [Store.wf_iff] at h ⊢
  exact ⟨h.1.filter _, fun c hc => h.2 c (List.mem_filter.mp hc).1⟩

omit [DecidableEq α] in
theorem Store.mem_put (a : Nat) (v : α) (m : List (Nat × α)) (c : Nat × α) (h : c ∈ Store.put a v m) :
    c = (a, v) ∨ c ∈ m := by
  induction m with
  | nil => simpa [Store.put] using h
  | cons e rest ih =>
    obtain ⟨k, w⟩ := e
    unfold Store.put at h
    split at h
    · simpa using h
    · split at h
      · rcases List.mem_cons.mp h with h | h
        · exact .inl h
        · exact .inr (by simp [h])
      · rcases List.mem_cons.mp h with h | h
        · exact .inr (by simp [h])
        · rcases ih h with h | h
          · exact .inl h
          · exact .inr (by simp [h])

theorem Store.put_wf (d : α) (a : Nat) (v : α) (m : List (Nat × α)) (hv : v ≠ d) (h : Store.wf d m = true) :
    Store.wf d (Store.put a v m) = true := by
  rw [Store.wf_iff] at h ⊢
  refine ⟨?_, fun c hc => ?_⟩
  · have hp := h.1
    clear h
    induction m with
    | nil => simp [Store.put]
    | cons e rest ih =>
      obtain ⟨k, w⟩ := e
      rw [List.pairwise_cons] at hp
      unfold Store.put
      split
      · rename_i hak
        rw [List.pairwise_cons, List.pairwise_cons]
        refine ⟨fun x hx => ?_, hp⟩
        rcases List.mem_cons.mp hx with rfl | hx
        · exact hak
        · exact Nat.lt_trans hak (hp.1 x hx)
      · split
        · rename_i hak
          subst hak
          exact List.pairwise_cons.mpr hp
        · rename_i h1 h2
          rw [List.pairwise_cons]
          refine ⟨fun x hx => ?_, ih hp.2⟩
          rcases Store.mem_put a v rest x hx with rfl | hx
          · exact Nat.lt_of_le_of_ne (Nat.le_of_not_lt h1) (Ne.symm h2)
          · exact hp.1 x hx
  · rcases Store.mem_put a v m c hc with rfl | hc
    · exact hv
    · exact h.2 c hc

theorem Store.write_wf (d : α) (m : List (Nat × α)) (a : Nat) (v : α) (h : Store.wf d m = true) :
    Store.wf d (Store.write d m a v) = true := by
  unfold Store.write
  split
  · exact Store.clear_wf d _ m h
  · rename_i hv
    exact Store.put_wf d a v m hv h

theorem Store.writeAll_wf (d : α) (cells m : List (Nat × α)) (h : Store.wf d m = true) :
    Store.wf d (Store.writeAll d m cells) = true := by
  induction cells generalizing m with
  | nil => exact h
  | cons c rest ih => exact ih _ (Store.write_wf d m c.1 c.2 h)

end

/-! ## The Flash Array -/

theorem Flash.line_setLine_same (f : Flash) (b : BankId) (line : Nat) (v : Line) : (f.setLine b line v).line b line = v :=
  Store.read_write_same _ f _ v

theorem Flash.line_setLine_other (f : Flash) (b b' : BankId) (line line' : Nat) (v : Line)
    (h : lineKey b' line' ≠ lineKey b line) : (f.setLine b line v).line b' line' = f.line b' line' :=
  Store.read_write_other _ f v h

theorem Flash.setLine_wf (f : Flash) (b : BankId) (line : Nat) (v : Line) (h : Store.wf Line.erased f = true) :
    Store.wf Line.erased (f.setLine b line v) = true := Store.write_wf _ f _ v h

theorem Flash.eraseBank_wf (f : Flash) (b : BankId) (remains : EraseRemains) (h : Store.wf Line.erased f = true) :
    Store.wf Line.erased (f.eraseBank b remains) = true :=
  Store.writeAll_wf _ _ _ (Store.clear_wf _ _ f h)

theorem Flash.line_eraseBank_other (f : Flash) (b b' : BankId) (line : Nat) (remains : EraseRemains) (hl : line < 128)
    (h : b' ≠ b) : (f.eraseBank b remains).line b' line = f.line b' line := by
  have hk : lineKey b' line / 128 ≠ b.val := by
    unfold lineKey
    have := Fin.val_ne_of_ne h
    omega
  unfold Flash.eraseBank Flash.line
  rw [Store.read_writeAll_other, Store.read_clear]
  · simp [hk]
  · intro c hc e
    obtain ⟨r, _, rfl⟩ := List.mem_map.mp hc
    apply hk
    rw [← e]
    show (b.val * 128 + r.1.val) / 128 = b.val
    have := r.1.isLt
    omega

theorem cutProgram_wf (f : Flash) (op : Option (Requester × Request)) (read : LineRead) (h : Store.wf Line.erased f = true) :
    Store.wf Line.erased (cutProgram f op read) = true := by
  unfold cutProgram
  split
  · split
    · exact Flash.setLine_wf f _ _ _ h
    · exact h
  · exact h

theorem cutErase_wf (f : Flash) (e : Option EraseOp) (remains : EraseRemains) (h : Store.wf Line.erased f = true) :
    Store.wf Line.erased (cutErase f e remains) = true := by
  unfold cutErase
  split
  · exact Flash.eraseBank_wf f _ remains h
  · exact h

/-! ## The staging buffers -/

/-- The canonical form of a buffer's bytes. -/
def Buffer.wf (b : Buffer) : Bool := Store.wf 0 b.bytes

theorem Buffer.receive_wf (b : Buffer) (v : Byte) (h : b.wf = true) : (b.receive v).wf = true := by
  unfold Buffer.receive
  split
  · exact Store.write_wf _ _ _ _ h
  · exact h

theorem Buffer.step_wf (b : Buffer) (h : b.wf = true) : b.step.wf = true := h

theorem Buffer.fill_wf (b : Buffer) (bytes : List Byte) (h : b.wf = true) : (b.fill bytes).wf = true :=
  Store.writeAll_wf _ _ _ h

theorem Buffer.initial_wf : Buffer.initial.wf = true := rfl

/-- A byte stored through the data port is read back at its index; other indices keep their bytes. -/
theorem Buffer.byte_receive (b : Buffer) (v : Byte) (i : Nat) :
    (b.receive v).byte i = if b.owner = .host ∧ i = b.pointer.toNat then v else b.byte i := by
  unfold Buffer.receive Buffer.byte
  cases b.owner with
  | host =>
    by_cases hi : i = b.pointer.toNat
    · subst hi; simp [Store.read_write_same]
    · simp [Store.read_write_other _ _ _ hi, hi]
  | engine => simp

end Sys2Proof.Machine
end

