-- ==== Sys2Proof/Laws/HostSide.lean ====
section
/-! SUPPORT. What every operation of the engines leaves of the host side: the sum that the credit law bounds does not change (R67), and
the bytes of the staging buffers stay in the canonical form. One pair of lemmas for each operation. -/
namespace Sys2Proof.Machine
open Sys2Proof

/-- The bytes of the four buffers are in the canonical form. -/
def Device.bufs (d : Device) : Prop := ∀ i, (d.buffer i).wf = true

theorem Device.setBuffer_buffer (d : Device) (i j : Fin 4) (b : Buffer) :
    (d.setBuffer i b).buffer j = if i = j then b else d.buffer j := by
  show (d.buffers.set i.val b i.isLt)[j.val] = if i = j then b else d.buffers[j.val]
  rw [Vector.getElem_set]
  simp [Fin.ext_iff]

@[simp] theorem Device.setBuffer_load (d : Device) (i : Fin 4) (b : Buffer) : (d.setBuffer i b).load = d.load := rfl

theorem Device.setBuffer_bufs (d : Device) (i : Fin 4) (b : Buffer) (h : d.bufs) (hb : b.wf = true) : (d.setBuffer i b).bufs := by
  intro j
  rw [Device.setBuffer_buffer]
  split
  · exact hb
  · exact h j

/-- A record update that keeps queue, FIFO and executing command keeps the sum. -/
@[simp] theorem Device.mk_load (d : Device) (buffers' : Vector Buffer 4) (flags' : Flags) (dir' : List DirEntry) (level' : LockLevel) (banks' : Vector BankEntry 32) (openMark' : Option (BankId × Opener)) (nextSeq' : Nat) (nextEpoch' : Nat) (store' : StoreState) (generation' : Option Nat) (causes' : Causes) (mountOutcome' : MountOutcome) (banksHanded' : Nat) (group' : Option GroupContext) (commits' : List CommitEntry) (reclaim' : Reclaim) (fc' : FlashController) (mount' : MountUnit) :
    (Device.mk d.queue d.fifo buffers' flags' d.ex dir' level' banks' openMark' nextSeq' nextEpoch' store' generation' causes' mountOutcome' banksHanded' group' commits' reclaim' fc' mount').load = d.load := rfl

/-- A record update that keeps the four buffers keeps their form. -/
@[simp] theorem Device.mk_bufs (d : Device) (queue' : List Posted) (fifo' : List Completion) (flags' : Flags) (ex' : Option Executing) (dir' : List DirEntry) (level' : LockLevel) (banks' : Vector BankEntry 32) (openMark' : Option (BankId × Opener)) (nextSeq' : Nat) (nextEpoch' : Nat) (store' : StoreState) (generation' : Option Nat) (causes' : Causes) (mountOutcome' : MountOutcome) (banksHanded' : Nat) (group' : Option GroupContext) (commits' : List CommitEntry) (reclaim' : Reclaim) (fc' : FlashController) (mount' : MountUnit) :
    (Device.mk queue' fifo' d.buffers flags' ex' dir' level' banks' openMark' nextSeq' nextEpoch' store' generation' causes' mountOutcome' banksHanded' group' commits' reclaim' fc' mount').bufs ↔ d.bufs := ⟨fun h => h, fun h => h⟩

theorem Device.foldl_load {α : Type} (f : Device → α → Device) (hf : ∀ d a, (f d a).load = d.load) (l : List α) (d : Device) :
    (l.foldl f d).load = d.load := by
  induction l generalizing d with
  | nil => rfl
  | cons a l ih => rw [List.foldl_cons, ih, hf]

theorem Device.foldl_bufs {α : Type} (f : Device → α → Device) (hf : ∀ d a, d.bufs → (f d a).bufs) (l : List α) (d : Device)
    (h : d.bufs) : (l.foldl f d).bufs := by
  induction l generalizing d with
  | nil => exact h
  | cons a l ih => exact ih _ (hf d a h)

/-! ## Ops.lean -/

@[simp] theorem Device.setBank_load (d : Device) (b : BankId) (e : BankEntry) : (Device.setBank d b e).load = d.load := rfl

@[simp] theorem Device.setBank_bufs (d : Device) (b : BankId) (e : BankEntry) (hb : d.bufs) : (Device.setBank d b e).bufs := hb

@[simp] theorem Device.addDead_load (d : Device) (b : BankId) (n : Nat) : (Device.addDead d b n).load = d.load := rfl

@[simp] theorem Device.addDead_bufs (d : Device) (b : BankId) (n : Nat) (hb : d.bufs) : (Device.addDead d b n).bufs := hb

@[simp] theorem Device.fillActive_load (d : Device) (b : BankId) : (Device.fillActive d b).load = d.load := by
  unfold Device.fillActive
  split <;> rfl

@[simp] theorem Device.fillActive_bufs (d : Device) (b : BankId) (hb : d.bufs) : (Device.fillActive d b).bufs := by
  unfold Device.fillActive
  split <;> exact hb

@[simp] theorem Device.markSuspect_load (d : Device) (b : BankId) : (Device.markSuspect d b).load = d.load := rfl

@[simp] theorem Device.markSuspect_bufs (d : Device) (b : BankId) (hb : d.bufs) : (Device.markSuspect d b).bufs := hb

@[simp] theorem Device.makeFree_load (d : Device) (b : BankId) (count : Nat) : (Device.makeFree d b count).load = d.load := rfl

@[simp] theorem Device.makeFree_bufs (d : Device) (b : BankId) (count : Nat) (hb : d.bufs) : (Device.makeFree d b count).bufs := hb

@[simp] theorem Device.emptyInto_load (d : Device) (b : BankId) (st : BankState) : (Device.emptyInto d b st).load = d.load := rfl

@[simp] theorem Device.emptyInto_bufs (d : Device) (b : BankId) (st : BankState) (hb : d.bufs) :
    (Device.emptyInto d b st).bufs := hb

@[simp] theorem Device.putEntry_load (d : Device) (e : DirEntry) : (Device.putEntry d e).load = d.load := rfl

@[simp] theorem Device.putEntry_bufs (d : Device) (e : DirEntry) (hb : d.bufs) : (Device.putEntry d e).bufs := hb

@[simp] theorem Device.removeEntry_load (d : Device) (k : Key) : (Device.removeEntry d k).load = d.load := rfl

@[simp] theorem Device.removeEntry_bufs (d : Device) (k : Key) (hb : d.bufs) : (Device.removeEntry d k).bufs := hb

@[simp] theorem Device.mapGroup_load (d : Device) (f : GroupContext → GroupContext) : (Device.mapGroup d f).load = d.load := rfl

@[simp] theorem Device.mapGroup_bufs (d : Device) (f : GroupContext → GroupContext) (hb : d.bufs) : (Device.mapGroup d f).bufs := hb

@[simp] theorem Device.mapReclaim_load (d : Device) (f : Reclaim → Reclaim) : (Device.mapReclaim d f).load = d.load := rfl

@[simp] theorem Device.mapReclaim_bufs (d : Device) (f : Reclaim → Reclaim) (hb : d.bufs) : (Device.mapReclaim d f).bufs := hb

@[simp] theorem Device.setJob_load (d : Device) (j : ReclaimJob) : (Device.setJob d j).load = d.load := rfl

@[simp] theorem Device.setJob_bufs (d : Device) (j : ReclaimJob) (hb : d.bufs) : (Device.setJob d j).bufs := hb

@[simp] theorem Device.mapVictim_load (d : Device) (f : Victim → Victim) : (Device.mapVictim d f).load = d.load := rfl

@[simp] theorem Device.mapVictim_bufs (d : Device) (f : Victim → Victim) (hb : d.bufs) : (Device.mapVictim d f).bufs := hb

@[simp] theorem Device.setStage_load (d : Device) (st : Stage) : (Device.setStage d st).load = d.load := by
  unfold Device.setStage Device.load Device.attached
  cases d.ex <;> rfl

@[simp] theorem Device.setStage_bufs (d : Device) (st : Stage) (hb : d.bufs) : (Device.setStage d st).bufs := hb

@[simp] theorem Device.request_load (d : Device) (who : Requester) (r : Request) : (Device.request d who r).load = d.load := by
  unfold Device.request
  split <;> rfl

@[simp] theorem Device.request_bufs (d : Device) (who : Requester) (r : Request) (hb : d.bufs) : (Device.request d who r).bufs := by
  unfold Device.request
  split <;> exact hb

/-! ## Flags.lean -/

@[simp] theorem Device.noteOpening_load (d : Device) (freeBefore : Nat) : (Device.noteOpening d freeBefore).load = d.load := by
  unfold Device.noteOpening
  split <;> rfl

@[simp] theorem Device.noteOpening_bufs (d : Device) (freeBefore : Nat) (hb : d.bufs) : (Device.noteOpening d freeBefore).bufs := by
  unfold Device.noteOpening
  split <;> exact hb

/-! ## Tables.lean -/

@[simp] theorem Device.supersede_load (d : Device) (e : DirEntry) : (Device.supersede d e).load = d.load := by
  unfold Device.supersede
  split <;> rfl

@[simp] theorem Device.supersede_bufs (d : Device) (e : DirEntry) (hb : d.bufs) : (Device.supersede d e).bufs := by
  unfold Device.supersede
  split <;> exact hb

@[simp] theorem Device.dropSpentTombstone_load (d : Device) (k : Key) : (Device.dropSpentTombstone d k).load = d.load := by
  dsimp only [Device.dropSpentTombstone]
  repeat' split
  all_goals rfl

@[simp] theorem Device.dropSpentTombstone_bufs (d : Device) (k : Key) (hb : d.bufs) : (Device.dropSpentTombstone d k).bufs := by
  dsimp only [Device.dropSpentTombstone]
  repeat' split
  all_goals exact hb

@[simp] theorem Device.commitEntry_load (d : Device) (c : Committed) : (Device.commitEntry d c).load = d.load := by
  dsimp only [Device.commitEntry]
  repeat' split
  all_goals simp

@[simp] theorem Device.commitEntry_bufs (d : Device) (c : Committed) (hb : d.bufs) : (Device.commitEntry d c).bufs := by
  dsimp only [Device.commitEntry]
  repeat' split
  all_goals with_reducible repeat' (first | exact hb | apply Device.supersede_bufs | apply Device.putEntry_bufs | apply Device.dropSpentTombstone_bufs)

@[simp] theorem Device.damageEntry_load (d : Device) (k : Key) : (Device.damageEntry d k).load = d.load := by
  dsimp only [Device.damageEntry]
  repeat' split
  all_goals simp

@[simp] theorem Device.damageEntry_bufs (d : Device) (k : Key) (hb : d.bufs) : (Device.damageEntry d k).bufs := by
  dsimp only [Device.damageEntry]
  repeat' split
  all_goals simp [hb]

@[simp] theorem Device.markWalkDamaged_load (d : Device) (loc : Location) : (Device.markWalkDamaged d loc).load = d.load := rfl

@[simp] theorem Device.markWalkDamaged_bufs (d : Device) (loc : Location) (hb : d.bufs) : (Device.markWalkDamaged d loc).bufs := hb

@[simp] theorem Device.damageMember_load (d : Device) (k : Key) (read : Location) :
    (Device.damageMember d k read).load = d.load := by
  dsimp only [Device.damageMember]
  repeat' split
  all_goals rfl

@[simp] theorem Device.damageMember_bufs (d : Device) (k : Key) (read : Location) (hb : d.bufs) :
    (Device.damageMember d k read).bufs := by
  dsimp only [Device.damageMember]
  repeat' split
  all_goals exact hb

@[simp] theorem Device.copyTakesOver_load (d : Device) (h : Header) (original copy : Location) :
    (Device.copyTakesOver d h original copy).load = d.load := by
  dsimp only [Device.copyTakesOver]
  repeat' split
  all_goals rfl

@[simp] theorem Device.copyTakesOver_bufs (d : Device) (h : Header) (original copy : Location) (hb : d.bufs) :
    (Device.copyTakesOver d h original copy).bufs := by
  dsimp only [Device.copyTakesOver]
  repeat' split
  all_goals exact hb

@[simp] theorem Device.mapCommit_load (d : Device) (gid : Nat) (f : CommitEntry → CommitEntry) :
    (Device.mapCommit d gid f).load = d.load := rfl

@[simp] theorem Device.mapCommit_bufs (d : Device) (gid : Nat) (f : CommitEntry → CommitEntry) (hb : d.bufs) :
    (Device.mapCommit d gid f).bufs := hb

@[simp] theorem Device.addTagged_load (d : Device) (b : BankId) (n : Nat) : (Device.addTagged d b n).load = d.load := rfl

@[simp] theorem Device.addTagged_bufs (d : Device) (b : BankId) (n : Nat) (hb : d.bufs) : (Device.addTagged d b n).bufs := hb

@[simp] theorem Device.memberCopyVerifies_load (d : Device) (h : Header) (gid : Nat) (original copy : Location) :
    (Device.memberCopyVerifies d h gid original copy).load = d.load := by
  dsimp only [Device.memberCopyVerifies]
  repeat' split
  all_goals simp

@[simp] theorem Device.memberCopyVerifies_bufs (d : Device) (h : Header) (gid : Nat) (original copy : Location) (hb : d.bufs) :
    (Device.memberCopyVerifies d h gid original copy).bufs := by
  dsimp only [Device.memberCopyVerifies]
  repeat' split
  all_goals with_reducible repeat' (first | exact hb | apply Device.mapGroup_bufs | apply Device.mapReclaim_bufs | apply Device.addDead_bufs | apply Device.copyTakesOver_bufs | apply Device.mapCommit_bufs | apply Device.addTagged_bufs)

@[simp] theorem Device.commitCopyVerifies_load (d : Device) (original copy : Location) :
    (Device.commitCopyVerifies d original copy).load = d.load := by
  unfold Device.commitCopyVerifies
  split <;> rfl

@[simp] theorem Device.commitCopyVerifies_bufs (d : Device) (original copy : Location) (hb : d.bufs) :
    (Device.commitCopyVerifies d original copy).bufs := by
  unfold Device.commitCopyVerifies
  split <;> exact hb

@[simp] theorem Device.commitMember_load (d : Device) (c : Committed) (loc : Location) :
    (Device.commitMember d c loc).load = d.load := by
  dsimp only [Device.commitMember]
  repeat' split
  all_goals rfl

@[simp] theorem Device.commitMember_bufs (d : Device) (c : Committed) (loc : Location) (hb : d.bufs) :
    (Device.commitMember d c loc).bufs := by
  dsimp only [Device.commitMember]
  repeat' split
  all_goals exact hb

@[simp] theorem Device.applyMember_load (d : Device) (gid : Nat) (m : MemberEntry) :
    (Device.applyMember d gid m).load = d.load := by
  dsimp only [Device.applyMember]
  repeat' split
  all_goals simp

@[simp] theorem Device.applyMember_bufs (d : Device) (gid : Nat) (m : MemberEntry) (hb : d.bufs) :
    (Device.applyMember d gid m).bufs := by
  dsimp only [Device.applyMember]
  repeat' split
  all_goals simp [hb]

@[simp] theorem Device.commitGroup_load (d : Device) (loc : Location) : (Device.commitGroup d loc).load = d.load := by
  dsimp only [Device.commitGroup]
  have h1 (g : GroupContext) : (g.members.foldl (fun d m => d.applyMember g.id m) d).load = d.load :=
    Device.foldl_load _ (fun d m => Device.applyMember_load d g.id m) _ d
  have h2 (g : GroupContext) (d : Device) : (g.records.foldl (fun d (l : Location) => d.addTagged l.bank 1) d).load = d.load :=
    Device.foldl_load _ (fun d (l : Location) => Device.addTagged_load d l.bank 1) _ d
  (repeat' split) <;> first | rfl | simp [h1, h2]

@[simp] theorem Device.commitGroup_bufs (d : Device) (loc : Location) (hb : d.bufs) : (Device.commitGroup d loc).bufs := by
  dsimp only [Device.commitGroup]
  have h1 (g : GroupContext) : (g.members.foldl (fun d m => d.applyMember g.id m) d).bufs :=
    Device.foldl_bufs _ (fun d m => Device.applyMember_bufs d g.id m) _ d hb
  have h2 (g : GroupContext) (d : Device) (hd : d.bufs) : (g.records.foldl (fun d (l : Location) => d.addTagged l.bank 1) d).bufs :=
    Device.foldl_bufs _ (fun d (l : Location) => Device.addTagged_bufs d l.bank 1) _ d hd
  (repeat' split) <;> first | exact hb | simp [h1, h2]

@[simp] theorem Device.orphanMember_load (d : Device) (m : MemberEntry) : (Device.orphanMember d m).load = d.load := by
  unfold Device.orphanMember
  split <;> rfl

@[simp] theorem Device.orphanMember_bufs (d : Device) (m : MemberEntry) (hb : d.bufs) : (Device.orphanMember d m).bufs := by
  unfold Device.orphanMember
  split <;> exact hb

@[simp] theorem Device.endGroup_load (d : Device) : (Device.endGroup d).load = d.load := by
  unfold Device.endGroup
  split
  · rfl
  · exact Device.foldl_load _ (fun d m => Device.orphanMember_load d m) _ d

@[simp] theorem Device.endGroup_bufs (d : Device) (hb : d.bufs) : (Device.endGroup d).bufs := by
  unfold Device.endGroup
  split
  · exact hb
  · exact (Device.mk_bufs _ ..).mpr (Device.foldl_bufs _ (fun d m => Device.orphanMember_bufs d m) _ d hb)

@[simp] theorem Device.expireGroup_load (d : Device) : (Device.expireGroup d).load = d.load := by simp [Device.expireGroup]

@[simp] theorem Device.expireGroup_bufs (d : Device) (hb : d.bufs) : (Device.expireGroup d).bufs := by simp [Device.expireGroup, hb]

@[simp] theorem Device.memberEnded_load (d : Device) : (Device.memberEnded d).load = d.load := by
  dsimp only [Device.memberEnded]
  repeat' split
  all_goals simp

@[simp] theorem Device.memberEnded_bufs (d : Device) (hb : d.bufs) : (Device.memberEnded d).bufs := by
  dsimp only [Device.memberEnded]
  repeat' split
  all_goals simp [hb]

@[simp] theorem Device.releaseBuffer_load (d : Device) (code : CommandCode) (field : Byte) :
    (Device.releaseBuffer d code field).load = d.load := by
  dsimp only [Device.releaseBuffer]
  repeat' split
  all_goals rfl

@[simp] theorem Device.releaseBuffer_bufs (d : Device) (code : CommandCode) (field : Byte) (hb : d.bufs) :
    (Device.releaseBuffer d code field).bufs := by
  dsimp only [Device.releaseBuffer]
  (repeat' split) <;> first | exact hb | exact Device.setBuffer_bufs d _ _ hb (hb _)

@[simp] theorem Device.output_load (d : Device) (bytes : List Byte) : (Device.output d bytes).load = d.load := by
  dsimp only [Device.output]
  repeat' split
  all_goals rfl

@[simp] theorem Device.output_bufs (d : Device) (bytes : List Byte) (hb : d.bufs) : (Device.output d bytes).bufs := by
  dsimp only [Device.output]
  (repeat' split) <;> first | exact hb | exact Device.setBuffer_bufs d _ _ hb (Buffer.fill_wf _ _ (hb _))

@[simp] theorem Device.endCommand_load (d : Device) (status : Status) (result : Nat) :
    (Device.endCommand d status result).load = d.load := by
  rcases hx : d.ex with _ | x
  · simp [Device.endCommand, hx]
  · have key (e : Device) (he : e.load = ({ d with ex := none } : Device).load) :
        (if x.detached then e
          else (e.releaseBuffer x.code x.desc.buffer).placeCompletion x.desc.tag status result).load = d.load := by
      have h0 : ({ d with ex := none } : Device).load = d.queue.length + d.fifo.length := by simp [Device.load, Device.attached]
      have h1 : d.load = d.queue.length + (if x.detached then 0 else 1) + d.fifo.length := by
        simp [Device.load, Device.attached, hx]
      have h2 (e : Device) (t : Byte) : (e.placeCompletion t status result).load = e.load + 1 := by
        simp [Device.placeCompletion, Device.load, Device.attached]
        omega
      split
      · rw [he, h0, h1]; simp [*]
      · rw [h2, Device.releaseBuffer_load, he, h0, h1]; simp [*]; omega
    unfold Device.endCommand
    rw [hx]
    apply key
    dsimp only
    (repeat' split) <;> simp

@[simp] theorem Device.endCommand_bufs (d : Device) (status : Status) (result : Nat) (hb : d.bufs) :
    (Device.endCommand d status result).bufs := by
  have hp (e : Device) (t : Byte) (he : e.bufs) : (e.placeCompletion t status result).bufs := he
  unfold Device.endCommand
  split
  · exact hb
  · rename_i x hx
    have he : ({ d with ex := none } : Device).bufs := hb
    revert he
    generalize ({ d with ex := none } : Device) = e
    intro he
    dsimp only
    repeat' split
    all_goals
      with_reducible repeat'
        (first | exact he | apply hp | apply Device.releaseBuffer_bufs | apply Device.memberEnded_bufs | apply Device.endGroup_bufs)

@[simp] theorem Device.degrade_load (d : Device) (c : Cause) : (Device.degrade d c).load = d.load := by
  dsimp only [Device.degrade]
  repeat' split
  all_goals simp

@[simp] theorem Device.degrade_bufs (d : Device) (c : Cause) (hb : d.bufs) : (Device.degrade d c).bufs := by
  dsimp only [Device.degrade]
  repeat' split
  all_goals with_reducible repeat' (first | exact hb | apply Device.endCommand_bufs | apply (Device.mk_bufs _ ..).mpr)

/-! ## Controller.lean -/

@[simp] theorem Device.decideSuspension_load (c : Ctx) (d : Device) : (Device.decideSuspension c d).load = d.load := by
  dsimp only [Device.decideSuspension]
  repeat' split
  all_goals rfl

@[simp] theorem Device.decideSuspension_bufs (c : Ctx) (d : Device) (hb : d.bufs) : (Device.decideSuspension c d).bufs := by
  dsimp only [Device.decideSuspension]
  repeat' split
  all_goals exact hb

@[simp] theorem Device.noteFormatGrant_load (d : Device) (who : Requester) : (Device.noteFormatGrant d who).load = d.load := by
  unfold Device.noteFormatGrant
  split
  · unfold Device.load Device.attached
    cases d.ex <;> rfl
  · rfl

@[simp] theorem Device.noteFormatGrant_bufs (d : Device) (who : Requester) (hb : d.bufs) : (Device.noteFormatGrant d who).bufs := by
  unfold Device.noteFormatGrant
  split <;> exact hb

@[simp] theorem Device.grantRequest_load (d : Device) (who : Requester) (r : Request) :
    (Device.grantRequest d who r).load = d.load := by simp [Device.grantRequest]

@[simp] theorem Device.grantRequest_bufs (d : Device) (who : Requester) (r : Request) (hb : d.bufs) :
    (Device.grantRequest d who r).bufs := by
  dsimp only [Device.grantRequest]
  all_goals with_reducible repeat' (first | exact hb | apply Device.noteFormatGrant_bufs | apply (Device.mk_bufs _ ..).mpr)

@[simp] theorem Device.resumeErase_load (d : Device) : (Device.resumeErase d).load = d.load := by
  unfold Device.resumeErase
  split <;> rfl

@[simp] theorem Device.resumeErase_bufs (d : Device) (hb : d.bufs) : (Device.resumeErase d).bufs := by
  unfold Device.resumeErase
  split <;> exact hb

@[simp] theorem Device.grantAll_load (c : Ctx) (n : Nat) (d : Device) : (Device.grantAll c n d).load = d.load := by
  induction n generalizing d with
  | zero => rfl
  | succ n ih => unfold Device.grantAll; split <;> simp [ih]

@[simp] theorem Device.grantAll_bufs (c : Ctx) (n : Nat) (d : Device) (hb : d.bufs) : (Device.grantAll c n d).bufs := by
  induction n generalizing d with
  | zero => exact hb
  | succ n ih => 
    unfold Device.grantAll
    split
    · exact ih _ (Device.grantRequest_bufs _ _ _ (Device.decideSuspension_bufs c d hb))
    · exact Device.decideSuspension_bufs c d hb

@[simp] theorem Device.arbitrate_load (c : Ctx) (d : Device) : (Device.arbitrate c d).load = d.load := by
  unfold Device.arbitrate
  split <;> simp

@[simp] theorem Device.arbitrate_bufs (c : Ctx) (d : Device) (hb : d.bufs) : (Device.arbitrate c d).bufs := by
  dsimp only [Device.arbitrate]
  repeat' split
  all_goals with_reducible repeat' (first | exact hb | apply Device.grantAll_bufs | apply Device.resumeErase_bufs)

/-! ## Placement.lean -/

@[simp] theorem Device.reserveLines_load (d : Device) (b : BankId) (span : Nat) :
    (Device.reserveLines d b span).load = d.load := rfl

@[simp] theorem Device.reserveLines_bufs (d : Device) (b : BankId) (span : Nat) (hb : d.bufs) :
    (Device.reserveLines d b span).bufs := hb

@[simp] theorem Device.reserve_load (d : Device) (w : Writer) (b : BankId) : (d.reserve w b).2.load = d.load := by
  dsimp only [Device.reserve]
  split <;> simp

@[simp] theorem Device.reserve_bufs (d : Device) (w : Writer) (b : BankId) (hb : d.bufs) : (d.reserve w b).2.bufs := by
  dsimp only [Device.reserve]
  split <;> simp [hb]

@[simp] theorem Device.beginOpen_load (d : Device) (who : Opener) (b : BankId) :
    (Device.beginOpen d who b).load = d.load := by simp [Device.beginOpen]

@[simp] theorem Device.beginOpen_bufs (d : Device) (who : Opener) (b : BankId) (hb : d.bufs) :
    (Device.beginOpen d who b).bufs := by simp [Device.beginOpen, hb]

@[simp] theorem Device.openSucceeded_load (d : Device) (b : BankId) (epoch : Nat) (quiet : Bool) :
    (Device.openSucceeded d b epoch quiet).load = d.load := by
  dsimp only [Device.openSucceeded]
  repeat' split
  all_goals simp

@[simp] theorem Device.openSucceeded_bufs (d : Device) (b : BankId) (epoch : Nat) (quiet : Bool) (hb : d.bufs) :
    (Device.openSucceeded d b epoch quiet).bufs := by
  dsimp only [Device.openSucceeded]
  repeat' split
  all_goals with_reducible repeat' (first | exact hb | apply Device.fillActive_bufs | apply Device.setBank_bufs | apply Device.noteOpening_bufs | apply (Device.mk_bufs _ ..).mpr)

@[simp] theorem Device.openFaulted_load (d : Device) (b : BankId) (epoch : Nat) (quiet : Bool) :
    (Device.openFaulted d b epoch quiet).load = d.load := by
  unfold Device.openFaulted
  split <;> simp

@[simp] theorem Device.openFaulted_bufs (d : Device) (b : BankId) (epoch : Nat) (quiet : Bool) (hb : d.bufs) :
    (Device.openFaulted d b epoch quiet).bufs := by
  dsimp only [Device.openFaulted]
  repeat' split
  all_goals with_reducible repeat' (first | exact hb | apply Device.setBank_bufs | apply Device.noteOpening_bufs | apply (Device.mk_bufs _ ..).mpr)

@[simp] theorem Device.abandonSpan_load (d : Device) (w : Writer) (r : Reservation) :
    (Device.abandonSpan d w r).load = d.load := rfl

@[simp] theorem Device.abandonSpan_bufs (d : Device) (w : Writer) (r : Reservation) (hb : d.bufs) :
    (Device.abandonSpan d w r).bufs := hb

@[simp] theorem Device.faultBank_load (d : Device) (b : BankId) : (Device.faultBank d b).load = d.load := by simp [Device.faultBank]

@[simp] theorem Device.faultBank_bufs (d : Device) (b : BankId) (hb : d.bufs) :
    (Device.faultBank d b).bufs := by simp [Device.faultBank, hb]

@[simp] theorem Device.epochExhausted_load (d : Device) : (Device.epochExhausted d).load = d.load := by simp [Device.epochExhausted]

@[simp] theorem Device.epochExhausted_bufs (d : Device) (hb : d.bufs) : (Device.epochExhausted d).bufs := by
  dsimp only [Device.epochExhausted]
  all_goals with_reducible repeat' (first | exact hb | apply Device.degrade_bufs | apply (Device.mk_bufs _ ..).mpr)

/-! ## Mount.lean -/

@[simp] theorem Device.resetTables_load (d : Device) : (Device.resetTables d).load = d.load := rfl

@[simp] theorem Device.resetTables_bufs (d : Device) (hb : d.bufs) : (Device.resetTables d).bufs := hb

@[simp] theorem Device.beginMount_load (d : Device) : (Device.beginMount d).load = d.load := rfl

@[simp] theorem Device.beginMount_bufs (d : Device) (hb : d.bufs) : (Device.beginMount d).bufs := hb

@[simp] theorem Device.handOff_load (d : Device) : (Device.handOff d).load = d.load := rfl

@[simp] theorem Device.handOff_bufs (d : Device) (hb : d.bufs) : (Device.handOff d).bufs := hb

@[simp] theorem Device.finishMount_load (d : Device) (rows : List CensusRow) (scans : List ScanBank) :
    (Device.finishMount d rows scans).load = d.load := rfl

@[simp] theorem Device.finishMount_bufs (d : Device) (rows : List CensusRow) (scans : List ScanBank) (hb : d.bufs) :
    (Device.finishMount d rows scans).bufs := hb

@[simp] theorem Device.finishBlank_load (d : Device) (rows : List CensusRow) : (Device.finishBlank d rows).load = d.load := rfl

@[simp] theorem Device.finishBlank_bufs (d : Device) (rows : List CensusRow) (hb : d.bufs) : (Device.finishBlank d rows).bufs := hb

@[simp] theorem Device.nextScan_load (d : Device) (rows : List CensusRow) (todo : List (BankId × Nat)) (done : List ScanBank) :
    (Device.nextScan d rows todo done).load = d.load := by
  unfold Device.nextScan
  split <;> rfl

@[simp] theorem Device.nextScan_bufs (d : Device) (rows : List CensusRow) (todo : List (BankId × Nat)) (done : List ScanBank) (hb : d.bufs) :
    (Device.nextScan d rows todo done).bufs := by
  unfold Device.nextScan
  split <;> exact hb

@[simp] theorem Device.censusDone_load (d : Device) (rows : List CensusRow) : (Device.censusDone d rows).load = d.load := by
  dsimp only [Device.censusDone]
  repeat' split
  all_goals simp

@[simp] theorem Device.censusDone_bufs (d : Device) (rows : List CensusRow) (hb : d.bufs) : (Device.censusDone d rows).bufs := by
  dsimp only [Device.censusDone]
  repeat' split
  all_goals simp [hb]

@[simp] theorem Device.mountRead_load (d : Device) (lines : List Line) : (Device.mountRead d lines).load = d.load := by
  dsimp only [Device.mountRead]
  repeat' split
  all_goals simp

@[simp] theorem Device.mountRead_bufs (d : Device) (lines : List Line) (hb : d.bufs) : (Device.mountRead d lines).bufs := by
  dsimp only [Device.mountRead]
  repeat' split
  all_goals simp [hb]

@[simp] theorem Device.stopMount_load (d : Device) : (Device.stopMount d).load = d.load := rfl

@[simp] theorem Device.stopMount_bufs (d : Device) (hb : d.bufs) : (Device.stopMount d).bufs := hb

/-! ## FormatEnds.lean -/

@[simp] theorem Device.mapFormat_load (d : Device) (f : FormatProgress → FormatProgress) :
    (Device.mapFormat d f).load = d.load := by
  unfold Device.mapFormat Device.load Device.attached
  cases d.ex <;> rfl

@[simp] theorem Device.mapFormat_bufs (d : Device) (f : FormatProgress → FormatProgress) (hb : d.bufs) :
    (Device.mapFormat d f).bufs := hb

@[simp] theorem Device.formatCommitted_load (d : Device) : (Device.formatCommitted d).load = d.load := rfl

@[simp] theorem Device.formatCommitted_bufs (d : Device) (hb : d.bufs) : (Device.formatCommitted d).bufs := hb

@[simp] theorem Device.formatFinish_load (d : Device) : (Device.formatFinish d).load = d.load := by
  dsimp only [Device.formatFinish]
  repeat' split
  all_goals simp

@[simp] theorem Device.formatFinish_bufs (d : Device) (hb : d.bufs) : (Device.formatFinish d).bufs := by
  dsimp only [Device.formatFinish]
  repeat' split
  all_goals simp [hb]

@[simp] theorem Device.formatWithdrawn_load (d : Device) (f : FormatProgress) : (Device.formatWithdrawn d f).load = d.load := rfl

@[simp] theorem Device.formatWithdrawn_bufs (d : Device) (f : FormatProgress) (hb : d.bufs) :
    (Device.formatWithdrawn d f).bufs := hb

@[simp] theorem Device.formatPowerEnd_load (d : Device) : (Device.formatPowerEnd d).load = d.load := by
  dsimp only [Device.formatPowerEnd]
  repeat' split
  all_goals simp

@[simp] theorem Device.formatPowerEnd_bufs (d : Device) (hb : d.bufs) : (Device.formatPowerEnd d).bufs := by
  dsimp only [Device.formatPowerEnd]
  repeat' split
  all_goals simp [hb]

/-! ## CommandRecord.lean -/

@[simp] theorem Device.commandPowerEnd_load (d : Device) : (Device.commandPowerEnd d).load = d.load := by
  unfold Device.commandPowerEnd
  split <;> simp

@[simp] theorem Device.commandPowerEnd_bufs (d : Device) (hb : d.bufs) : (Device.commandPowerEnd d).bufs := by
  unfold Device.commandPowerEnd
  split <;> simp [hb]

@[simp] theorem Device.commandFails_load (d : Device) (status : Status) : (Device.commandFails d status).load = d.load := by
  unfold Device.commandFails
  split <;> simp

@[simp] theorem Device.commandFails_bufs (d : Device) (status : Status) (hb : d.bufs) : (Device.commandFails d status).bufs := by
  unfold Device.commandFails
  split <;> simp [hb]

@[simp] theorem Device.commandOutOfSequences_load (d : Device) :
    (Device.commandOutOfSequences d).load = d.load := by simp [Device.commandOutOfSequences]

@[simp] theorem Device.commandOutOfSequences_bufs (d : Device) (hb : d.bufs) :
    (Device.commandOutOfSequences d).bufs := by simp [Device.commandOutOfSequences, hb]

@[simp] theorem Device.commandReserve_load (d : Device) (w : Writer) (b : BankId) :
    (Device.commandReserve d w b).load = d.load := by
  dsimp only [Device.commandReserve]
  split <;> simp

@[simp] theorem Device.commandReserve_bufs (d : Device) (w : Writer) (b : BankId) (hb : d.bufs) :
    (Device.commandReserve d w b).bufs := by
  dsimp only [Device.commandReserve]
  split
  · exact Device.request_bufs _ _ _ (Device.setStage_bufs _ _ (Device.reserve_bufs d w b hb))
  · exact Device.commandOutOfSequences_bufs d hb

@[simp] theorem Device.commandOpen_load (d : Device) (w : Writer) (b : BankId) : (Device.commandOpen d w b).load = d.load := by
  unfold Device.commandOpen
  split <;> simp

@[simp] theorem Device.commandOpen_bufs (d : Device) (w : Writer) (b : BankId) (hb : d.bufs) : (Device.commandOpen d w b).bufs := by
  unfold Device.commandOpen
  split <;> simp [hb]

@[simp] theorem Device.commandWaits_load (d : Device) (w : Writer) : (Device.commandWaits d w).load = d.load := by
  dsimp only [Device.commandWaits]
  repeat' split
  all_goals simp

@[simp] theorem Device.commandWaits_bufs (d : Device) (w : Writer) (hb : d.bufs) : (Device.commandWaits d w).bufs := by
  dsimp only [Device.commandWaits]
  repeat' split
  all_goals simp [hb]

@[simp] theorem Device.commandPlace_load (c : Ctx) (d : Device) (w : Writer) : (Device.commandPlace c d w).load = d.load := by
  dsimp only [Device.commandPlace]
  repeat' split
  all_goals simp

@[simp] theorem Device.commandPlace_bufs (c : Ctx) (d : Device) (w : Writer) (hb : d.bufs) : (Device.commandPlace c d w).bufs := by
  dsimp only [Device.commandPlace]
  repeat' split
  all_goals simp [hb]

@[simp] theorem Device.commitUserRecord_load (d : Device) (x : Executing) (w : Writer) (r : Reservation) :
    (Device.commitUserRecord d x w r).load = d.load := by
  unfold Device.commitUserRecord
  split <;> simp

@[simp] theorem Device.commitUserRecord_bufs (d : Device) (x : Executing) (w : Writer) (r : Reservation) (hb : d.bufs) :
    (Device.commitUserRecord d x w r).bufs := by
  unfold Device.commitUserRecord
  split <;> simp [hb]

@[simp] theorem Device.commandCommit_load (d : Device) (x : Executing) (w : Writer) (r : Reservation) :
    (Device.commandCommit d x w r).load = d.load := by
  unfold Device.commandCommit
  split <;> simp

@[simp] theorem Device.commandCommit_bufs (d : Device) (x : Executing) (w : Writer) (r : Reservation) (hb : d.bufs) :
    (Device.commandCommit d x w r).bufs := by
  dsimp only [Device.commandCommit]
  repeat' split
  all_goals with_reducible repeat' (first | exact hb | apply Device.commitGroup_bufs | apply Device.endCommand_bufs | apply Device.commitEntry_bufs | apply Device.formatFinish_bufs | apply Device.commitUserRecord_bufs | apply Device.output_bufs | apply (Device.mk_bufs _ ..).mpr)

@[simp] theorem Device.commandFault_load (c : Ctx) (d : Device) (w : Writer) : (Device.commandFault c d w).load = d.load := by
  dsimp only [Device.commandFault]
  repeat' split
  all_goals simp

@[simp] theorem Device.commandFault_bufs (c : Ctx) (d : Device) (w : Writer) (hb : d.bufs) : (Device.commandFault c d w).bufs := by
  dsimp only [Device.commandFault]
  repeat' split
  all_goals simp [hb]

@[simp] theorem Device.commandOpened_load (c : Ctx) (d : Device) (x : Executing) (w : Writer) (b : BankId) (epoch : Nat) (o : ProgramOutcome) :
    (Device.commandOpened c d x w b epoch o).load = d.load := by
  unfold Device.commandOpened
  split <;> simp

@[simp] theorem Device.commandOpened_bufs (c : Ctx) (d : Device) (x : Executing) (w : Writer) (b : BankId) (epoch : Nat) (o : ProgramOutcome) (hb : d.bufs) :
    (Device.commandOpened c d x w b epoch o).bufs := by
  dsimp only [Device.commandOpened]
  repeat' split
  all_goals with_reducible repeat' (first | exact hb | apply Device.openSucceeded_bufs | apply Device.commandReserve_bufs | apply Device.openFaulted_bufs | apply Device.commandFault_bufs)

@[simp] theorem Device.commandLine_load (c : Ctx) (d : Device) (x : Executing) (w : Writer) (r : Reservation) (o : ProgramOutcome) :
    (Device.commandLine c d x w r o).load = d.load := by
  dsimp only [Device.commandLine]
  repeat' split
  all_goals simp

@[simp] theorem Device.commandLine_bufs (c : Ctx) (d : Device) (x : Executing) (w : Writer) (r : Reservation) (o : ProgramOutcome) (hb : d.bufs) :
    (Device.commandLine c d x w r o).bufs := by
  dsimp only [Device.commandLine]
  repeat' split
  all_goals with_reducible repeat' (first | exact hb | apply Device.formatPowerEnd_bufs | apply Device.setStage_bufs | apply Device.request_bufs | apply Device.faultBank_bufs | apply Device.commandCommit_bufs | apply Device.abandonSpan_bufs | apply Device.commandFault_bufs)

@[simp] theorem Device.commandRefused_load (d : Device) : (Device.commandRefused d).load = d.load := by
  dsimp only [Device.commandRefused]
  repeat' split
  all_goals simp

@[simp] theorem Device.commandRefused_bufs (d : Device) (hb : d.bufs) : (Device.commandRefused d).bufs := by
  dsimp only [Device.commandRefused]
  repeat' split
  all_goals with_reducible repeat' (first | exact hb | apply Device.commandPowerEnd_bufs | apply Device.abandonSpan_bufs | apply (Device.mk_bufs _ ..).mpr)

/-! ## FormatWork.lean -/

@[simp] theorem Device.formatTaken_load (d : Device) : (Device.formatTaken d).load = d.load := by
  unfold Device.formatTaken Device.load Device.attached
  cases d.ex <;> rfl

@[simp] theorem Device.formatTaken_bufs (d : Device) (hb : d.bufs) : (Device.formatTaken d).bufs := hb

@[simp] theorem Device.formatHeaderOf_load (d : Device) (f : FormatProgress) (b : BankId) (again : Bool) :
    (Device.formatHeaderOf d f b again).load = d.load := by simp [Device.formatHeaderOf]

@[simp] theorem Device.formatHeaderOf_bufs (d : Device) (f : FormatProgress) (b : BankId) (again : Bool) (hb : d.bufs) :
    (Device.formatHeaderOf d f b again).bufs := hb

@[simp] theorem Device.formatEraseOf_load (d : Device) (b : BankId) (again : Bool) :
    (Device.formatEraseOf d b again).load = d.load := by simp [Device.formatEraseOf]

@[simp] theorem Device.formatEraseOf_bufs (d : Device) (b : BankId) (again : Bool) (hb : d.bufs) :
    (Device.formatEraseOf d b again).bufs := hb

@[simp] theorem Device.formatBank_load (d : Device) (f : FormatProgress) (b : BankId) :
    (Device.formatBank d f b).load = d.load := by
  unfold Device.formatBank
  split <;> simp

@[simp] theorem Device.formatBank_bufs (d : Device) (f : FormatProgress) (b : BankId) (hb : d.bufs) :
    (Device.formatBank d f b).bufs := by
  unfold Device.formatBank
  split <;> exact hb

@[simp] theorem Device.formatTables_load (d : Device) : (Device.formatTables d).load = d.load := rfl

@[simp] theorem Device.formatTables_bufs (d : Device) (hb : d.bufs) : (Device.formatTables d).bufs := by
  dsimp only [Device.formatTables]
  all_goals with_reducible repeat' (first | exact hb | apply (Device.mk_bufs _ ..).mpr)

@[simp] theorem Device.formatMap_load (c : Ctx) (d : Device) : (Device.formatMap c d).load = d.load := by
  dsimp only [Device.formatMap]
  repeat' split
  all_goals simp

@[simp] theorem Device.formatMap_bufs (c : Ctx) (d : Device) (hb : d.bufs) : (Device.formatMap c d).bufs := by
  dsimp only [Device.formatMap]
  repeat' split
  all_goals with_reducible repeat' (first | exact hb | apply Device.formatTables_bufs | apply Device.formatFinish_bufs | apply Device.degrade_bufs | apply Device.commandPlace_bufs)

@[simp] theorem Device.formatNext_load (c : Ctx) (d : Device) (f : FormatProgress) : (Device.formatNext c d f).load = d.load := by
  unfold Device.formatNext
  split <;> simp

@[simp] theorem Device.formatNext_bufs (c : Ctx) (d : Device) (f : FormatProgress) (hb : d.bufs) :
    (Device.formatNext c d f).bufs := by
  unfold Device.formatNext
  split <;> simp [hb]

@[simp] theorem Device.formatChoose_load (d : Device) (f : FormatProgress) : (Device.formatChoose d f).load = d.load := by
  unfold Device.formatChoose
  split <;> simp

@[simp] theorem Device.formatChoose_bufs (d : Device) (f : FormatProgress) (hb : d.bufs) : (Device.formatChoose d f).bufs := by
  unfold Device.formatChoose
  split <;> simp [hb]

@[simp] theorem Device.unlist_load (d : Device) (b : BankId) : (Device.unlist d b).load = d.load := rfl

@[simp] theorem Device.unlist_bufs (d : Device) (b : BankId) (hb : d.bufs) : (Device.unlist d b).bufs := hb

@[simp] theorem Device.formatFailed_load (c : Ctx) (d : Device) (f : FormatProgress) (b : BankId) (again : Bool) :
    (Device.formatFailed c d f b again).load = d.load := by
  dsimp only [Device.formatFailed]
  repeat' split
  all_goals simp

@[simp] theorem Device.formatFailed_bufs (c : Ctx) (d : Device) (f : FormatProgress) (b : BankId) (again : Bool) (hb : d.bufs) :
    (Device.formatFailed c d f b again).bufs := by
  dsimp only [Device.formatFailed]
  repeat' split
  all_goals with_reducible repeat' (first | exact hb | apply Device.emptyInto_bufs | apply Device.unlist_bufs | apply Device.formatNext_bufs | apply Device.formatChoose_bufs | apply Device.formatEraseOf_bufs)

@[simp] theorem Device.formatFreed_load (c : Ctx) (d : Device) (f : FormatProgress) (b : BankId) (count : Nat) :
    (Device.formatFreed c d f b count).load = d.load := by
  unfold Device.formatFreed
  split <;> simp

@[simp] theorem Device.formatFreed_bufs (c : Ctx) (d : Device) (f : FormatProgress) (b : BankId) (count : Nat) (hb : d.bufs) :
    (Device.formatFreed c d f b count).bufs := by
  dsimp only [Device.formatFreed]
  repeat' split
  all_goals with_reducible repeat' (first | exact hb | apply Device.makeFree_bufs | apply Device.unlist_bufs | apply Device.formatNext_bufs | apply Device.mapFormat_bufs | apply (Device.mk_bufs _ ..).mpr)

@[simp] theorem Device.formatErased_load (c : Ctx) (d : Device) (f : FormatProgress) (b : BankId) (again ok : Bool) :
    (Device.formatErased c d f b again ok).load = d.load := by
  dsimp only [Device.formatErased]
  repeat' split
  all_goals simp

@[simp] theorem Device.formatErased_bufs (c : Ctx) (d : Device) (f : FormatProgress) (b : BankId) (again ok : Bool) (hb : d.bufs) :
    (Device.formatErased c d f b again ok).bufs := by
  dsimp only [Device.formatErased]
  repeat' split
  all_goals simp [hb]

@[simp] theorem Device.formatHeadered_load (c : Ctx) (d : Device) (f : FormatProgress) (b : BankId) (again : Bool) (count : Nat) (o : ProgramOutcome) :
    (Device.formatHeadered c d f b again count o).load = d.load := by
  dsimp only [Device.formatHeadered]
  repeat' split
  all_goals simp

@[simp] theorem Device.formatHeadered_bufs (c : Ctx) (d : Device) (f : FormatProgress) (b : BankId) (again : Bool) (count : Nat) (o : ProgramOutcome) (hb : d.bufs) :
    (Device.formatHeadered c d f b again count o).bufs := by
  dsimp only [Device.formatHeadered]
  repeat' split
  all_goals simp [hb]

@[simp] theorem Device.haltForFormat_load (d : Device) : (Device.haltForFormat d).load = d.load := by
  unfold Device.haltForFormat
  split <;> rfl

@[simp] theorem Device.haltForFormat_bufs (d : Device) (hb : d.bufs) : (Device.haltForFormat d).bufs := by
  unfold Device.haltForFormat
  split <;> exact hb

@[simp] theorem Device.formatWaits_load (d : Device) (f : FormatProgress) : (Device.formatWaits d f).load = d.load := by
  unfold Device.formatWaits
  split <;> simp

@[simp] theorem Device.formatWaits_bufs (d : Device) (f : FormatProgress) (hb : d.bufs) : (Device.formatWaits d f).bufs := by
  unfold Device.formatWaits
  split <;> simp [hb]

/-! ## CommandReads.lean -/

@[simp] theorem Device.readDone_load (d : Device) (x : Executing) (payload : Option (List Byte)) :
    (Device.readDone d x payload).load = d.load := by
  unfold Device.readDone
  split <;> simp

@[simp] theorem Device.readDone_bufs (d : Device) (x : Executing) (payload : Option (List Byte)) (hb : d.bufs) :
    (Device.readDone d x payload).bufs := by
  unfold Device.readDone
  split <;> simp [hb]

@[simp] theorem Device.damageCounter_load (d : Device) (x : Executing) (loc : Location) :
    (Device.damageCounter d x loc).load = d.load := by
  unfold Device.damageCounter
  split <;> simp

@[simp] theorem Device.damageCounter_bufs (d : Device) (x : Executing) (loc : Location) (hb : d.bufs) :
    (Device.damageCounter d x loc).bufs := by
  unfold Device.damageCounter
  split <;> simp [hb]

@[simp] theorem Device.addDone_load (c : Ctx) (d : Device) (x : Executing) (loc : Location) (payload : Option (List Byte)) :
    (Device.addDone c d x loc payload).load = d.load := by
  dsimp only [Device.addDone]
  repeat' split
  all_goals simp

@[simp] theorem Device.addDone_bufs (c : Ctx) (d : Device) (x : Executing) (loc : Location) (payload : Option (List Byte)) (hb : d.bufs) :
    (Device.addDone c d x loc payload).bufs := by
  dsimp only [Device.addDone]
  repeat' split
  all_goals simp [hb]

@[simp] theorem Device.commandRead_load (c : Ctx) (d : Device) (lines : List Line) :
    (Device.commandRead c d lines).load = d.load := by
  dsimp only [Device.commandRead]
  repeat' split
  all_goals simp

@[simp] theorem Device.commandRead_bufs (c : Ctx) (d : Device) (lines : List Line) (hb : d.bufs) :
    (Device.commandRead c d lines).bufs := by
  dsimp only [Device.commandRead]
  repeat' split
  all_goals simp [hb]

/-! ## Commands.lean -/

@[simp] theorem Device.startRead_load (d : Device) (x : Executing) : (Device.startRead d x).load = d.load := by
  dsimp only [Device.startRead]
  repeat' split
  all_goals simp

@[simp] theorem Device.startRead_bufs (d : Device) (x : Executing) (hb : d.bufs) : (Device.startRead d x).bufs := by
  dsimp only [Device.startRead]
  repeat' split
  all_goals simp [hb]

@[simp] theorem Device.startWrite_load (c : Ctx) (d : Device) (x : Executing) (payload : List Byte) : (Device.startWrite c d x payload).load = d.load := by
  unfold Device.startWrite
  split <;> simp

@[simp] theorem Device.startWrite_bufs (c : Ctx) (d : Device) (x : Executing) (payload : List Byte) (hb : d.bufs) : (Device.startWrite c d x payload).bufs := by
  unfold Device.startWrite
  split <;> simp [hb]

@[simp] theorem Device.startDelete_load (c : Ctx) (d : Device) (x : Executing) : (Device.startDelete c d x).load = d.load := by
  unfold Device.startDelete
  split <;> simp

@[simp] theorem Device.startDelete_bufs (c : Ctx) (d : Device) (x : Executing) (hb : d.bufs) : (Device.startDelete c d x).bufs := by
  unfold Device.startDelete
  split <;> simp [hb]

@[simp] theorem Device.startAdd_load (c : Ctx) (d : Device) (x : Executing) : (Device.startAdd c d x).load = d.load := by
  dsimp only [Device.startAdd]
  repeat' split
  all_goals simp

@[simp] theorem Device.startAdd_bufs (c : Ctx) (d : Device) (x : Executing) (hb : d.bufs) : (Device.startAdd c d x).bufs := by
  dsimp only [Device.startAdd]
  repeat' split
  all_goals simp [hb]

@[simp] theorem Device.startList_load (d : Device) (x : Executing) :
    (Device.startList d x).load = d.load := by simp [Device.startList]

@[simp] theorem Device.startList_bufs (d : Device) (x : Executing) (hb : d.bufs) :
    (Device.startList d x).bufs := by simp [Device.startList, hb]

@[simp] theorem Device.openGroup_load (d : Device) (timeout : Nat) : (Device.openGroup d timeout).load = d.load := rfl

@[simp] theorem Device.openGroup_bufs (d : Device) (timeout : Nat) (hb : d.bufs) : (Device.openGroup d timeout).bufs := hb

@[simp] theorem Device.startOpenGroup_load (c : Ctx) (d : Device) (x : Executing) (timeout : Nat) :
    (Device.startOpenGroup c d x timeout).load = d.load := by
  dsimp only [Device.startOpenGroup]
  repeat' split
  all_goals simp

@[simp] theorem Device.startOpenGroup_bufs (c : Ctx) (d : Device) (x : Executing) (timeout : Nat) (hb : d.bufs) :
    (Device.startOpenGroup c d x timeout).bufs := by
  dsimp only [Device.startOpenGroup]
  repeat' split
  all_goals simp [hb]

@[simp] theorem Device.closeGroup_load (d : Device) (code : CommandCode) : (Device.closeGroup d code).load = d.load := by
  unfold Device.closeGroup
  split <;> rfl

@[simp] theorem Device.closeGroup_bufs (d : Device) (code : CommandCode) (hb : d.bufs) : (Device.closeGroup d code).bufs := by
  unfold Device.closeGroup
  split <;> exact hb

@[simp] theorem Device.startCommitGroup_load (c : Ctx) (d : Device) : (Device.startCommitGroup c d).load = d.load := by
  dsimp only [Device.startCommitGroup]
  repeat' split
  all_goals simp

@[simp] theorem Device.startCommitGroup_bufs (c : Ctx) (d : Device) (hb : d.bufs) : (Device.startCommitGroup c d).bufs := by
  dsimp only [Device.startCommitGroup]
  repeat' split
  all_goals with_reducible repeat' (first | exact hb | apply Device.endCommand_bufs | apply Device.mapGroup_bufs | apply Device.commandPlace_bufs | apply (Device.mk_bufs _ ..).mpr)

@[simp] theorem Device.startDropGroup_load (d : Device) : (Device.startDropGroup d).load = d.load := by
  unfold Device.startDropGroup
  split <;> simp

@[simp] theorem Device.startDropGroup_bufs (d : Device) (hb : d.bufs) : (Device.startDropGroup d).bufs := by
  unfold Device.startDropGroup
  split <;> simp [hb]

@[simp] theorem Device.startReclaim_load (c : Ctx) (d : Device) (x : Executing) : (Device.startReclaim c d x).load = d.load := by
  dsimp only [Device.startReclaim]
  repeat' split
  all_goals simp

@[simp] theorem Device.startReclaim_bufs (c : Ctx) (d : Device) (x : Executing) (hb : d.bufs) : (Device.startReclaim c d x).bufs := by
  dsimp only [Device.startReclaim]
  repeat' split
  all_goals simp [hb]

@[simp] theorem Device.startFormat_load (c : Ctx) (d : Device) : (Device.startFormat c d).load = d.load := by
  dsimp only [Device.startFormat]
  repeat' split
  all_goals simp

@[simp] theorem Device.startFormat_bufs (c : Ctx) (d : Device) (hb : d.bufs) : (Device.startFormat c d).bufs := by
  dsimp only [Device.startFormat]
  repeat' split
  all_goals simp [hb]

@[simp] theorem Device.startRaiseLock_load (c : Ctx) (d : Device) (x : Executing) :
    (Device.startRaiseLock c d x).load = d.load := by
  dsimp only [Device.startRaiseLock]
  repeat' split
  all_goals simp

@[simp] theorem Device.startRaiseLock_bufs (c : Ctx) (d : Device) (x : Executing) (hb : d.bufs) :
    (Device.startRaiseLock c d x).bufs := by
  dsimp only [Device.startRaiseLock]
  repeat' split
  all_goals simp [hb]

@[simp] theorem Device.startCommand_load (c : Ctx) (d : Device) (x : Executing) (t : Taken) : (Device.startCommand c d x t).load = d.load := by
  unfold Device.startCommand
  split <;> simp

@[simp] theorem Device.startCommand_bufs (c : Ctx) (d : Device) (x : Executing) (t : Taken) (hb : d.bufs) :
    (Device.startCommand c d x t).bufs := by
  unfold Device.startCommand
  split <;> simp [hb]

@[simp] theorem Device.takeHead_load (c : Ctx) (d : Device) : (d.takeHead c).load = d.load := by
  unfold Device.takeHead
  split
  · rename_i p rest hx hq
    have h : ({ d with queue := rest, ex := some (d.taken c p) } : Device).load = d.load := by
      simp only [Device.load, Device.attached, hx, hq, Device.taken, List.length_cons]
      simp
    split
    · rfl
    · dsimp only
      split <;> simp [h]
  · rfl

@[simp] theorem Device.takeHead_bufs (c : Ctx) (d : Device) (hb : d.bufs) : (d.takeHead c).bufs := by
  dsimp only [Device.takeHead]
  (repeat' split) <;> first | exact hb | simp [hb]

@[simp] theorem Device.makeStep_load (c : Ctx) (d : Device) : (d.makeStep c).load = d.load := by
  dsimp only [Device.makeStep]
  (repeat' split) <;> simp

@[simp] theorem Device.makeStep_bufs (c : Ctx) (d : Device) (hb : d.bufs) : (d.makeStep c).bufs := by
  dsimp only [Device.makeStep]
  (repeat' split) <;> simp [hb]

theorem Device.takeCommand_load (c : Ctx) (d : Device) : (d.takeCommand c).load = d.load := by simp [Device.takeCommand]

theorem Device.takeCommand_bufs (c : Ctx) (d : Device) (hb : d.bufs) : (d.takeCommand c).bufs :=
  Device.makeStep_bufs _ _ (Device.takeHead_bufs _ _ hb)

/-! ## ReclaimRecord.lean -/

@[simp] theorem Device.setWriter_load (d : Device) (w : Writer) : (Device.setWriter d w).load = d.load := rfl

@[simp] theorem Device.setWriter_bufs (d : Device) (w : Writer) (hb : d.bufs) : (Device.setWriter d w).bufs := hb

@[simp] theorem Device.answerReclaim_load (d : Device) (status : Status) (result : Nat) :
    (Device.answerReclaim d status result).load = d.load := by
  dsimp only [Device.answerReclaim]
  repeat' split
  all_goals simp

@[simp] theorem Device.answerReclaim_bufs (d : Device) (status : Status) (result : Nat) (hb : d.bufs) :
    (Device.answerReclaim d status result).bufs := by
  dsimp only [Device.answerReclaim]
  repeat' split
  all_goals simp [hb]

@[simp] theorem Device.reclaimHalt_load (c : Ctx) (d : Device) : (Device.reclaimHalt c d).load = d.load := by
  unfold Device.reclaimHalt
  split <;> simp

@[simp] theorem Device.reclaimHalt_bufs (c : Ctx) (d : Device) (hb : d.bufs) : (Device.reclaimHalt c d).bufs := by
  dsimp only [Device.reclaimHalt]
  repeat' split
  all_goals with_reducible repeat' (first | exact hb | apply Device.setJob_bufs | apply Device.degrade_bufs | apply Device.answerReclaim_bufs)

@[simp] theorem Device.reclaimCannot_load (c : Ctx) (d : Device) : (Device.reclaimCannot c d).load = d.load := by
  unfold Device.reclaimCannot
  split <;> simp

@[simp] theorem Device.reclaimCannot_bufs (c : Ctx) (d : Device) (hb : d.bufs) : (Device.reclaimCannot c d).bufs := by
  unfold Device.reclaimCannot
  split <;> simp [hb]

@[simp] theorem Device.reclaimOutOfSequences_load (d : Device) : (Device.reclaimOutOfSequences d).load = d.load := by
  unfold Device.reclaimOutOfSequences
  split <;> simp

@[simp] theorem Device.reclaimOutOfSequences_bufs (d : Device) (hb : d.bufs) : (Device.reclaimOutOfSequences d).bufs := by
  unfold Device.reclaimOutOfSequences
  split <;> simp [hb]

@[simp] theorem Device.reclaimReserve_load (d : Device) (w : Writer) (b : BankId) :
    (Device.reclaimReserve d w b).load = d.load := by
  dsimp only [Device.reclaimReserve]
  split <;> simp

@[simp] theorem Device.reclaimReserve_bufs (d : Device) (w : Writer) (b : BankId) (hb : d.bufs) :
    (Device.reclaimReserve d w b).bufs := by
  dsimp only [Device.reclaimReserve]
  split
  · exact Device.request_bufs _ _ _ (Device.setWriter_bufs _ _ (Device.reserve_bufs d w b hb))
  · exact Device.reclaimOutOfSequences_bufs d hb

@[simp] theorem Device.reclaimOpen_load (c : Ctx) (d : Device) (w : Writer) (b : BankId) :
    (Device.reclaimOpen c d w b).load = d.load := by
  unfold Device.reclaimOpen
  split <;> simp

@[simp] theorem Device.reclaimOpen_bufs (c : Ctx) (d : Device) (w : Writer) (b : BankId) (hb : d.bufs) :
    (Device.reclaimOpen c d w b).bufs := by
  unfold Device.reclaimOpen
  split <;> simp [hb]

@[simp] theorem Device.reclaimPlace_load (c : Ctx) (d : Device) (w : Writer) : (Device.reclaimPlace c d w).load = d.load := by
  dsimp only [Device.reclaimPlace]
  repeat' split
  all_goals simp

@[simp] theorem Device.reclaimPlace_bufs (c : Ctx) (d : Device) (w : Writer) (hb : d.bufs) : (Device.reclaimPlace c d w).bufs := by
  dsimp only [Device.reclaimPlace]
  repeat' split
  all_goals simp [hb]

@[simp] theorem Device.reclaimFault_load (c : Ctx) (d : Device) (w : Writer) : (Device.reclaimFault c d w).load = d.load := by
  unfold Device.reclaimFault
  split <;> simp

@[simp] theorem Device.reclaimFault_bufs (c : Ctx) (d : Device) (w : Writer) (hb : d.bufs) : (Device.reclaimFault c d w).bufs := by
  dsimp only [Device.reclaimFault]
  repeat' split
  all_goals with_reducible repeat' (first | exact hb | apply Device.reclaimCannot_bufs | apply Device.setWriter_bufs | apply Device.reclaimPlace_bufs)

@[simp] theorem Device.reclaimOpened_load (c : Ctx) (d : Device) (w : Writer) (b : BankId) (epoch : Nat) (o : ProgramOutcome) :
    (Device.reclaimOpened c d w b epoch o).load = d.load := by
  unfold Device.reclaimOpened
  split <;> simp

@[simp] theorem Device.reclaimOpened_bufs (c : Ctx) (d : Device) (w : Writer) (b : BankId) (epoch : Nat) (o : ProgramOutcome) (hb : d.bufs) :
    (Device.reclaimOpened c d w b epoch o).bufs := by
  dsimp only [Device.reclaimOpened]
  repeat' split
  all_goals with_reducible repeat' (first | exact hb | apply Device.openSucceeded_bufs | apply Device.reclaimReserve_bufs | apply Device.openFaulted_bufs | apply Device.reclaimFault_bufs)

@[simp] theorem Device.reclaimAbandon_load (d : Device) (w : Writer) : (Device.reclaimAbandon d w).load = d.load := by
  unfold Device.reclaimAbandon
  split <;> rfl

@[simp] theorem Device.reclaimAbandon_bufs (d : Device) (w : Writer) (hb : d.bufs) : (Device.reclaimAbandon d w).bufs := by
  unfold Device.reclaimAbandon
  split <;> exact hb

@[simp] theorem Device.eraseHeld_load (d : Device) (b : BankId) : (Device.eraseHeld d b).load = d.load := rfl

@[simp] theorem Device.eraseHeld_bufs (d : Device) (b : BankId) (hb : d.bufs) : (Device.eraseHeld d b).bufs := hb

@[simp] theorem Device.reclaimRefused_load (d : Device) : (Device.reclaimRefused d).load = d.load := by
  unfold Device.reclaimRefused
  split <;> simp

@[simp] theorem Device.reclaimRefused_bufs (d : Device) (hb : d.bufs) : (Device.reclaimRefused d).bufs := by
  unfold Device.reclaimRefused
  split <;> simp [hb]

/-! ## CopyWalk.lean -/

@[simp] theorem Device.entryUnlocated_load (d : Device) (k : Key) : (Device.entryUnlocated d k).load = d.load := by
  unfold Device.entryUnlocated
  split <;> rfl

@[simp] theorem Device.entryUnlocated_bufs (d : Device) (k : Key) (hb : d.bufs) : (Device.entryUnlocated d k).bufs := by
  unfold Device.entryUnlocated
  split <;> exact hb

@[simp] theorem Device.memberUnlocated_load (d : Device) (k : Key) : (Device.memberUnlocated d k).load = d.load := rfl

@[simp] theorem Device.memberUnlocated_bufs (d : Device) (k : Key) (hb : d.bufs) : (Device.memberUnlocated d k).bufs := hb

@[simp] theorem Device.advanceCursor_load (d : Device) : (Device.advanceCursor d).load = d.load := rfl

@[simp] theorem Device.advanceCursor_bufs (d : Device) (hb : d.bufs) : (Device.advanceCursor d).bufs := hb

@[simp] theorem Device.beginRetire_load (d : Device) (v : Victim) : (Device.beginRetire d v).load = d.load := rfl

@[simp] theorem Device.beginRetire_bufs (d : Device) (v : Victim) (hb : d.bufs) : (Device.beginRetire d v).bufs := hb

@[simp] theorem Device.beginCopyRead_load (d : Device) (v : Victim) (r : WalkRecord) (owner : CopyOwner) :
    (Device.beginCopyRead d v r owner).load = d.load := rfl

@[simp] theorem Device.beginCopyRead_bufs (d : Device) (v : Victim) (r : WalkRecord) (owner : CopyOwner) (hb : d.bufs) :
    (Device.beginCopyRead d v r owner).bufs := hb

@[simp] theorem Device.walkOn_load (v : Victim) (l : List WalkRecord) (d : Device) : (Device.walkOn v l d).load = d.load := by
  induction l generalizing d with
  | nil => simp [Device.walkOn]
  | cons r l ih => unfold Device.walkOn; split <;> simp [ih]

@[simp] theorem Device.walkOn_bufs (v : Victim) (l : List WalkRecord) (d : Device) (hb : d.bufs) : (Device.walkOn v l d).bufs := by
  induction l generalizing d with
  | nil => simp [Device.walkOn, hb]
  | cons r l ih => 
    unfold Device.walkOn
    split
    · exact Device.beginCopyRead_bufs _ _ _ _ hb
    · exact ih _ (Device.advanceCursor_bufs _ hb)
    · exact ih _ (Device.advanceCursor_bufs _ (Device.entryUnlocated_bufs _ _ hb))
    · exact ih _ (Device.advanceCursor_bufs _ (Device.memberUnlocated_bufs _ _ hb))

@[simp] theorem Device.walk_load (d : Device) : (Device.walk d).load = d.load := by
  unfold Device.walk
  split <;> simp

@[simp] theorem Device.walk_bufs (d : Device) (hb : d.bufs) : (Device.walk d).bufs := by
  dsimp only [Device.walk]
  repeat' split
  all_goals with_reducible repeat' (first | exact hb | apply Device.walkOn_bufs)

@[simp] theorem Device.planned_load (c : Ctx) (d : Device) (lines : List Line) :
    (Device.planned c d lines).load = d.load := by unfold Device.planned; split <;> simp

@[simp] theorem Device.planned_bufs (c : Ctx) (d : Device) (lines : List Line) (hb : d.bufs) : (Device.planned c d lines).bufs := by
  dsimp only [Device.planned]
  repeat' split
  all_goals with_reducible repeat' (first | exact hb | apply Device.setJob_bufs | apply Device.walk_bufs | apply (Device.mk_bufs _ ..).mpr)

@[simp] theorem Device.entryFoundDamaged_load (d : Device) (k : Key) (loc : Location) :
    (Device.entryFoundDamaged d k loc).load = d.load := by
  dsimp only [Device.entryFoundDamaged]
  repeat' split
  all_goals simp

@[simp] theorem Device.entryFoundDamaged_bufs (d : Device) (k : Key) (loc : Location) (hb : d.bufs) :
    (Device.entryFoundDamaged d k loc).bufs := by
  dsimp only [Device.entryFoundDamaged]
  repeat' split
  all_goals with_reducible repeat' (first | exact hb | apply Device.damageEntry_bufs | apply Device.entryUnlocated_bufs | apply Device.mapReclaim_bufs)

@[simp] theorem Device.memberFoundDamaged_load (d : Device) (k : Key) (loc : Location) :
    (Device.memberFoundDamaged d k loc).load = d.load := by
  unfold Device.memberFoundDamaged
  split <;> simp

@[simp] theorem Device.memberFoundDamaged_bufs (d : Device) (k : Key) (loc : Location) (hb : d.bufs) :
    (Device.memberFoundDamaged d k loc).bufs := by
  unfold Device.memberFoundDamaged
  split <;> simp [hb]

@[simp] theorem Device.beginCopy_load (c : Ctx) (d : Device) (r : WalkRecord) (owner : CopyOwner) (payload : List Byte) :
    (Device.beginCopy c d r owner payload).load = d.load := by simp [Device.beginCopy]

@[simp] theorem Device.beginCopy_bufs (c : Ctx) (d : Device) (r : WalkRecord) (owner : CopyOwner) (payload : List Byte) (hb : d.bufs) :
    (Device.beginCopy c d r owner payload).bufs := by simp [Device.beginCopy, hb]

@[simp] theorem Device.rebuildCommit_load (c : Ctx) (d : Device) (r : WalkRecord) (loc : Location) :
    (Device.rebuildCommit c d r loc).load = d.load := by
  unfold Device.rebuildCommit
  split <;> simp

@[simp] theorem Device.rebuildCommit_bufs (c : Ctx) (d : Device) (r : WalkRecord) (loc : Location) (hb : d.bufs) :
    (Device.rebuildCommit c d r loc).bufs := by
  unfold Device.rebuildCommit
  split <;> simp [hb]

@[simp] theorem Device.copyFoundDamaged_load (c : Ctx) (d : Device) (v : Victim) (r : WalkRecord) :
    (Device.copyFoundDamaged c d v r).load = d.load := by simp [Device.copyFoundDamaged]

@[simp] theorem Device.copyFoundDamaged_bufs (c : Ctx) (d : Device) (v : Victim) (r : WalkRecord) (hb : d.bufs) :
    (Device.copyFoundDamaged c d v r).bufs := by
  dsimp only [Device.copyFoundDamaged]
  with_reducible repeat' (first | exact hb | apply Device.rebuildCommit_bufs | apply Device.memberFoundDamaged_bufs | apply Device.entryFoundDamaged_bufs | apply Device.markWalkDamaged_bufs)

@[simp] theorem Device.copyReadDone_load (c : Ctx) (d : Device) (owner : CopyOwner) (lines : List Line) :
    (Device.copyReadDone c d owner lines).load = d.load := by
  dsimp only [Device.copyReadDone]
  repeat' split
  all_goals simp

@[simp] theorem Device.copyReadDone_bufs (c : Ctx) (d : Device) (owner : CopyOwner) (lines : List Line) (hb : d.bufs) :
    (Device.copyReadDone c d owner lines).bufs := by
  dsimp only [Device.copyReadDone]
  repeat' split
  all_goals with_reducible repeat' (first | exact hb | apply Device.walk_bufs | apply Device.beginCopy_bufs | apply Device.copyFoundDamaged_bufs)

@[simp] theorem Device.copyVerified_load (d : Device) (v : Victim) (cj : CopyJob) (r : Reservation) :
    (Device.copyVerified d v cj r).load = d.load := by
  unfold Device.copyVerified
  split <;> simp

@[simp] theorem Device.copyVerified_bufs (d : Device) (v : Victim) (cj : CopyJob) (r : Reservation) (hb : d.bufs) :
    (Device.copyVerified d v cj r).bufs := by
  unfold Device.copyVerified
  split <;> simp [hb]

@[simp] theorem Device.reclaimCommit_load (d : Device) (w : Writer) (r : Reservation) :
    (Device.reclaimCommit d w r).load = d.load := by
  dsimp only [Device.reclaimCommit]
  repeat' split
  all_goals simp

@[simp] theorem Device.reclaimCommit_bufs (d : Device) (w : Writer) (r : Reservation) (hb : d.bufs) :
    (Device.reclaimCommit d w r).bufs := by
  dsimp only [Device.reclaimCommit]
  repeat' split
  all_goals with_reducible repeat' (first | exact hb | apply Device.commitEntry_bufs | apply Device.setJob_bufs | apply Device.mapReclaim_bufs | apply Device.copyVerified_bufs | apply Device.advanceCursor_bufs | apply Device.walk_bufs)

@[simp] theorem Device.reclaimLine_load (c : Ctx) (d : Device) (w : Writer) (r : Reservation) (o : ProgramOutcome) :
    (Device.reclaimLine c d w r o).load = d.load := by
  dsimp only [Device.reclaimLine]
  repeat' split
  all_goals simp

@[simp] theorem Device.reclaimLine_bufs (c : Ctx) (d : Device) (w : Writer) (r : Reservation) (o : ProgramOutcome) (hb : d.bufs) :
    (Device.reclaimLine c d w r o).bufs := by
  dsimp only [Device.reclaimLine]
  repeat' split
  all_goals with_reducible repeat' (first | exact hb | apply Device.setWriter_bufs | apply Device.request_bufs | apply Device.faultBank_bufs | apply Device.reclaimCommit_bufs | apply Device.abandonSpan_bufs | apply Device.reclaimFault_bufs)

@[simp] theorem Device.retireRecord_load (d : Device) (bank : BankId) (r : WalkRecord) :
    (Device.retireRecord d bank r).load = d.load := by
  dsimp only [Device.retireRecord]
  repeat' split
  all_goals rfl

@[simp] theorem Device.retireRecord_bufs (d : Device) (bank : BankId) (r : WalkRecord) (hb : d.bufs) :
    (Device.retireRecord d bank r).bufs := by
  dsimp only [Device.retireRecord]
  repeat' split
  all_goals exact hb

@[simp] theorem Device.tombstoneDead_load (d : Device) (victim : BankId) (e : DirEntry) :
    (Device.tombstoneDead d victim e).load = d.load := by
  dsimp only [Device.tombstoneDead]
  repeat' split
  all_goals rfl

@[simp] theorem Device.tombstoneDead_bufs (d : Device) (victim : BankId) (e : DirEntry) (hb : d.bufs) :
    (Device.tombstoneDead d victim e).bufs := by
  dsimp only [Device.tombstoneDead]
  repeat' split
  all_goals exact hb

@[simp] theorem Device.retireDirectory_load (d : Device) (bank : BankId) (valid : List WalkRecord) :
    (Device.retireDirectory d bank valid).load = d.load := by
  dsimp only [Device.retireDirectory]
  rw [Device.foldl_load _ fun d e => Device.tombstoneDead_load d bank e]
  exact Device.foldl_load _ (fun d r => Device.retireRecord_load d bank r) valid d

@[simp] theorem Device.retireDirectory_bufs (d : Device) (bank : BankId) (valid : List WalkRecord) (hb : d.bufs) :
    (Device.retireDirectory d bank valid).bufs := by
  dsimp only [Device.retireDirectory]
  apply Device.foldl_bufs _ fun d e => Device.tombstoneDead_bufs d bank e
  exact Device.foldl_bufs _ (fun d r => Device.retireRecord_bufs d bank r) valid d hb

@[simp] theorem Device.retireGroup_load (d : Device) (bank : BankId) (walk : List WalkRecord) :
    (Device.retireGroup d bank walk).load = d.load := rfl

@[simp] theorem Device.retireGroup_bufs (d : Device) (bank : BankId) (walk : List WalkRecord) (hb : d.bufs) :
    (Device.retireGroup d bank walk).bufs := hb

@[simp] theorem Device.retireCommits_load (d : Device) (bank : BankId) (valid : List WalkRecord) :
    (Device.retireCommits d bank valid).load = d.load := by
  dsimp only [Device.retireCommits]
  exact Device.foldl_load _ (fun d (c : CommitEntry) => Device.addDead_load d c.loc.bank 3) _ _

@[simp] theorem Device.retireCommits_bufs (d : Device) (bank : BankId) (valid : List WalkRecord) (hb : d.bufs) :
    (Device.retireCommits d bank valid).bufs := by
  dsimp only [Device.retireCommits]
  exact Device.foldl_bufs _ (fun d (c : CommitEntry) => Device.addDead_bufs d c.loc.bank 3) _ _ hb

@[simp] theorem Device.retired_load (d : Device) (v : Victim) : (Device.retired d v).load = d.load := by
  dsimp only [Device.retired]
  repeat' split
  all_goals simp

@[simp] theorem Device.retired_bufs (d : Device) (v : Victim) (hb : d.bufs) : (Device.retired d v).bufs := by
  dsimp only [Device.retired]
  repeat' split
  all_goals with_reducible repeat' (first | exact hb | apply Device.emptyInto_bufs | apply Device.mapReclaim_bufs | apply Device.walk_bufs | apply Device.retireDirectory_bufs | apply Device.retireGroup_bufs | apply Device.retireCommits_bufs | apply Device.request_bufs | apply Device.answerReclaim_bufs)

@[simp] theorem Device.retireOutcome_load (c : Ctx) (d : Device) (o : ProgramOutcome) :
    (Device.retireOutcome c d o).load = d.load := by
  dsimp only [Device.retireOutcome]
  repeat' split
  all_goals simp

@[simp] theorem Device.retireOutcome_bufs (c : Ctx) (d : Device) (o : ProgramOutcome) (hb : d.bufs) :
    (Device.retireOutcome c d o).bufs := by
  dsimp only [Device.retireOutcome]
  repeat' split
  all_goals simp [hb]

/-! ## ReclaimWork.lean -/

@[simp] theorem Device.decideMap_load (c : Ctx) (d : Device) : (Device.decideMap c d).load = d.load := by
  dsimp only [Device.decideMap]
  repeat' split
  all_goals simp

@[simp] theorem Device.decideMap_bufs (c : Ctx) (d : Device) (hb : d.bufs) : (Device.decideMap c d).bufs := by
  dsimp only [Device.decideMap]
  repeat' split
  all_goals with_reducible repeat' (first | exact hb | apply Device.setJob_bufs | apply Device.degrade_bufs | apply Device.reclaimPlace_bufs)

@[simp] theorem Device.takeMap_load (c : Ctx) (d : Device) : (Device.takeMap c d).load = d.load := by simp [Device.takeMap]

@[simp] theorem Device.takeMap_bufs (c : Ctx) (d : Device) (hb : d.bufs) : (Device.takeMap c d).bufs := by simp [Device.takeMap, hb]

@[simp] theorem Device.beginBlankHeader_load (d : Device) (b : BankId) : (Device.beginBlankHeader d b).load = d.load := rfl

@[simp] theorem Device.beginBlankHeader_bufs (d : Device) (b : BankId) (hb : d.bufs) : (Device.beginBlankHeader d b).bufs := hb

@[simp] theorem Device.blankHeaderDone_load (d : Device) (b : BankId) (count : Nat) (o : ProgramOutcome) :
    (Device.blankHeaderDone d b count o).load = d.load := by
  unfold Device.blankHeaderDone
  split <;> rfl

@[simp] theorem Device.blankHeaderDone_bufs (d : Device) (b : BankId) (count : Nat) (o : ProgramOutcome) (hb : d.bufs) :
    (Device.blankHeaderDone d b count o).bufs := by
  unfold Device.blankHeaderDone
  split <;> exact hb

@[simp] theorem Device.beginErase_load (d : Device) (b : BankId) (rest : List BankId) :
    (Device.beginErase d b rest).load = d.load := rfl

@[simp] theorem Device.beginErase_bufs (d : Device) (b : BankId) (rest : List BankId) (hb : d.bufs) :
    (Device.beginErase d b rest).bufs := hb

@[simp] theorem Device.eraseFailed_load (c : Ctx) (d : Device) (b : BankId) : (Device.eraseFailed c d b).load = d.load := by
  unfold Device.eraseFailed
  split <;> simp

@[simp] theorem Device.eraseFailed_bufs (c : Ctx) (d : Device) (b : BankId) (hb : d.bufs) : (Device.eraseFailed c d b).bufs := by
  dsimp only [Device.eraseFailed]
  repeat' split
  all_goals with_reducible repeat' (first | exact hb | apply Device.mapReclaim_bufs | apply Device.request_bufs | apply Device.emptyInto_bufs | apply Device.decideMap_bufs)

@[simp] theorem Device.eraseDone_load (c : Ctx) (d : Device) (b : BankId) (ok : Bool) :
    (Device.eraseDone c d b ok).load = d.load := by
  unfold Device.eraseDone
  split <;> simp

@[simp] theorem Device.eraseDone_bufs (c : Ctx) (d : Device) (b : BankId) (ok : Bool) (hb : d.bufs) :
    (Device.eraseDone c d b ok).bufs := by
  unfold Device.eraseDone
  split <;> simp [hb]

@[simp] theorem Device.eraseHeaderDone_load (c : Ctx) (d : Device) (b : BankId) (count : Nat) (o : ProgramOutcome) :
    (Device.eraseHeaderDone c d b count o).load = d.load := by
  unfold Device.eraseHeaderDone
  split <;> simp

@[simp] theorem Device.eraseHeaderDone_bufs (c : Ctx) (d : Device) (b : BankId) (count : Nat) (o : ProgramOutcome) (hb : d.bufs) :
    (Device.eraseHeaderDone c d b count o).bufs := by
  unfold Device.eraseHeaderDone
  split <;> simp [hb]

@[simp] theorem Device.beginVictim_load (d : Device) (b : BankId) (forRequest : Bool) :
    (Device.beginVictim d b forRequest).load = d.load := rfl

@[simp] theorem Device.beginVictim_bufs (d : Device) (b : BankId) (forRequest : Bool) (hb : d.bufs) :
    (Device.beginVictim d b forRequest).bufs := hb

@[simp] theorem Device.resumeVictim_load (d : Device) (v : Victim) : (Device.resumeVictim d v).load = d.load := by
  unfold Device.resumeVictim
  split <;> simp

@[simp] theorem Device.resumeVictim_bufs (d : Device) (v : Victim) (hb : d.bufs) : (Device.resumeVictim d v).bufs := by
  unfold Device.resumeVictim
  split <;> simp [hb]

@[simp] theorem Device.answerNone_load (d : Device) : (Device.answerNone d).load = d.load := by
  unfold Device.answerNone
  split <;> simp

@[simp] theorem Device.answerNone_bufs (d : Device) (hb : d.bufs) : (Device.answerNone d).bufs := by
  unfold Device.answerNone
  split <;> simp [hb]

@[simp] theorem Device.reportNoSpace_load (d : Device) : (Device.reportNoSpace d).load = d.load := by
  dsimp only [Device.reportNoSpace]
  repeat' split
  all_goals simp

@[simp] theorem Device.reportNoSpace_bufs (d : Device) (hb : d.bufs) : (Device.reportNoSpace d).bufs := by
  dsimp only [Device.reportNoSpace]
  repeat' split
  all_goals simp [hb]

@[simp] theorem Device.beginRepair_load (c : Ctx) (d : Device) :
    (Device.beginRepair c d).load = d.load := by simp [Device.beginRepair]

@[simp] theorem Device.beginRepair_bufs (c : Ctx) (d : Device) (hb : d.bufs) :
    (Device.beginRepair c d).bufs := by simp [Device.beginRepair, hb]

@[simp] theorem Device.takeVictim_load (c : Ctx) (d : Device) : (Device.takeVictim c d).load = d.load := by
  dsimp only [Device.takeVictim]
  repeat' split
  all_goals simp

@[simp] theorem Device.takeVictim_bufs (c : Ctx) (d : Device) (hb : d.bufs) : (Device.takeVictim c d).bufs := by
  dsimp only [Device.takeVictim]
  repeat' split
  all_goals simp [hb]

@[simp] theorem Device.takeErase_load (c : Ctx) (d : Device) : (Device.takeErase c d).load = d.load := by
  dsimp only [Device.takeErase]
  repeat' split
  all_goals simp

@[simp] theorem Device.takeErase_bufs (c : Ctx) (d : Device) (hb : d.bufs) : (Device.takeErase c d).bufs := by
  dsimp only [Device.takeErase]
  repeat' split
  all_goals simp [hb]

@[simp] theorem Device.takeRepair_load (c : Ctx) (d : Device) : (Device.takeRepair c d).load = d.load := by
  dsimp only [Device.takeRepair]
  repeat' split
  all_goals simp

@[simp] theorem Device.takeRepair_bufs (c : Ctx) (d : Device) (hb : d.bufs) : (Device.takeRepair c d).bufs := by
  dsimp only [Device.takeRepair]
  repeat' split
  all_goals simp [hb]

@[simp] theorem Device.takeWork_load (c : Ctx) (d : Device) : (Device.takeWork c d).load = d.load := by
  dsimp only [Device.takeWork]
  repeat' split
  all_goals simp

@[simp] theorem Device.takeWork_bufs (c : Ctx) (d : Device) (hb : d.bufs) : (Device.takeWork c d).bufs := by
  dsimp only [Device.takeWork]
  repeat' split
  all_goals simp [hb]

@[simp] theorem Device.reclaimProgrammed_load (c : Ctx) (d : Device) (o : ProgramOutcome) :
    (Device.reclaimProgrammed c d o).load = d.load := by
  dsimp only [Device.reclaimProgrammed]
  repeat' split
  all_goals simp

@[simp] theorem Device.reclaimProgrammed_bufs (c : Ctx) (d : Device) (o : ProgramOutcome) (hb : d.bufs) :
    (Device.reclaimProgrammed c d o).bufs := by
  dsimp only [Device.reclaimProgrammed]
  repeat' split
  all_goals simp [hb]

@[simp] theorem Device.reclaimRead_load (c : Ctx) (d : Device) (lines : List Line) :
    (Device.reclaimRead c d lines).load = d.load := by
  unfold Device.reclaimRead
  split <;> simp

@[simp] theorem Device.reclaimRead_bufs (c : Ctx) (d : Device) (lines : List Line) (hb : d.bufs) :
    (Device.reclaimRead c d lines).bufs := by
  unfold Device.reclaimRead
  split <;> simp [hb]

@[simp] theorem Device.reclaimErased_load (c : Ctx) (d : Device) (ok : Bool) : (Device.reclaimErased c d ok).load = d.load := by
  unfold Device.reclaimErased
  split <;> simp

@[simp] theorem Device.reclaimErased_bufs (c : Ctx) (d : Device) (ok : Bool) (hb : d.bufs) :
    (Device.reclaimErased c d ok).bufs := by
  unfold Device.reclaimErased
  split <;> simp [hb]

/-! ## Settle.lean -/

@[simp] theorem Device.refuseWaiting_load (c : Ctx) (d : Device) : (Device.refuseWaiting c d).load = d.load := by
  dsimp only [Device.refuseWaiting]
  repeat' split
  all_goals simp

@[simp] theorem Device.refuseWaiting_bufs (c : Ctx) (d : Device) (hb : d.bufs) : (Device.refuseWaiting c d).bufs := by
  dsimp only [Device.refuseWaiting]
  repeat' split
  all_goals with_reducible repeat' (first | exact hb | apply Device.commandRefused_bufs | apply Device.reclaimRefused_bufs | apply Device.stopMount_bufs | apply (Device.mk_bufs _ ..).mpr)

@[simp] theorem Device.wakeReclaim_load (c : Ctx) (d : Device) : (Device.wakeReclaim c d).load = d.load := by
  dsimp only [Device.wakeReclaim]
  repeat' split
  all_goals simp

@[simp] theorem Device.wakeReclaim_bufs (c : Ctx) (d : Device) (hb : d.bufs) : (Device.wakeReclaim c d).bufs := by
  dsimp only [Device.wakeReclaim]
  repeat' split
  all_goals simp [hb]

@[simp] theorem Device.wakeCommand_load (c : Ctx) (d : Device) : (Device.wakeCommand c d).load = d.load := by
  dsimp only [Device.wakeCommand]
  repeat' split
  all_goals simp

@[simp] theorem Device.wakeCommand_bufs (c : Ctx) (d : Device) (hb : d.bufs) : (Device.wakeCommand c d).bufs := by
  dsimp only [Device.wakeCommand]
  repeat' split
  all_goals simp [hb]

@[simp] theorem Device.settle_load (c : Ctx) (d : Device) : (Device.settle c d).load = d.load := by simp [Device.settle]

@[simp] theorem Device.settle_bufs (c : Ctx) (d : Device) (hb : d.bufs) : (Device.settle c d).bufs := by
  dsimp only [Device.settle]
  all_goals with_reducible repeat' (first | exact hb | apply Device.refuseWaiting_bufs | apply Device.wakeReclaim_bufs | apply Device.wakeCommand_bufs | apply Device.arbitrate_bufs)

@[simp] theorem Device.commandProgrammed_load (c : Ctx) (d : Device) (o : ProgramOutcome) :
    (Device.commandProgrammed c d o).load = d.load := by
  dsimp only [Device.commandProgrammed]
  repeat' split
  all_goals simp

@[simp] theorem Device.commandProgrammed_bufs (c : Ctx) (d : Device) (o : ProgramOutcome) (hb : d.bufs) :
    (Device.commandProgrammed c d o).bufs := by
  dsimp only [Device.commandProgrammed]
  repeat' split
  all_goals simp [hb]

@[simp] theorem Device.commandErased_load (c : Ctx) (d : Device) (ok : Bool) : (Device.commandErased c d ok).load = d.load := by
  dsimp only [Device.commandErased]
  repeat' split
  all_goals simp

@[simp] theorem Device.commandErased_bufs (c : Ctx) (d : Device) (ok : Bool) (hb : d.bufs) :
    (Device.commandErased c d ok).bufs := by
  dsimp only [Device.commandErased]
  repeat' split
  all_goals simp [hb]

@[simp] theorem Device.programmed_load (c : Ctx) (d : Device) (who : Requester) (o : ProgramOutcome) :
    (Device.programmed c d who o).load = d.load := by
  unfold Device.programmed
  split <;> simp

@[simp] theorem Device.programmed_bufs (c : Ctx) (d : Device) (who : Requester) (o : ProgramOutcome) (hb : d.bufs) :
    (Device.programmed c d who o).bufs := by
  unfold Device.programmed
  split <;> simp [hb]

@[simp] theorem Device.readLines_load (c : Ctx) (d : Device) (who : Requester) (lines : List Line) :
    (Device.readLines c d who lines).load = d.load := by
  unfold Device.readLines
  split <;> simp

@[simp] theorem Device.readLines_bufs (c : Ctx) (d : Device) (who : Requester) (lines : List Line) (hb : d.bufs) :
    (Device.readLines c d who lines).bufs := by
  unfold Device.readLines
  split <;> simp [hb]

@[simp] theorem Device.erased_load (c : Ctx) (d : Device) (who : Requester) (ok : Bool) :
    (Device.erased c d who ok).load = d.load := by
  unfold Device.erased
  split <;> simp

@[simp] theorem Device.erased_bufs (c : Ctx) (d : Device) (who : Requester) (ok : Bool) (hb : d.bufs) :
    (Device.erased c d who ok).bufs := by
  unfold Device.erased
  split <;> simp [hb]

/-! ## Power.lean -/

@[simp] theorem Device.endOpenGroup_load (d : Device) : (Device.endOpenGroup d).load = d.load := by
  dsimp only [Device.endOpenGroup]
  repeat' split
  all_goals simp

@[simp] theorem Device.endOpenGroup_bufs (d : Device) (hb : d.bufs) : (Device.endOpenGroup d).bufs := by
  dsimp only [Device.endOpenGroup]
  repeat' split
  all_goals simp [hb]

@[simp] theorem Device.expireOrHold_load (d : Device) : (Device.expireOrHold d).load = d.load := by
  unfold Device.expireOrHold
  split <;> simp

@[simp] theorem Device.expireOrHold_bufs (d : Device) (hb : d.bufs) : (Device.expireOrHold d).bufs := by
  unfold Device.expireOrHold
  split <;> simp [hb]

@[simp] theorem Device.tickGroup_load (d : Device) : (Device.tickGroup d).load = d.load := by
  dsimp only [Device.tickGroup]
  repeat' split
  all_goals simp

@[simp] theorem Device.tickGroup_bufs (d : Device) (hb : d.bufs) : (Device.tickGroup d).bufs := by
  dsimp only [Device.tickGroup]
  repeat' split
  all_goals simp [hb]

@[simp] theorem Device.warnCommand_load (d : Device) : (Device.warnCommand d).load = d.load := by
  dsimp only [Device.warnCommand]
  repeat' split
  all_goals simp

@[simp] theorem Device.warnCommand_bufs (d : Device) (hb : d.bufs) : (Device.warnCommand d).bufs := by
  dsimp only [Device.warnCommand]
  repeat' split
  all_goals simp [hb]

@[simp] theorem Device.abandonErase_load (d : Device) : (Device.abandonErase d).load = d.load := by
  dsimp only [Device.abandonErase]
  repeat' split
  all_goals simp

@[simp] theorem Device.abandonErase_bufs (d : Device) (hb : d.bufs) : (Device.abandonErase d).bufs := by
  dsimp only [Device.abandonErase]
  repeat' split
  all_goals with_reducible repeat' (first | exact hb | apply Device.reclaimRefused_bufs | apply Device.commandPowerEnd_bufs | apply (Device.mk_bufs _ ..).mpr)

@[simp] theorem Device.warn_load (d : Device) : (Device.warn d).load = d.load := by simp [Device.warn]

@[simp] theorem Device.warn_bufs (d : Device) (hb : d.bufs) : (Device.warn d).bufs := by
  dsimp only [Device.warn]
  all_goals with_reducible repeat' (first | exact hb | apply Device.endOpenGroup_bufs | apply Device.abandonErase_bufs | apply Device.warnCommand_bufs | apply (Device.mk_bufs _ ..).mpr)

@[simp] theorem Device.warnBetween_load (g : Configuration) (d : Device) : (Device.warnBetween g d).load = d.load := by
  simp [Device.warnBetween]

@[simp] theorem Device.warnBetween_bufs (g : Configuration) (d : Device) (hb : d.bufs) : (Device.warnBetween g d).bufs :=
  Device.makeStep_bufs _ _ (Device.warn_bufs _ (Device.takeHead_bufs _ _ hb))

@[simp] theorem Device.recover_load (d : Device) : (Device.recover d).load = d.load := by
  dsimp only [Device.recover]
  repeat' split
  all_goals rfl

@[simp] theorem Device.recover_bufs (d : Device) (hb : d.bufs) : (Device.recover d).bufs := by
  dsimp only [Device.recover]
  repeat' split
  all_goals exact hb

end Sys2Proof.Machine
end

