-- ==== Sys2Proof/Laws/Order.lean ====
section
/-! SUPPORT. Every operation of the engines keeps the order of the Directory (R44): one lemma for each operation. -/
namespace Sys2Proof.Machine
open Sys2Proof

/-- A record update that keeps the Directory keeps its order. -/
@[simp] theorem Device.mk_ord (d : Device) (queue' : List Posted) (fifo' : List Completion) (buffers' : Vector Buffer 4) (flags' : Flags) (ex' : Option Executing) (level' : LockLevel) (banks' : Vector BankEntry 32) (openMark' : Option (BankId × Opener)) (nextSeq' : Nat) (nextEpoch' : Nat) (store' : StoreState) (generation' : Option Nat) (causes' : Causes) (mountOutcome' : MountOutcome) (banksHanded' : Nat) (group' : Option GroupContext) (commits' : List CommitEntry) (reclaim' : Reclaim) (fc' : FlashController) (mount' : MountUnit) :
    (Device.mk queue' fifo' buffers' flags' ex' d.dir level' banks' openMark' nextSeq' nextEpoch' store' generation' causes' mountOutcome' banksHanded' group' commits' reclaim' fc' mount').ordered ↔ d.ordered := ⟨fun h => h, fun h => h⟩

theorem Device.foldl_ord {α : Type} (f : Device → α → Device) (hf : ∀ d a, d.ordered → (f d a).ordered) (l : List α)
    (d : Device) (h : d.ordered) : (l.foldl f d).ordered := by
  induction l generalizing d with
  | nil => exact h
  | cons a l ih => exact ih _ (hf d a h)

theorem dirPut_ordered (e : DirEntry) (l : List DirEntry) (h : l.Pairwise fun a b => a.key < b.key) :
    (dirPut e l).Pairwise fun a b => a.key < b.key := by
  have hmem (l : List DirEntry) (x : DirEntry) (hx : x ∈ dirPut e l) : x = e ∨ x ∈ l := by
    induction l with
    | nil => simpa [dirPut] using hx
    | cons y l ih =>
      unfold dirPut at hx
      split at hx
      · simpa using hx
      · split at hx
        · rcases List.mem_cons.mp hx with hx | hx
          · exact .inl hx
          · exact .inr (List.mem_cons_of_mem _ hx)
        · rcases List.mem_cons.mp hx with hx | hx
          · exact .inr (hx ▸ List.mem_cons_self ..)
          · exact (ih hx).imp id (List.mem_cons_of_mem _)
  induction l with
  | nil => simp [dirPut]
  | cons y l ih =>
    obtain ⟨hy, hl⟩ := List.pairwise_cons.mp h
    unfold dirPut
    split
    · rename_i hlt
      exact List.pairwise_cons.mpr ⟨fun x hx => (List.mem_cons.mp hx).elim (fun hx => hx ▸ hlt) fun hx => BitVec.lt_trans hlt (hy x hx), h⟩
    · split
      · rename_i he
        exact List.pairwise_cons.mpr ⟨fun x hx => he ▸ hy x hx, hl⟩
      · rename_i hn he
        have hgt : y.key < e.key := by bv_omega
        exact List.pairwise_cons.mpr ⟨fun x hx => (hmem l x hx).elim (fun hx => hx ▸ hgt) fun hx => hy x hx, ih hl⟩

theorem loadedEntries_sublist (n : Nat) (l : List DirEntry) : (loadedEntries n l).Sublist l := by
  induction l generalizing n with
  | nil => cases n <;> exact List.Sublist.slnil
  | cons e l ih =>
    cases n <;> unfold loadedEntries <;> split
    · exact (ih 0).cons e
    · exact (ih 0).cons_cons e
    · exact (ih _).cons_cons e
    · exact (ih _).cons_cons e

theorem putKey_mem (k : Key) (l : List Key) (x : Key) (h : x ∈ putKey k l) : x = k ∨ x ∈ l := by
  induction l with
  | nil => simpa [putKey] using h
  | cons y l ih =>
    unfold putKey at h
    split at h
    · simpa using h
    · split at h
      · exact .inr h
      · rcases List.mem_cons.mp h with h | h
        · exact .inr (h ▸ List.mem_cons_self ..)
        · exact (ih h).imp id (List.mem_cons_of_mem _)

theorem putKey_rising (k : Key) (l : List Key) (h : l.Pairwise (· < ·)) : (putKey k l).Pairwise (· < ·) := by
  induction l with
  | nil => simp [putKey]
  | cons y l ih =>
    obtain ⟨hy, hl⟩ := List.pairwise_cons.mp h
    unfold putKey
    split
    · rename_i hlt
      exact List.pairwise_cons.mpr ⟨fun x hx => (List.mem_cons.mp hx).elim (fun hx => hx ▸ hlt) fun hx => BitVec.lt_trans hlt (hy x hx), h⟩
    · split
      · exact h
      · rename_i hn he
        have hgt : y < k := by bv_omega
        exact List.pairwise_cons.mpr ⟨fun x hx => (putKey_mem k l x hx).elim (fun hx => hx ▸ hgt) fun hx => hy x hx, ih hl⟩

theorem mountKeys_rising (found : List Found) : (mountKeys found).Pairwise (· < ·) := by
  have h (l : List Found) (acc : List Key) (ha : acc.Pairwise (· < ·)) :
      (l.foldl (fun acc f => putKey f.header.key acc) acc).Pairwise (· < ·) := by
    induction l generalizing acc with
    | nil => exact ha
    | cons f l ih => exact ih _ (putKey_rising _ _ ha)
  exact h _ [] List.Pairwise.nil

theorem pick_mem {α : Type} (better : α → α → Bool) (l : List α) (a : α) (h : pick better l = some a) : a ∈ l := by
  induction l generalizing a with
  | nil => cases h
  | cons x l ih =>
    unfold pick at h
    split at h
    · simp_all
    · rename_i y hy
      split at h
      · cases h
        exact List.mem_cons_of_mem _ (ih _ hy)
      · cases h
        exact List.mem_cons_self ..

theorem mountKey_key (found : List Found) (k : Key) (e : DirEntry) (h : mountKey found k = some e) : e.key = k := by
  unfold mountKey at h
  dsimp only at h
  split at h
  · rename_i f hf
    have hk : f.header.key = k := by
      have := pick_mem _ _ _ hf
      simpa using (List.mem_filter.mp this).2
    unfold mountEntry at h
    dsimp only at h
    split at h
    · cases h
    · cases h
      exact hk
  · unfold mountDamaged at h
    split at h
    · obtain ⟨f, _, rfl⟩ := Option.map_eq_some_iff.mp h
      rfl
    · cases h

/-- The entries that mount loads are in key order (R44, R154). -/
theorem loaded_ordered (n : Nat) (found : List Found) : (loadedEntries n (mountEntries found)).Pairwise fun a b => a.key < b.key := by
  refine List.Pairwise.sublist (loadedEntries_sublist n _) ?_
  unfold mountEntries
  rw [List.pairwise_filterMap]
  refine (mountKeys_rising found).imp ?_
  intro a b hab e he e' he'
  rw [mountKey_key found a e he, mountKey_key found b e' he']
  exact hab

/-! ## Ops.lean -/

theorem Device.setBank_ord (d : Device) (b : BankId) (e : BankEntry) (hb : d.ordered) :
    (Device.setBank d b e).ordered := hb

theorem Device.addDead_ord (d : Device) (b : BankId) (n : Nat) (hb : d.ordered) :
    (Device.addDead d b n).ordered := hb

theorem Device.fillActive_ord (d : Device) (b : BankId) (hb : d.ordered) :
    (Device.fillActive d b).ordered := by
  unfold Device.fillActive
  split <;> exact hb

theorem Device.markSuspect_ord (d : Device) (b : BankId) (hb : d.ordered) :
    (Device.markSuspect d b).ordered := hb

theorem Device.makeFree_ord (d : Device) (b : BankId) (count : Nat) (hb : d.ordered) :
    (Device.makeFree d b count).ordered := hb

theorem Device.emptyInto_ord (d : Device) (b : BankId) (st : BankState) (hb : d.ordered) :
    (Device.emptyInto d b st).ordered := hb

theorem Device.putEntry_ord (d : Device) (e : DirEntry) (hb : d.ordered) :
    (Device.putEntry d e).ordered := by
  exact dirPut_ordered e d.dir hb

theorem Device.removeEntry_ord (d : Device) (k : Key) (hb : d.ordered) :
    (Device.removeEntry d k).ordered := by
  exact List.Pairwise.filter _ hb

theorem Device.mapGroup_ord (d : Device) (f : GroupContext → GroupContext) (hb : d.ordered) :
    (Device.mapGroup d f).ordered := hb

theorem Device.mapReclaim_ord (d : Device) (f : Reclaim → Reclaim) (hb : d.ordered) :
    (Device.mapReclaim d f).ordered := hb

theorem Device.setJob_ord (d : Device) (j : ReclaimJob) (hb : d.ordered) :
    (Device.setJob d j).ordered := hb

theorem Device.mapVictim_ord (d : Device) (f : Victim → Victim) (hb : d.ordered) :
    (Device.mapVictim d f).ordered := hb

theorem Device.setStage_ord (d : Device) (st : Stage) (hb : d.ordered) :
    (Device.setStage d st).ordered := hb

theorem Device.request_ord (d : Device) (who : Requester) (r : Request) (hb : d.ordered) :
    (Device.request d who r).ordered := by
  unfold Device.request
  split <;> exact hb

/-! ## Flags.lean -/

theorem Device.noteOpening_ord (d : Device) (freeBefore : Nat) (hb : d.ordered) :
    (Device.noteOpening d freeBefore).ordered := by
  unfold Device.noteOpening
  split <;> exact hb

/-! ## Operands.lean -/

theorem Device.setBuffer_ord (d : Device) (i : Fin 4) (b : Buffer) (hb : d.ordered) :
    (Device.setBuffer d i b).ordered := hb

/-! ## Tables.lean -/

theorem Device.supersede_ord (d : Device) (e : DirEntry) (hb : d.ordered) :
    (Device.supersede d e).ordered := by
  unfold Device.supersede
  split <;> exact hb

theorem Device.dropSpentTombstone_ord (d : Device) (k : Key) (hb : d.ordered) :
    (Device.dropSpentTombstone d k).ordered := by
  dsimp only [Device.dropSpentTombstone]
  repeat' split
  all_goals with_reducible repeat' (first | exact hb | apply Device.removeEntry_ord | apply Device.addDead_ord)

theorem Device.commitEntry_ord (d : Device) (c : Committed) (hb : d.ordered) :
    (Device.commitEntry d c).ordered := by
  dsimp only [Device.commitEntry]
  repeat' split
  all_goals with_reducible repeat' (first | exact hb | apply Device.supersede_ord | apply Device.putEntry_ord | apply Device.dropSpentTombstone_ord)

theorem Device.damageEntry_ord (d : Device) (k : Key) (hb : d.ordered) :
    (Device.damageEntry d k).ordered := by
  dsimp only [Device.damageEntry]
  repeat' split
  all_goals with_reducible repeat' (first | exact hb | apply Device.putEntry_ord | apply Device.supersede_ord)

theorem Device.markWalkDamaged_ord (d : Device) (loc : Location) (hb : d.ordered) :
    (Device.markWalkDamaged d loc).ordered := hb

theorem Device.damageMember_ord (d : Device) (k : Key) (read : Location) (hb : d.ordered) :
    (Device.damageMember d k read).ordered := by
  dsimp only [Device.damageMember]
  repeat' split
  all_goals with_reducible repeat' (first | exact hb | apply Device.markWalkDamaged_ord | apply Device.mapGroup_ord | apply Device.addDead_ord)

theorem Device.copyTakesOver_ord (d : Device) (h : Header) (original copy : Location) (hb : d.ordered) :
    (Device.copyTakesOver d h original copy).ordered := by
  dsimp only [Device.copyTakesOver]
  repeat' split
  all_goals with_reducible repeat' (first | exact hb | apply Device.putEntry_ord | apply Device.addDead_ord)

theorem Device.mapCommit_ord (d : Device) (gid : Nat) (f : CommitEntry → CommitEntry) (hb : d.ordered) :
    (Device.mapCommit d gid f).ordered := hb

theorem Device.addTagged_ord (d : Device) (b : BankId) (n : Nat) (hb : d.ordered) :
    (Device.addTagged d b n).ordered := hb

theorem Device.memberCopyVerifies_ord (d : Device) (h : Header) (gid : Nat) (original copy : Location) (hb : d.ordered) :
    (Device.memberCopyVerifies d h gid original copy).ordered := by
  dsimp only [Device.memberCopyVerifies]
  repeat' split
  all_goals with_reducible repeat' (first | exact hb | apply Device.mapGroup_ord | apply Device.mapReclaim_ord | apply Device.addDead_ord | apply Device.copyTakesOver_ord | apply Device.mapCommit_ord | apply Device.addTagged_ord)

theorem Device.commitCopyVerifies_ord (d : Device) (original copy : Location) (hb : d.ordered) :
    (Device.commitCopyVerifies d original copy).ordered := by
  unfold Device.commitCopyVerifies
  split <;> exact hb

theorem Device.commitMember_ord (d : Device) (c : Committed) (loc : Location) (hb : d.ordered) :
    (Device.commitMember d c loc).ordered := by
  dsimp only [Device.commitMember]
  repeat' split
  all_goals with_reducible repeat' (first | exact hb | apply Device.mapGroup_ord | apply Device.addDead_ord)

theorem Device.applyMember_ord (d : Device) (gid : Nat) (m : MemberEntry) (hb : d.ordered) :
    (Device.applyMember d gid m).ordered := by
  dsimp only [Device.applyMember]
  repeat' split
  all_goals with_reducible repeat' (first | exact hb | apply Device.commitEntry_ord | apply Device.putEntry_ord)

theorem Device.commitGroup_ord (d : Device) (loc : Location) (hb : d.ordered) :
    (Device.commitGroup d loc).ordered := by
  unfold Device.commitGroup
  split
  · exact hb
  · rename_i g _
    have h1 := Device.foldl_ord _ (fun d m => Device.applyMember_ord d g.id m) g.members d hb
    have h2 := Device.foldl_ord _ (fun d (l : Location) => Device.addTagged_ord d l.bank 1) g.records _ h1
    dsimp only
    split
    · exact h2
    · exact Device.addDead_ord _ loc.bank 3 h2

theorem Device.orphanMember_ord (d : Device) (m : MemberEntry) (hb : d.ordered) :
    (Device.orphanMember d m).ordered := by
  unfold Device.orphanMember
  split <;> exact hb

theorem Device.endGroup_ord (d : Device) (hb : d.ordered) :
    (Device.endGroup d).ordered := by
  unfold Device.endGroup
  split
  · exact hb
  · rename_i g _
    exact Device.foldl_ord _ (fun d m => Device.orphanMember_ord d m) g.members d hb

theorem Device.expireGroup_ord (d : Device) (hb : d.ordered) :
    (Device.expireGroup d).ordered := by
  dsimp only [Device.expireGroup]
  all_goals with_reducible repeat' (first | exact hb | apply Device.endGroup_ord | apply (Device.mk_ord ..).mpr)

theorem Device.memberEnded_ord (d : Device) (hb : d.ordered) :
    (Device.memberEnded d).ordered := by
  dsimp only [Device.memberEnded]
  repeat' split
  all_goals with_reducible repeat' (first | exact hb | apply Device.endGroup_ord | apply Device.expireGroup_ord)

theorem Device.releaseBuffer_ord (d : Device) (code : CommandCode) (field : Byte) (hb : d.ordered) :
    (Device.releaseBuffer d code field).ordered := by
  dsimp only [Device.releaseBuffer]
  repeat' split
  all_goals with_reducible repeat' (first | exact hb | apply Device.setBuffer_ord)

theorem Device.placeCompletion_ord (d : Device) (tag : Byte) (status : Status) (result : Nat) (hb : d.ordered) :
    (Device.placeCompletion d tag status result).ordered := hb

theorem Device.output_ord (d : Device) (bytes : List Byte) (hb : d.ordered) :
    (Device.output d bytes).ordered := by
  dsimp only [Device.output]
  repeat' split
  all_goals with_reducible repeat' (first | exact hb | apply Device.setBuffer_ord)

theorem Device.endCommand_ord (d : Device) (status : Status) (result : Nat) (hb : d.ordered) :
    (Device.endCommand d status result).ordered := by
  dsimp only [Device.endCommand]
  repeat' split
  all_goals with_reducible repeat' (first | exact hb | apply Device.commitGroup_ord | apply Device.endGroup_ord | apply Device.memberEnded_ord | apply Device.releaseBuffer_ord | apply Device.placeCompletion_ord | apply (Device.mk_ord ..).mpr)

theorem Device.degrade_ord (d : Device) (c : Cause) (hb : d.ordered) :
    (Device.degrade d c).ordered := by
  dsimp only [Device.degrade]
  repeat' split
  all_goals with_reducible repeat' (first | exact hb | apply Device.endCommand_ord | apply (Device.mk_ord ..).mpr)

/-! ## Controller.lean -/

theorem Device.decideSuspension_ord (c : Ctx) (d : Device) (hb : d.ordered) :
    (Device.decideSuspension c d).ordered := by
  dsimp only [Device.decideSuspension]
  repeat' split
  all_goals with_reducible repeat' (first | exact hb | apply (Device.mk_ord ..).mpr)

theorem Device.noteFormatGrant_ord (d : Device) (who : Requester) (hb : d.ordered) :
    (Device.noteFormatGrant d who).ordered := by
  unfold Device.noteFormatGrant
  split <;> exact hb

theorem Device.grantRequest_ord (d : Device) (who : Requester) (r : Request) (hb : d.ordered) :
    (Device.grantRequest d who r).ordered := by
  dsimp only [Device.grantRequest]
  all_goals with_reducible repeat' (first | exact hb | apply Device.noteFormatGrant_ord | apply (Device.mk_ord ..).mpr)

theorem Device.resumeErase_ord (d : Device) (hb : d.ordered) :
    (Device.resumeErase d).ordered := by
  unfold Device.resumeErase
  split <;> exact hb

theorem Device.grantAll_ord (c : Ctx) (n : Nat) (d : Device) (hb : d.ordered) : (Device.grantAll c n d).ordered := by
  induction n generalizing d with
  | zero => exact hb
  | succ n ih =>
    unfold Device.grantAll
    split
    · exact ih _ (Device.grantRequest_ord _ _ _ (Device.decideSuspension_ord c d hb))
    · exact Device.decideSuspension_ord c d hb

theorem Device.arbitrate_ord (c : Ctx) (d : Device) (hb : d.ordered) :
    (Device.arbitrate c d).ordered := by
  dsimp only [Device.arbitrate]
  repeat' split
  all_goals with_reducible repeat' (first | exact hb | apply Device.grantAll_ord | apply Device.resumeErase_ord)

/-! ## Placement.lean -/

theorem Device.reserveLines_ord (d : Device) (b : BankId) (span : Nat) (hb : d.ordered) :
    (Device.reserveLines d b span).ordered := hb

theorem Device.reserve_ord (d : Device) (w : Writer) (b : BankId) (hb : d.ordered) : (d.reserve w b).2.ordered := by
  unfold Device.reserve
  split <;> exact hb

theorem Device.beginOpen_ord (d : Device) (who : Opener) (b : BankId) (hb : d.ordered) :
    (Device.beginOpen d who b).ordered := by
  unfold Device.beginOpen
  split <;> exact hb

theorem Device.openSucceeded_ord (d : Device) (b : BankId) (epoch : Nat) (quiet : Bool) (hb : d.ordered) :
    (Device.openSucceeded d b epoch quiet).ordered := by
  dsimp only [Device.openSucceeded]
  repeat' split
  all_goals with_reducible repeat' (first | exact hb | apply Device.fillActive_ord | apply Device.setBank_ord | apply Device.noteOpening_ord | apply (Device.mk_ord ..).mpr)

theorem Device.openFaulted_ord (d : Device) (b : BankId) (epoch : Nat) (quiet : Bool) (hb : d.ordered) :
    (Device.openFaulted d b epoch quiet).ordered := by
  dsimp only [Device.openFaulted]
  repeat' split
  all_goals with_reducible repeat' (first | exact hb | apply Device.setBank_ord | apply Device.noteOpening_ord | apply (Device.mk_ord ..).mpr)

theorem Device.abandonSpan_ord (d : Device) (w : Writer) (r : Reservation) (hb : d.ordered) :
    (Device.abandonSpan d w r).ordered := hb

theorem Device.faultBank_ord (d : Device) (b : BankId) (hb : d.ordered) :
    (Device.faultBank d b).ordered := by
  dsimp only [Device.faultBank]
  all_goals with_reducible repeat' (first | exact hb | apply Device.markSuspect_ord | apply Device.fillActive_ord)

theorem Device.epochExhausted_ord (d : Device) (hb : d.ordered) :
    (Device.epochExhausted d).ordered := by
  dsimp only [Device.epochExhausted]
  all_goals with_reducible repeat' (first | exact hb | apply Device.degrade_ord | apply (Device.mk_ord ..).mpr)

/-! ## Mount.lean -/

theorem Device.resetTables_ord (d : Device) (_hb : d.ordered) :
    (Device.resetTables d).ordered := by
  exact List.Pairwise.nil

theorem Device.beginMount_ord (d : Device) (hb : d.ordered) :
    (Device.beginMount d).ordered := by
  dsimp only [Device.beginMount]
  all_goals with_reducible repeat' (first | exact hb | apply Device.resetTables_ord | apply Device.request_ord | apply (Device.mk_ord ..).mpr)

theorem Device.handOff_ord (d : Device) (hb : d.ordered) :
    (Device.handOff d).ordered := hb

theorem Device.finishMount_ord (d : Device) (rows : List CensusRow) (scans : List ScanBank) (_hb : d.ordered) :
    (Device.finishMount d rows scans).ordered := by
  dsimp only [Device.finishMount]
  exact Device.handOff_ord _ (loaded_ordered ..)

theorem Device.finishBlank_ord (d : Device) (rows : List CensusRow) (hb : d.ordered) :
    (Device.finishBlank d rows).ordered := hb

theorem Device.nextScan_ord (d : Device) (rows : List CensusRow) (todo : List (BankId × Nat)) (done : List ScanBank) (hb : d.ordered) :
    (Device.nextScan d rows todo done).ordered := by
  dsimp only [Device.nextScan]
  repeat' split
  all_goals with_reducible repeat' (first | exact hb | apply Device.finishMount_ord | apply Device.request_ord | apply (Device.mk_ord ..).mpr)

theorem Device.censusDone_ord (d : Device) (rows : List CensusRow) (hb : d.ordered) :
    (Device.censusDone d rows).ordered := by
  dsimp only [Device.censusDone]
  repeat' split
  all_goals with_reducible repeat' (first | exact hb | apply Device.request_ord | apply Device.finishBlank_ord | apply Device.nextScan_ord | apply (Device.mk_ord ..).mpr)

theorem Device.mountRead_ord (d : Device) (lines : List Line) (hb : d.ordered) :
    (Device.mountRead d lines).ordered := by
  dsimp only [Device.mountRead]
  repeat' split
  all_goals with_reducible repeat' (first | exact hb | apply Device.erased_ord | apply Device.request_ord | apply Device.censusDone_ord | apply Device.nextScan_ord | apply (Device.mk_ord ..).mpr)

theorem Device.stopMount_ord (d : Device) (hb : d.ordered) :
    (Device.stopMount d).ordered := hb

/-! ## FormatEnds.lean -/

theorem Device.mapFormat_ord (d : Device) (f : FormatProgress → FormatProgress) (hb : d.ordered) :
    (Device.mapFormat d f).ordered := hb

theorem Device.formatCommitted_ord (d : Device) (hb : d.ordered) :
    (Device.formatCommitted d).ordered := hb

theorem Device.formatFinish_ord (d : Device) (hb : d.ordered) :
    (Device.formatFinish d).ordered := by
  dsimp only [Device.formatFinish]
  repeat' split
  all_goals with_reducible repeat' (first | exact hb | apply Device.formatCommitted_ord | apply Device.endCommand_ord | apply Device.beginMount_ord)

theorem Device.formatWithdrawn_ord (d : Device) (f : FormatProgress) (hb : d.ordered) :
    (Device.formatWithdrawn d f).ordered := hb

theorem Device.formatPowerEnd_ord (d : Device) (hb : d.ordered) :
    (Device.formatPowerEnd d).ordered := by
  dsimp only [Device.formatPowerEnd]
  repeat' split
  all_goals with_reducible repeat' (first | exact hb | apply Device.resetTables_ord | apply Device.endCommand_ord | apply Device.formatWithdrawn_ord)

/-! ## CommandRecord.lean -/

theorem Device.commandPowerEnd_ord (d : Device) (hb : d.ordered) :
    (Device.commandPowerEnd d).ordered := by
  dsimp only [Device.commandPowerEnd]
  repeat' split
  all_goals with_reducible repeat' (first | exact hb | apply Device.formatPowerEnd_ord | apply Device.endCommand_ord)

theorem Device.commandFails_ord (d : Device) (status : Status) (hb : d.ordered) :
    (Device.commandFails d status).ordered := by
  dsimp only [Device.commandFails]
  repeat' split
  all_goals with_reducible repeat' (first | exact hb | apply Device.degrade_ord | apply Device.formatFinish_ord | apply Device.endCommand_ord)

theorem Device.commandOutOfSequences_ord (d : Device) (hb : d.ordered) :
    (Device.commandOutOfSequences d).ordered := by
  dsimp only [Device.commandOutOfSequences]
  all_goals with_reducible repeat' (first | exact hb | apply Device.degrade_ord | apply Device.commandFails_ord)

theorem Device.commandReserve_ord (d : Device) (w : Writer) (b : BankId) (hb : d.ordered) :
    (Device.commandReserve d w b).ordered := by
  dsimp only [Device.commandReserve]
  split
  · exact Device.request_ord _ _ _ (Device.setStage_ord _ _ (Device.reserve_ord d w b hb))
  · exact Device.commandOutOfSequences_ord d hb

theorem Device.commandOpen_ord (d : Device) (w : Writer) (b : BankId) (hb : d.ordered) :
    (Device.commandOpen d w b).ordered := by
  dsimp only [Device.commandOpen]
  repeat' split
  all_goals with_reducible repeat' (first | exact hb | apply Device.setStage_ord | apply Device.beginOpen_ord | apply Device.epochExhausted_ord | apply Device.commandFails_ord)

theorem Device.commandWaits_ord (d : Device) (w : Writer) (hb : d.ordered) :
    (Device.commandWaits d w).ordered := by
  dsimp only [Device.commandWaits]
  repeat' split
  all_goals with_reducible repeat' (first | exact hb | apply Device.commandFails_ord | apply Device.endCommand_ord | apply Device.setStage_ord)

theorem Device.commandPlace_ord (c : Ctx) (d : Device) (w : Writer) (hb : d.ordered) :
    (Device.commandPlace c d w).ordered := by
  dsimp only [Device.commandPlace]
  repeat' split
  all_goals with_reducible repeat' (first | exact hb | apply Device.commandPowerEnd_ord | apply Device.commandOutOfSequences_ord | apply Device.commandReserve_ord | apply Device.setStage_ord | apply Device.commandOpen_ord | apply Device.commandWaits_ord)

theorem Device.commitUserRecord_ord (d : Device) (x : Executing) (w : Writer) (r : Reservation) (hb : d.ordered) :
    (Device.commitUserRecord d x w r).ordered := by
  dsimp only [Device.commitUserRecord]
  repeat' split
  all_goals with_reducible repeat' (first | exact hb | apply Device.commitMember_ord | apply Device.commitEntry_ord)

theorem Device.commandCommit_ord (d : Device) (x : Executing) (w : Writer) (r : Reservation) (hb : d.ordered) :
    (Device.commandCommit d x w r).ordered := by
  dsimp only [Device.commandCommit]
  repeat' split
  all_goals with_reducible repeat' (first | exact hb | apply Device.commitGroup_ord | apply Device.endCommand_ord | apply Device.commitEntry_ord | apply Device.formatFinish_ord | apply Device.commitUserRecord_ord | apply Device.output_ord | apply (Device.mk_ord ..).mpr)

theorem Device.commandFault_ord (c : Ctx) (d : Device) (w : Writer) (hb : d.ordered) :
    (Device.commandFault c d w).ordered := by
  dsimp only [Device.commandFault]
  repeat' split
  all_goals with_reducible repeat' (first | exact hb | apply Device.commandPowerEnd_ord | apply Device.commandFails_ord | apply Device.commandPlace_ord)

theorem Device.commandOpened_ord (c : Ctx) (d : Device) (x : Executing) (w : Writer) (b : BankId) (epoch : Nat) (o : ProgramOutcome) (hb : d.ordered) :
    (Device.commandOpened c d x w b epoch o).ordered := by
  dsimp only [Device.commandOpened]
  repeat' split
  all_goals with_reducible repeat' (first | exact hb | apply Device.openSucceeded_ord | apply Device.commandReserve_ord | apply Device.openFaulted_ord | apply Device.commandFault_ord)

theorem Device.commandLine_ord (c : Ctx) (d : Device) (x : Executing) (w : Writer) (r : Reservation) (o : ProgramOutcome) (hb : d.ordered) :
    (Device.commandLine c d x w r o).ordered := by
  dsimp only [Device.commandLine]
  repeat' split
  all_goals with_reducible repeat' (first | exact hb | apply Device.formatPowerEnd_ord | apply Device.setStage_ord | apply Device.request_ord | apply Device.faultBank_ord | apply Device.commandCommit_ord | apply Device.abandonSpan_ord | apply Device.commandFault_ord)

theorem Device.commandRefused_ord (d : Device) (hb : d.ordered) :
    (Device.commandRefused d).ordered := by
  dsimp only [Device.commandRefused]
  repeat' split
  all_goals with_reducible repeat' (first | exact hb | apply Device.commandPowerEnd_ord | apply Device.abandonSpan_ord | apply (Device.mk_ord ..).mpr)

/-! ## FormatWork.lean -/

theorem Device.formatTaken_ord (d : Device) (hb : d.ordered) :
    (Device.formatTaken d).ordered := hb

theorem Device.formatHeaderOf_ord (d : Device) (f : FormatProgress) (b : BankId) (again : Bool) (hb : d.ordered) :
    (Device.formatHeaderOf d f b again).ordered := hb

theorem Device.formatEraseOf_ord (d : Device) (b : BankId) (again : Bool) (hb : d.ordered) :
    (Device.formatEraseOf d b again).ordered := hb

theorem Device.formatBank_ord (d : Device) (f : FormatProgress) (b : BankId) (hb : d.ordered) :
    (Device.formatBank d f b).ordered := by
  unfold Device.formatBank
  split <;> exact hb

theorem Device.formatTables_ord (d : Device) (_hb : d.ordered) :
    (Device.formatTables d).ordered := by
  exact List.Pairwise.nil

theorem Device.formatMap_ord (c : Ctx) (d : Device) (hb : d.ordered) :
    (Device.formatMap c d).ordered := by
  dsimp only [Device.formatMap]
  repeat' split
  all_goals with_reducible repeat' (first | exact hb | apply Device.formatTables_ord | apply Device.formatFinish_ord | apply Device.degrade_ord | apply Device.commandPlace_ord)

theorem Device.formatNext_ord (c : Ctx) (d : Device) (f : FormatProgress) (hb : d.ordered) :
    (Device.formatNext c d f).ordered := by
  dsimp only [Device.formatNext]
  repeat' split
  all_goals with_reducible repeat' (first | exact hb | apply Device.formatMap_ord | apply Device.mapFormat_ord | apply Device.formatBank_ord)

theorem Device.formatChoose_ord (d : Device) (f : FormatProgress) (hb : d.ordered) :
    (Device.formatChoose d f).ordered := by
  dsimp only [Device.formatChoose]
  repeat' split
  all_goals with_reducible repeat' (first | exact hb | apply Device.formatBank_ord | apply Device.formatFinish_ord)

theorem Device.unlist_ord (d : Device) (b : BankId) (hb : d.ordered) :
    (Device.unlist d b).ordered := hb

theorem Device.formatFailed_ord (c : Ctx) (d : Device) (f : FormatProgress) (b : BankId) (again : Bool) (hb : d.ordered) :
    (Device.formatFailed c d f b again).ordered := by
  dsimp only [Device.formatFailed]
  repeat' split
  all_goals with_reducible repeat' (first | exact hb | apply Device.emptyInto_ord | apply Device.unlist_ord | apply Device.formatNext_ord | apply Device.formatChoose_ord | apply Device.formatEraseOf_ord)

theorem Device.formatFreed_ord (c : Ctx) (d : Device) (f : FormatProgress) (b : BankId) (count : Nat) (hb : d.ordered) :
    (Device.formatFreed c d f b count).ordered := by
  dsimp only [Device.formatFreed]
  repeat' split
  all_goals with_reducible repeat' (first | exact hb | apply Device.makeFree_ord | apply Device.unlist_ord | apply Device.formatNext_ord | apply Device.mapFormat_ord | apply (Device.mk_ord ..).mpr)

theorem Device.formatErased_ord (c : Ctx) (d : Device) (f : FormatProgress) (b : BankId) (again ok : Bool) (hb : d.ordered) :
    (Device.formatErased c d f b again ok).ordered := by
  dsimp only [Device.formatErased]
  repeat' split
  all_goals with_reducible repeat' (first | exact hb | apply Device.formatPowerEnd_ord | apply Device.formatHeaderOf_ord | apply Device.formatFailed_ord)

theorem Device.formatHeadered_ord (c : Ctx) (d : Device) (f : FormatProgress) (b : BankId) (again : Bool) (count : Nat) (o : ProgramOutcome) (hb : d.ordered) :
    (Device.formatHeadered c d f b again count o).ordered := by
  dsimp only [Device.formatHeadered]
  repeat' split
  all_goals with_reducible repeat' (first | exact hb | apply Device.formatPowerEnd_ord | apply Device.formatFreed_ord | apply Device.markSuspect_ord | apply Device.formatFailed_ord)

theorem Device.haltForFormat_ord (d : Device) (hb : d.ordered) :
    (Device.haltForFormat d).ordered := by
  unfold Device.haltForFormat
  split <;> exact hb

theorem Device.formatWaits_ord (d : Device) (f : FormatProgress) (hb : d.ordered) :
    (Device.formatWaits d f).ordered := by
  dsimp only [Device.formatWaits]
  repeat' split
  all_goals with_reducible repeat' (first | exact hb | apply Device.haltForFormat_ord | apply Device.formatChoose_ord)

/-! ## CommandReads.lean -/

theorem Device.readDone_ord (d : Device) (x : Executing) (payload : Option (List Byte)) (hb : d.ordered) :
    (Device.readDone d x payload).ordered := by
  dsimp only [Device.readDone]
  repeat' split
  all_goals with_reducible repeat' (first | exact hb | apply Device.output_ord | apply Device.endCommand_ord | apply Device.damageEntry_ord)

theorem Device.damageCounter_ord (d : Device) (x : Executing) (loc : Location) (hb : d.ordered) :
    (Device.damageCounter d x loc).ordered := by
  dsimp only [Device.damageCounter]
  repeat' split
  all_goals with_reducible repeat' (first | exact hb | apply Device.damageMember_ord | apply Device.damageEntry_ord)

theorem Device.addDone_ord (c : Ctx) (d : Device) (x : Executing) (loc : Location) (payload : Option (List Byte)) (hb : d.ordered) :
    (Device.addDone c d x loc payload).ordered := by
  dsimp only [Device.addDone]
  repeat' split
  all_goals with_reducible repeat' (first | exact hb | apply Device.damageCounter_ord | apply Device.endCommand_ord | apply Device.commandPowerEnd_ord | apply Device.commandPlace_ord)

theorem Device.commandRead_ord (c : Ctx) (d : Device) (lines : List Line) (hb : d.ordered) :
    (Device.commandRead c d lines).ordered := by
  dsimp only [Device.commandRead]
  repeat' split
  all_goals with_reducible repeat' (first | exact hb | apply Device.addDone_ord | apply Device.readDone_ord)

/-! ## Commands.lean -/

theorem Device.startRead_ord (d : Device) (x : Executing) (hb : d.ordered) :
    (Device.startRead d x).ordered := by
  dsimp only [Device.startRead]
  repeat' split
  all_goals with_reducible repeat' (first | exact hb | apply Device.endCommand_ord | apply Device.setStage_ord | apply Device.request_ord)

theorem Device.startWrite_ord (c : Ctx) (d : Device) (x : Executing) (payload : List Byte) (hb : d.ordered) :
    (Device.startWrite c d x payload).ordered := by
  dsimp only [Device.startWrite]
  repeat' split
  all_goals with_reducible repeat' (first | exact hb | apply Device.endCommand_ord | apply Device.commandPlace_ord)

theorem Device.startDelete_ord (c : Ctx) (d : Device) (x : Executing) (hb : d.ordered) :
    (Device.startDelete c d x).ordered := by
  dsimp only [Device.startDelete]
  repeat' split
  all_goals with_reducible repeat' (first | exact hb | apply Device.endCommand_ord | apply Device.commandPlace_ord)

theorem Device.startAdd_ord (c : Ctx) (d : Device) (x : Executing) (hb : d.ordered) :
    (Device.startAdd c d x).ordered := by
  dsimp only [Device.startAdd]
  repeat' split
  all_goals with_reducible repeat' (first | exact hb | apply Device.endCommand_ord | apply Device.setStage_ord | apply Device.request_ord | apply Device.commandPlace_ord)

theorem Device.startList_ord (d : Device) (x : Executing) (hb : d.ordered) :
    (Device.startList d x).ordered := by
  dsimp only [Device.startList]
  all_goals with_reducible repeat' (first | exact hb | apply Device.output_ord | apply Device.endCommand_ord)

theorem Device.openGroup_ord (d : Device) (timeout : Nat) (hb : d.ordered) :
    (Device.openGroup d timeout).ordered := hb

theorem Device.startOpenGroup_ord (c : Ctx) (d : Device) (x : Executing) (timeout : Nat) (hb : d.ordered) :
    (Device.startOpenGroup c d x timeout).ordered := by
  dsimp only [Device.startOpenGroup]
  repeat' split
  all_goals with_reducible repeat' (first | exact hb | apply Device.endCommand_ord | apply Device.openGroup_ord | apply Device.degrade_ord | apply (Device.mk_ord ..).mpr)

theorem Device.closeGroup_ord (d : Device) (code : CommandCode) (hb : d.ordered) : (Device.closeGroup d code).ordered := by
  unfold Device.closeGroup
  split
  · exact Device.mapGroup_ord _ _ hb
  · exact hb

theorem Device.startCommitGroup_ord (c : Ctx) (d : Device) (hb : d.ordered) :
    (Device.startCommitGroup c d).ordered := by
  dsimp only [Device.startCommitGroup]
  repeat' split
  all_goals with_reducible repeat' (first | exact hb | apply Device.endCommand_ord | apply Device.mapGroup_ord | apply Device.commandPlace_ord | apply (Device.mk_ord ..).mpr)

theorem Device.startDropGroup_ord (d : Device) (hb : d.ordered) :
    (Device.startDropGroup d).ordered := by
  dsimp only [Device.startDropGroup]
  repeat' split
  all_goals with_reducible repeat' (first | exact hb | apply Device.endCommand_ord | apply Device.endGroup_ord)

theorem Device.startReclaim_ord (c : Ctx) (d : Device) (x : Executing) (hb : d.ordered) :
    (Device.startReclaim c d x).ordered := by
  dsimp only [Device.startReclaim]
  repeat' split
  all_goals with_reducible repeat' (first | exact hb | apply Device.endCommand_ord | apply Device.mapReclaim_ord | apply Device.request_ord | apply Device.setStage_ord)

theorem Device.startFormat_ord (c : Ctx) (d : Device) (hb : d.ordered) :
    (Device.startFormat c d).ordered := by
  dsimp only [Device.startFormat]
  repeat' split
  all_goals with_reducible repeat' (first | exact hb | apply Device.endCommand_ord | apply Device.formatPowerEnd_ord | apply Device.formatTaken_ord)

theorem Device.startRaiseLock_ord (c : Ctx) (d : Device) (x : Executing) (hb : d.ordered) :
    (Device.startRaiseLock c d x).ordered := by
  dsimp only [Device.startRaiseLock]
  repeat' split
  all_goals with_reducible repeat' (first | exact hb | apply Device.endCommand_ord | apply Device.setStage_ord | apply Device.commandPlace_ord)

theorem Device.startCommand_ord (c : Ctx) (d : Device) (x : Executing) (t : Taken) (hb : d.ordered) :
    (Device.startCommand c d x t).ordered := by
  dsimp only [Device.startCommand]
  repeat' split
  all_goals with_reducible repeat' (first | exact hb | apply Device.startRead_ord | apply Device.startWrite_ord | apply Device.startDelete_ord | apply Device.startAdd_ord | apply Device.startList_ord | apply Device.openGroup_ord | apply Device.startOpenGroup_ord | apply Device.commitGroup_ord | apply Device.startCommitGroup_ord | apply Device.startDropGroup_ord | apply Device.startReclaim_ord | apply Device.startFormat_ord | apply Device.startRaiseLock_ord)

theorem Device.takeHead_ord (c : Ctx) (d : Device) (hb : d.ordered) : (d.takeHead c).ordered := by
  dsimp only [Device.takeHead]
  repeat' split
  all_goals with_reducible repeat' (first | exact hb | apply Device.endCommand_ord | apply Device.closeGroup_ord | apply (Device.mk_ord ..).mpr)

theorem Device.makeStep_ord (c : Ctx) (d : Device) (hb : d.ordered) : (d.makeStep c).ordered := by
  dsimp only [Device.makeStep]
  repeat' split
  all_goals first | exact hb | exact Device.startCommand_ord _ _ _ _ hb

theorem Device.takeCommand_ord (c : Ctx) (d : Device) (hb : d.ordered) : (Device.takeCommand c d).ordered :=
  Device.makeStep_ord _ _ (Device.takeHead_ord _ _ hb)

/-! ## ReclaimRecord.lean -/

theorem Device.setWriter_ord (d : Device) (w : Writer) (hb : d.ordered) :
    (Device.setWriter d w).ordered := hb

theorem Device.answerReclaim_ord (d : Device) (status : Status) (result : Nat) (hb : d.ordered) :
    (Device.answerReclaim d status result).ordered := by
  dsimp only [Device.answerReclaim]
  repeat' split
  all_goals with_reducible repeat' (first | exact hb | apply Device.request_ord | apply Device.mapReclaim_ord | apply Device.endCommand_ord)

theorem Device.reclaimHalt_ord (c : Ctx) (d : Device) (hb : d.ordered) :
    (Device.reclaimHalt c d).ordered := by
  dsimp only [Device.reclaimHalt]
  repeat' split
  all_goals with_reducible repeat' (first | exact hb | apply Device.setJob_ord | apply Device.degrade_ord | apply Device.answerReclaim_ord)

theorem Device.reclaimCannot_ord (c : Ctx) (d : Device) (hb : d.ordered) :
    (Device.reclaimCannot c d).ordered := by
  dsimp only [Device.reclaimCannot]
  repeat' split
  all_goals with_reducible repeat' (first | exact hb | apply Device.reclaimHalt_ord | apply Device.setJob_ord | apply Device.degrade_ord | apply Device.mapReclaim_ord)

theorem Device.reclaimOutOfSequences_ord (d : Device) (hb : d.ordered) :
    (Device.reclaimOutOfSequences d).ordered := by
  dsimp only [Device.reclaimOutOfSequences]
  repeat' split
  all_goals with_reducible repeat' (first | exact hb | apply Device.mapReclaim_ord | apply Device.setJob_ord | apply Device.degrade_ord)

theorem Device.reclaimReserve_ord (d : Device) (w : Writer) (b : BankId) (hb : d.ordered) :
    (Device.reclaimReserve d w b).ordered := by
  dsimp only [Device.reclaimReserve]
  split
  · exact Device.request_ord _ _ _ (Device.setWriter_ord _ _ (Device.reserve_ord d w b hb))
  · exact Device.reclaimOutOfSequences_ord d hb

theorem Device.reclaimOpen_ord (c : Ctx) (d : Device) (w : Writer) (b : BankId) (hb : d.ordered) :
    (Device.reclaimOpen c d w b).ordered := by
  dsimp only [Device.reclaimOpen]
  repeat' split
  all_goals with_reducible repeat' (first | exact hb | apply Device.setWriter_ord | apply Device.beginOpen_ord | apply Device.epochExhausted_ord | apply Device.reclaimCannot_ord)

theorem Device.reclaimPlace_ord (c : Ctx) (d : Device) (w : Writer) (hb : d.ordered) :
    (Device.reclaimPlace c d w).ordered := by
  dsimp only [Device.reclaimPlace]
  repeat' split
  all_goals with_reducible repeat' (first | exact hb | apply Device.reclaimOutOfSequences_ord | apply Device.reclaimReserve_ord | apply Device.setWriter_ord | apply Device.reclaimOpen_ord | apply Device.reclaimCannot_ord)

theorem Device.reclaimFault_ord (c : Ctx) (d : Device) (w : Writer) (hb : d.ordered) :
    (Device.reclaimFault c d w).ordered := by
  dsimp only [Device.reclaimFault]
  repeat' split
  all_goals with_reducible repeat' (first | exact hb | apply Device.reclaimCannot_ord | apply Device.setWriter_ord | apply Device.reclaimPlace_ord)

theorem Device.reclaimOpened_ord (c : Ctx) (d : Device) (w : Writer) (b : BankId) (epoch : Nat) (o : ProgramOutcome) (hb : d.ordered) :
    (Device.reclaimOpened c d w b epoch o).ordered := by
  dsimp only [Device.reclaimOpened]
  repeat' split
  all_goals with_reducible repeat' (first | exact hb | apply Device.openSucceeded_ord | apply Device.reclaimReserve_ord | apply Device.openFaulted_ord | apply Device.reclaimFault_ord)

theorem Device.reclaimAbandon_ord (d : Device) (w : Writer) (hb : d.ordered) :
    (Device.reclaimAbandon d w).ordered := by
  unfold Device.reclaimAbandon
  split <;> exact hb

theorem Device.eraseHeld_ord (d : Device) (b : BankId) (hb : d.ordered) :
    (Device.eraseHeld d b).ordered := hb

theorem Device.reclaimRefused_ord (d : Device) (hb : d.ordered) :
    (Device.reclaimRefused d).ordered := by
  dsimp only [Device.reclaimRefused]
  repeat' split
  all_goals with_reducible repeat' (first | exact hb | apply Device.eraseHeld_ord | apply Device.setJob_ord | apply Device.reclaimAbandon_ord | apply Device.mapReclaim_ord)

/-! ## CopyWalk.lean -/

theorem Device.entryUnlocated_ord (d : Device) (k : Key) (hb : d.ordered) :
    (Device.entryUnlocated d k).ordered := by
  dsimp only [Device.entryUnlocated]
  repeat' split
  all_goals with_reducible repeat' (first | exact hb | apply Device.putEntry_ord)

theorem Device.memberUnlocated_ord (d : Device) (k : Key) (hb : d.ordered) :
    (Device.memberUnlocated d k).ordered := hb

theorem Device.advanceCursor_ord (d : Device) (hb : d.ordered) :
    (Device.advanceCursor d).ordered := hb

theorem Device.beginRetire_ord (d : Device) (v : Victim) (hb : d.ordered) :
    (Device.beginRetire d v).ordered := hb

theorem Device.beginCopyRead_ord (d : Device) (v : Victim) (r : WalkRecord) (owner : CopyOwner) (hb : d.ordered) :
    (Device.beginCopyRead d v r owner).ordered := hb

theorem Device.walkOn_ord (v : Victim) (l : List WalkRecord) (d : Device) (hb : d.ordered) :
    (Device.walkOn v l d).ordered := by
  induction l generalizing d with
  | nil => exact Device.beginRetire_ord d v hb
  | cons r l ih =>
    unfold Device.walkOn
    split
    · exact Device.beginCopyRead_ord _ _ _ _ hb
    · exact ih _ (Device.advanceCursor_ord _ hb)
    · exact ih _ (Device.advanceCursor_ord _ (Device.entryUnlocated_ord _ _ hb))
    · exact ih _ (Device.advanceCursor_ord _ (Device.memberUnlocated_ord _ _ hb))

theorem Device.walk_ord (d : Device) (hb : d.ordered) :
    (Device.walk d).ordered := by
  dsimp only [Device.walk]
  repeat' split
  all_goals with_reducible repeat' (first | exact hb | apply Device.walkOn_ord)

theorem Device.planned_ord (c : Ctx) (d : Device) (lines : List Line) (hb : d.ordered) :
    (Device.planned c d lines).ordered := by
  dsimp only [Device.planned]
  repeat' split
  all_goals with_reducible repeat' (first | exact hb | apply Device.setJob_ord | apply Device.walk_ord | apply (Device.mk_ord ..).mpr)

theorem Device.entryFoundDamaged_ord (d : Device) (k : Key) (loc : Location) (hb : d.ordered) :
    (Device.entryFoundDamaged d k loc).ordered := by
  dsimp only [Device.entryFoundDamaged]
  repeat' split
  all_goals with_reducible repeat' (first | exact hb | apply Device.damageEntry_ord | apply Device.entryUnlocated_ord | apply Device.mapReclaim_ord)

theorem Device.memberFoundDamaged_ord (d : Device) (k : Key) (loc : Location) (hb : d.ordered) :
    (Device.memberFoundDamaged d k loc).ordered := by
  dsimp only [Device.memberFoundDamaged]
  repeat' split
  all_goals with_reducible repeat' (first | exact hb | apply Device.damageMember_ord | apply Device.memberUnlocated_ord)

theorem Device.beginCopy_ord (c : Ctx) (d : Device) (r : WalkRecord) (owner : CopyOwner) (payload : List Byte) (hb : d.ordered) :
    (Device.beginCopy c d r owner payload).ordered := by
  dsimp only [Device.beginCopy]
  all_goals with_reducible repeat' (first | exact hb | apply Device.setJob_ord | apply Device.reclaimPlace_ord)

theorem Device.rebuildCommit_ord (c : Ctx) (d : Device) (r : WalkRecord) (loc : Location) (hb : d.ordered) :
    (Device.rebuildCommit c d r loc).ordered := by
  dsimp only [Device.rebuildCommit]
  repeat' split
  all_goals with_reducible repeat' (first | exact hb | apply Device.beginCopy_ord | apply Device.advanceCursor_ord | apply Device.walk_ord)

theorem Device.copyFoundDamaged_ord (c : Ctx) (d : Device) (v : Victim) (r : WalkRecord) (hb : d.ordered) :
    (Device.copyFoundDamaged c d v r).ordered := by
  dsimp only [Device.copyFoundDamaged]
  all_goals with_reducible repeat' (first | exact hb | apply Device.markWalkDamaged_ord | apply Device.entryFoundDamaged_ord | apply Device.advanceCursor_ord | apply Device.walk_ord | apply Device.memberFoundDamaged_ord | apply Device.rebuildCommit_ord)

theorem Device.copyReadDone_ord (c : Ctx) (d : Device) (owner : CopyOwner) (lines : List Line) (hb : d.ordered) :
    (Device.copyReadDone c d owner lines).ordered := by
  dsimp only [Device.copyReadDone]
  repeat' split
  all_goals with_reducible repeat' (first | exact hb | apply Device.walk_ord | apply Device.beginCopy_ord | apply Device.copyFoundDamaged_ord)

theorem Device.copyVerified_ord (d : Device) (v : Victim) (cj : CopyJob) (r : Reservation) (hb : d.ordered) :
    (Device.copyVerified d v cj r).ordered := by
  dsimp only [Device.copyVerified]
  repeat' split
  all_goals with_reducible repeat' (first | exact hb | apply Device.copyTakesOver_ord | apply Device.memberCopyVerifies_ord | apply Device.commitCopyVerifies_ord)

theorem Device.reclaimCommit_ord (d : Device) (w : Writer) (r : Reservation) (hb : d.ordered) :
    (Device.reclaimCommit d w r).ordered := by
  dsimp only [Device.reclaimCommit]
  repeat' split
  all_goals with_reducible repeat' (first | exact hb | apply Device.commitEntry_ord | apply Device.setJob_ord | apply Device.mapReclaim_ord | apply Device.copyVerified_ord | apply Device.advanceCursor_ord | apply Device.walk_ord)

theorem Device.reclaimLine_ord (c : Ctx) (d : Device) (w : Writer) (r : Reservation) (o : ProgramOutcome) (hb : d.ordered) :
    (Device.reclaimLine c d w r o).ordered := by
  dsimp only [Device.reclaimLine]
  repeat' split
  all_goals with_reducible repeat' (first | exact hb | apply Device.setWriter_ord | apply Device.request_ord | apply Device.faultBank_ord | apply Device.reclaimCommit_ord | apply Device.abandonSpan_ord | apply Device.reclaimFault_ord)

theorem Device.retireRecord_ord (d : Device) (bank : BankId) (r : WalkRecord) (hb : d.ordered) :
    (Device.retireRecord d bank r).ordered := by
  dsimp only [Device.retireRecord]
  repeat' split
  all_goals with_reducible repeat' (first | exact hb | apply Device.putEntry_ord)

theorem Device.tombstoneDead_ord (d : Device) (victim : BankId) (e : DirEntry) (hb : d.ordered) :
    (Device.tombstoneDead d victim e).ordered := by
  dsimp only [Device.tombstoneDead]
  repeat' split
  all_goals with_reducible repeat' (first | exact hb | apply Device.addDead_ord)

theorem Device.retireDirectory_ord (d : Device) (bank : BankId) (valid : List WalkRecord) (hb : d.ordered) :
    (Device.retireDirectory d bank valid).ordered := by
  dsimp only [Device.retireDirectory]
  apply Device.foldl_ord _ fun d e => Device.tombstoneDead_ord d bank e
  exact List.Pairwise.filter _ (Device.foldl_ord _ (fun d r => Device.retireRecord_ord d bank r) valid d hb)

theorem Device.retireGroup_ord (d : Device) (bank : BankId) (walk : List WalkRecord) (hb : d.ordered) :
    (Device.retireGroup d bank walk).ordered := hb

theorem Device.retireCommits_ord (d : Device) (bank : BankId) (valid : List WalkRecord) (hb : d.ordered) :
    (Device.retireCommits d bank valid).ordered := by
  dsimp only [Device.retireCommits]
  exact Device.foldl_ord _ (fun d (c : CommitEntry) => Device.addDead_ord d c.loc.bank 3) _ _ hb

theorem Device.retired_ord (d : Device) (v : Victim) (hb : d.ordered) :
    (Device.retired d v).ordered := by
  dsimp only [Device.retired]
  repeat' split
  all_goals with_reducible repeat' (first | exact hb | apply Device.emptyInto_ord | apply Device.mapReclaim_ord | apply Device.walk_ord | apply Device.retireDirectory_ord | apply Device.retireGroup_ord | apply Device.retireCommits_ord | apply Device.request_ord | apply Device.answerReclaim_ord)

theorem Device.retireOutcome_ord (c : Ctx) (d : Device) (o : ProgramOutcome) (hb : d.ordered) :
    (Device.retireOutcome c d o).ordered := by
  dsimp only [Device.retireOutcome]
  repeat' split
  all_goals with_reducible repeat' (first | exact hb | apply Device.retired_ord | apply Device.markSuspect_ord | apply Device.reclaimHalt_ord)

/-! ## ReclaimWork.lean -/

theorem Device.decideMap_ord (c : Ctx) (d : Device) (hb : d.ordered) :
    (Device.decideMap c d).ordered := by
  dsimp only [Device.decideMap]
  repeat' split
  all_goals with_reducible repeat' (first | exact hb | apply Device.setJob_ord | apply Device.degrade_ord | apply Device.reclaimPlace_ord)

theorem Device.takeMap_ord (c : Ctx) (d : Device) (hb : d.ordered) :
    (Device.takeMap c d).ordered := by
  dsimp only [Device.takeMap]
  all_goals with_reducible repeat' (first | exact hb | apply Device.mapReclaim_ord | apply Device.decideMap_ord)

theorem Device.beginBlankHeader_ord (d : Device) (b : BankId) (hb : d.ordered) :
    (Device.beginBlankHeader d b).ordered := hb

theorem Device.blankHeaderDone_ord (d : Device) (b : BankId) (count : Nat) (o : ProgramOutcome) (hb : d.ordered) :
    (Device.blankHeaderDone d b count o).ordered := by
  unfold Device.blankHeaderDone
  split <;> exact hb

theorem Device.beginErase_ord (d : Device) (b : BankId) (rest : List BankId) (hb : d.ordered) :
    (Device.beginErase d b rest).ordered := hb

theorem Device.eraseFailed_ord (c : Ctx) (d : Device) (b : BankId) (hb : d.ordered) :
    (Device.eraseFailed c d b).ordered := by
  dsimp only [Device.eraseFailed]
  repeat' split
  all_goals with_reducible repeat' (first | exact hb | apply Device.mapReclaim_ord | apply Device.request_ord | apply Device.emptyInto_ord | apply Device.decideMap_ord)

theorem Device.eraseDone_ord (c : Ctx) (d : Device) (b : BankId) (ok : Bool) (hb : d.ordered) :
    (Device.eraseDone c d b ok).ordered := by
  dsimp only [Device.eraseDone]
  repeat' split
  all_goals with_reducible repeat' (first | exact hb | apply Device.setJob_ord | apply Device.request_ord | apply Device.eraseFailed_ord)

theorem Device.eraseHeaderDone_ord (c : Ctx) (d : Device) (b : BankId) (count : Nat) (o : ProgramOutcome) (hb : d.ordered) :
    (Device.eraseHeaderDone c d b count o).ordered := by
  dsimp only [Device.eraseHeaderDone]
  repeat' split
  all_goals with_reducible repeat' (first | exact hb | apply Device.makeFree_ord | apply Device.mapReclaim_ord | apply Device.markSuspect_ord | apply Device.eraseFailed_ord)

theorem Device.beginVictim_ord (d : Device) (b : BankId) (forRequest : Bool) (hb : d.ordered) :
    (Device.beginVictim d b forRequest).ordered := hb

theorem Device.resumeVictim_ord (d : Device) (v : Victim) (hb : d.ordered) :
    (Device.resumeVictim d v).ordered := by
  dsimp only [Device.resumeVictim]
  repeat' split
  all_goals with_reducible repeat' (first | exact hb | apply Device.setJob_ord | apply Device.request_ord | apply Device.walk_ord | apply Device.beginRetire_ord)

theorem Device.answerNone_ord (d : Device) (hb : d.ordered) :
    (Device.answerNone d).ordered := by
  dsimp only [Device.answerNone]
  repeat' split
  all_goals with_reducible repeat' (first | exact hb | apply Device.request_ord | apply Device.answerReclaim_ord)

theorem Device.reportNoSpace_ord (d : Device) (hb : d.ordered) :
    (Device.reportNoSpace d).ordered := by
  dsimp only [Device.reportNoSpace]
  repeat' split
  all_goals with_reducible repeat' (first | exact hb | apply Device.endCommand_ord)

theorem Device.beginRepair_ord (c : Ctx) (d : Device) (hb : d.ordered) :
    (Device.beginRepair c d).ordered := by
  dsimp only [Device.beginRepair]
  all_goals with_reducible repeat' (first | exact hb | apply Device.setJob_ord | apply Device.reclaimPlace_ord)

theorem Device.takeVictim_ord (c : Ctx) (d : Device) (hb : d.ordered) :
    (Device.takeVictim c d).ordered := by
  dsimp only [Device.takeVictim]
  repeat' split
  all_goals with_reducible repeat' (first | exact hb | apply Device.resumeVictim_ord | apply Device.answerNone_ord | apply Device.beginVictim_ord | apply Device.reportNoSpace_ord)

theorem Device.takeErase_ord (c : Ctx) (d : Device) (hb : d.ordered) :
    (Device.takeErase c d).ordered := by
  dsimp only [Device.takeErase]
  repeat' split
  all_goals with_reducible repeat' (first | exact hb | apply Device.beginBlankHeader_ord | apply Device.beginErase_ord | apply Device.takeVictim_ord)

theorem Device.takeRepair_ord (c : Ctx) (d : Device) (hb : d.ordered) :
    (Device.takeRepair c d).ordered := by
  dsimp only [Device.takeRepair]
  repeat' split
  all_goals with_reducible repeat' (first | exact hb | apply Device.mapReclaim_ord | apply Device.takeErase_ord | apply Device.beginRepair_ord)

theorem Device.takeWork_ord (c : Ctx) (d : Device) (hb : d.ordered) :
    (Device.takeWork c d).ordered := by
  dsimp only [Device.takeWork]
  repeat' split
  all_goals with_reducible repeat' (first | exact hb | apply Device.resumeVictim_ord | apply Device.takeMap_ord | apply Device.takeRepair_ord)

theorem Device.reclaimProgrammed_ord (c : Ctx) (d : Device) (o : ProgramOutcome) (hb : d.ordered) :
    (Device.reclaimProgrammed c d o).ordered := by
  dsimp only [Device.reclaimProgrammed]
  repeat' split
  all_goals with_reducible repeat' (first | exact hb | apply Device.eraseHeaderDone_ord | apply Device.blankHeaderDone_ord | apply Device.retireOutcome_ord | apply Device.reclaimOpened_ord | apply Device.reclaimLine_ord)

theorem Device.reclaimRead_ord (c : Ctx) (d : Device) (lines : List Line) (hb : d.ordered) :
    (Device.reclaimRead c d lines).ordered := by
  dsimp only [Device.reclaimRead]
  repeat' split
  all_goals with_reducible repeat' (first | exact hb | apply Device.planned_ord | apply Device.copyReadDone_ord)

theorem Device.reclaimErased_ord (c : Ctx) (d : Device) (ok : Bool) (hb : d.ordered) :
    (Device.reclaimErased c d ok).ordered := by
  dsimp only [Device.reclaimErased]
  repeat' split
  all_goals with_reducible repeat' (first | exact hb | apply Device.eraseDone_ord)

/-! ## Settle.lean -/

theorem Device.refuseWaiting_ord (c : Ctx) (d : Device) (hb : d.ordered) :
    (Device.refuseWaiting c d).ordered := by
  dsimp only [Device.refuseWaiting]
  repeat' split
  all_goals with_reducible repeat' (first | exact hb | apply Device.commandRefused_ord | apply Device.reclaimRefused_ord | apply Device.stopMount_ord | apply (Device.mk_ord ..).mpr)

theorem Device.wakeReclaim_ord (c : Ctx) (d : Device) (hb : d.ordered) :
    (Device.wakeReclaim c d).ordered := by
  dsimp only [Device.wakeReclaim]
  repeat' split
  all_goals with_reducible repeat' (first | exact hb | apply Device.reclaimPlace_ord)

theorem Device.wakeCommand_ord (c : Ctx) (d : Device) (hb : d.ordered) :
    (Device.wakeCommand c d).ordered := by
  dsimp only [Device.wakeCommand]
  repeat' split
  all_goals with_reducible repeat' (first | exact hb | apply Device.commandPlace_ord | apply Device.startRaiseLock_ord | apply Device.formatWaits_ord)

theorem Device.settle_ord (c : Ctx) (d : Device) (hb : d.ordered) :
    (Device.settle c d).ordered := by
  dsimp only [Device.settle]
  all_goals with_reducible repeat' (first | exact hb | apply Device.refuseWaiting_ord | apply Device.wakeReclaim_ord | apply Device.wakeCommand_ord | apply Device.arbitrate_ord)

theorem Device.commandProgrammed_ord (c : Ctx) (d : Device) (o : ProgramOutcome) (hb : d.ordered) :
    (Device.commandProgrammed c d o).ordered := by
  dsimp only [Device.commandProgrammed]
  repeat' split
  all_goals with_reducible repeat' (first | exact hb | apply Device.commandOpened_ord | apply Device.commandLine_ord | apply Device.formatHeadered_ord)

theorem Device.commandErased_ord (c : Ctx) (d : Device) (ok : Bool) (hb : d.ordered) :
    (Device.commandErased c d ok).ordered := by
  dsimp only [Device.commandErased]
  repeat' split
  all_goals with_reducible repeat' (first | exact hb | apply Device.formatErased_ord)

theorem Device.programmed_ord (c : Ctx) (d : Device) (who : Requester) (o : ProgramOutcome) (hb : d.ordered) :
    (Device.programmed c d who o).ordered := by
  dsimp only [Device.programmed]
  repeat' split
  all_goals with_reducible repeat' (first | exact hb | apply Device.commandProgrammed_ord | apply Device.reclaimProgrammed_ord)

theorem Device.readLines_ord (c : Ctx) (d : Device) (who : Requester) (lines : List Line) (hb : d.ordered) :
    (Device.readLines c d who lines).ordered := by
  dsimp only [Device.readLines]
  repeat' split
  all_goals with_reducible repeat' (first | exact hb | apply Device.commandRead_ord | apply Device.reclaimRead_ord | apply Device.mountRead_ord)

theorem Device.erased_ord (c : Ctx) (d : Device) (who : Requester) (ok : Bool) (hb : d.ordered) :
    (Device.erased c d who ok).ordered := by
  dsimp only [Device.erased]
  repeat' split
  all_goals with_reducible repeat' (first | exact hb | apply Device.commandErased_ord | apply Device.reclaimErased_ord)

/-! ## Power.lean -/

theorem Device.endOpenGroup_ord (d : Device) (hb : d.ordered) :
    (Device.endOpenGroup d).ordered := by
  dsimp only [Device.endOpenGroup]
  repeat' split
  all_goals with_reducible repeat' (first | exact hb | apply Device.mapGroup_ord | apply Device.endGroup_ord)

theorem Device.expireOrHold_ord (d : Device) (hb : d.ordered) :
    (Device.expireOrHold d).ordered := by
  dsimp only [Device.expireOrHold]
  repeat' split
  all_goals with_reducible repeat' (first | exact hb | apply Device.expireGroup_ord)

theorem Device.tickGroup_ord (d : Device) (hb : d.ordered) :
    (Device.tickGroup d).ordered := by
  dsimp only [Device.tickGroup]
  repeat' split
  all_goals with_reducible repeat' (first | exact hb | apply Device.mapGroup_ord | apply Device.expireOrHold_ord)

theorem Device.warnCommand_ord (d : Device) (hb : d.ordered) :
    (Device.warnCommand d).ordered := by
  dsimp only [Device.warnCommand]
  repeat' split
  all_goals with_reducible repeat' (first | exact hb | apply Device.commandPowerEnd_ord | apply Device.answerReclaim_ord | apply Device.formatPowerEnd_ord)

theorem Device.abandonErase_ord (d : Device) (hb : d.ordered) :
    (Device.abandonErase d).ordered := by
  dsimp only [Device.abandonErase]
  repeat' split
  all_goals with_reducible repeat' (first | exact hb | apply Device.reclaimRefused_ord | apply Device.commandPowerEnd_ord | apply (Device.mk_ord ..).mpr)

theorem Device.warn_ord (d : Device) (hb : d.ordered) :
    (Device.warn d).ordered := by
  dsimp only [Device.warn]
  all_goals with_reducible repeat' (first | exact hb | apply Device.endOpenGroup_ord | apply Device.abandonErase_ord | apply Device.warnCommand_ord | apply (Device.mk_ord ..).mpr)

theorem Device.warnBetween_ord (g : Configuration) (d : Device) (hb : d.ordered) : (Device.warnBetween g d).ordered :=
  Device.makeStep_ord _ _ (Device.warn_ord _ (Device.takeHead_ord _ _ hb))

theorem Device.recover_ord (d : Device) (hb : d.ordered) :
    (Device.recover d).ordered := by
  dsimp only [Device.recover]
  repeat' split
  all_goals with_reducible repeat' (first | exact hb | apply Device.beginMount_ord | apply (Device.mk_ord ..).mpr)

end Sys2Proof.Machine
end

