-- ==== Sys2Proof/Laws/Rest.lean ====
section
/-! SUPPORT. The end of a step (`Device.settle`): it changes nothing in a device with nothing waiting, and grants the one request that
waits at a free Flash Controller (R13, R15). And what the Command Engine's take-up can do (R74, R184). -/
namespace Sys2Proof.Machine
open Sys2Proof

/-- No engine is in a wait that the end of the step could end. -/
structure Device.NoWake (c : Ctx) (d : Device) : Prop where
  reclaim : d.wakeReclaim c = d
  command : d.wakeCommand c = d

theorem Device.wakeReclaim_of_noWait (c : Ctx) (d : Device)
    (h : ∀ w, d.reclaim.job.writer = some w → w.stage ≠ .waitOpen) : d.wakeReclaim c = d := by
  unfold Device.wakeReclaim
  split
  · rename_i w hw
    split
    · exact absurd (by assumption) (h w hw)
    · rfl
  · rfl

theorem Device.wakeCommand_of_idle (c : Ctx) (d : Device) (h : d.ex = none) : d.wakeCommand c = d := by
  unfold Device.wakeCommand
  rw [h]

theorem Device.wakeCommand_of_steady (c : Ctx) (d : Device) {x : Executing} (h : d.ex = some x) (hs : x.stage.steady = true) :
    d.wakeCommand c = d := by
  unfold Device.wakeCommand
  rw [h]
  dsimp only
  unfold Stage.steady at hs
  split
  · rename_i w hw
    rw [hw] at hs
    split <;> simp_all
  · simp_all
  · simp_all
  · rfl

theorem Device.refuseWaiting_of_none (c : Ctx) (d : Device) (hc : d.fc.waitCommand = none) (hr : d.fc.waitReclaim = none)
    (hm : d.fc.waitMount = none) : d.refuseWaiting c = d := by
  unfold Device.refuseWaiting
  split <;> simp [hc, hr, hm]

theorem Device.refuseWaiting_of_normal (c : Ctx) (d : Device) (h : c.warning = false) : d.refuseWaiting c = d := by
  unfold Device.refuseWaiting
  simp [h]

theorem Device.decideSuspension_of_none (c : Ctx) (d : Device) (h : d.fc.waitCommand = none ∨ d.fc.erase = none) :
    d.decideSuspension c = d := by
  unfold Device.decideSuspension
  split
  · simp_all
  · rfl

theorem Device.nextGrant_of_none (d : Device) (hc : d.fc.waitCommand = none) (hr : d.fc.waitReclaim = none)
    (hm : d.fc.waitMount = none) : d.nextGrant = none := by
  unfold Device.nextGrant
  simp [hc, hr, hm]

theorem Device.nextGrant_of_busy (d : Device) (h : d.fc.op ≠ none) : d.nextGrant = none := by
  have hg (who : Requester) (r : Request) : d.grantable who r = false := by
    unfold Device.grantable
    cases ho : d.fc.op with
    | none => exact absurd ho h
    | some _ => simp
  unfold Device.nextGrant
  cases d.fc.waitCommand <;> cases d.fc.waitReclaim <;> cases d.fc.waitMount <;> simp [hg, Option.filter]

theorem Device.grantAll_of_none (c : Ctx) (n : Nat) (d : Device) (hd : d.decideSuspension c = d) (h : d.nextGrant = none) :
    Device.grantAll c n d = d := by
  cases n with
  | zero => rfl
  | succ n => unfold Device.grantAll; rw [hd, h]

theorem Device.resumeErase_of_noErase (d : Device) (h : d.fc.erase = none) : d.resumeErase = d := by
  unfold Device.resumeErase
  rw [h]

theorem Device.resumeErase_of_busy (d : Device) (h : d.fc.op ≠ none) : d.resumeErase = d := by
  unfold Device.resumeErase
  split <;> simp_all

/-- Nothing waits: the end of the step changes nothing. -/
theorem Device.settle_atRest (c : Ctx) (d : Device) (h : d.AtRest) : d.settle c = d := by
  obtain ⟨hc, hr, hm, hs, hwr, he⟩ := h
  have hw : d.wakeCommand c = d := by
    cases hx : d.ex with
    | none => exact Device.wakeCommand_of_idle c d hx
    | some x => exact Device.wakeCommand_of_steady c d hx (hs x hx)
  have hres : d.resumeErase = d := by
    unfold Device.resumeErase
    split
    · rfl
    · rename_i e h1 h2 _
      cases hs : e.suspended with
      | true => exact absurd h2 (he e h1 hs)
      | false =>
        have h3 : ({ e with suspended := false } : EraseOp) = e := by rw [← hs]
        rw [h3, ← h1]
    · rfl
  unfold Device.settle
  rw [Device.refuseWaiting_of_none c d hc hr hm, Device.wakeReclaim_of_noWait c d hwr, hw,
    Device.refuseWaiting_of_none c d hc hr hm]
  unfold Device.arbitrate
  split
  · rfl
  · rw [hres]
    exact Device.grantAll_of_none c 3 d (Device.decideSuspension_of_none c d (.inl hc)) (Device.nextGrant_of_none d hc hr hm)

/-- The one request that waits at a free controller is granted. -/
theorem Device.settle_grants (c : Ctx) (d : Device) (who : Requester) (r : Request) (hw : c.warning = false)
    (hk : d.NoWake c) (he : d.fc.erase = none)
    (hg : d.nextGrant = some (who, r)) (hn : (d.grantRequest who r).nextGrant = none)
    (hd : (d.grantRequest who r).decideSuspension c = d.grantRequest who r) :
    d.settle c = d.grantRequest who r := by
  unfold Device.settle
  rw [Device.refuseWaiting_of_normal c d hw, hk.reclaim, hk.command, Device.refuseWaiting_of_normal c d hw]
  unfold Device.arbitrate
  rw [hw, Device.resumeErase_of_noErase d he]
  simp only [Bool.false_eq_true, if_false]
  unfold Device.grantAll
  rw [Device.decideSuspension_of_none c d (.inr he), hg]
  exact Device.grantAll_of_none c 2 _ hd hn

/-- A controller with one request waiting, of the Command Engine. -/
structure FlashController.OneCommand (fc : FlashController) (r : Request) : Prop where
  op : fc.op = none
  erase : fc.erase = none
  command : fc.waitCommand = some r
  reclaim : fc.waitReclaim = none
  mount : fc.waitMount = none

/-- A controller with one request waiting, of the Reclaim Engine. -/
structure FlashController.OneReclaim (fc : FlashController) (r : Request) : Prop where
  op : fc.op = none
  erase : fc.erase = none
  command : fc.waitCommand = none
  reclaim : fc.waitReclaim = some r
  mount : fc.waitMount = none

/-- A controller with one request waiting, of the Mount Unit. -/
structure FlashController.OneMount (fc : FlashController) (r : Request) : Prop where
  op : fc.op = none
  erase : fc.erase = none
  command : fc.waitCommand = none
  reclaim : fc.waitReclaim = none
  mount : fc.waitMount = some r

theorem Device.noteFormatGrant_fc (d : Device) (who : Requester) : (d.noteFormatGrant who).fc = d.fc := by
  unfold Device.noteFormatGrant
  split <;> rfl

theorem Device.settle_oneCommand (c : Ctx) (d : Device) (r : Request) (hw : c.warning = false) (hk : d.NoWake c)
    (h : d.fc.OneCommand r) : d.settle c = d.grantRequest .command r := by
  obtain ⟨ho, he, hc, hr, hm⟩ := h
  have hg : d.grantable .command r = true := by simp [Device.grantable, ho, he]
  have hfc (e : Device) (hf : e.fc = d.fc.grant .command r) : e.fc.waitCommand = none ∧ e.fc.waitReclaim = none ∧
      e.fc.waitMount = none := by
    rw [hf]
    cases r <;> simp [FlashController.grant, FlashController.unwait, hr, hm]
  have hf : (d.grantRequest .command r).fc = d.fc.grant .command r := Device.noteFormatGrant_fc _ _
  obtain ⟨h1, h2, h3⟩ := hfc _ hf
  refine Device.settle_grants c d .command r hw hk he ?_ ?_ ?_
  · unfold Device.nextGrant
    rw [hc, hr]
    simp [Option.filter, hg]
  · exact Device.nextGrant_of_none _ h1 h2 h3
  · exact Device.decideSuspension_of_none c _ (.inl h1)

theorem Device.settle_oneReclaim (c : Ctx) (d : Device) (r : Request) (hw : c.warning = false) (hk : d.NoWake c)
    (h : d.fc.OneReclaim r) : d.settle c = d.grantRequest .reclaim r := by
  obtain ⟨ho, he, hc, hr, hm⟩ := h
  have hg : d.grantable .reclaim r = true := by simp [Device.grantable, ho, he]
  have hf : (d.grantRequest .reclaim r).fc = d.fc.grant .reclaim r := Device.noteFormatGrant_fc _ _
  have h123 : (d.grantRequest .reclaim r).fc.waitCommand = none ∧ (d.grantRequest .reclaim r).fc.waitReclaim = none ∧
      (d.grantRequest .reclaim r).fc.waitMount = none := by
    rw [hf]
    cases r <;> simp [FlashController.grant, FlashController.unwait, hc, hm]
  obtain ⟨h1, h2, h3⟩ := h123
  refine Device.settle_grants c d .reclaim r hw hk he ?_ ?_ ?_
  · unfold Device.nextGrant
    rw [hc, hr]
    simp [Option.filter, hg]
  · exact Device.nextGrant_of_none _ h1 h2 h3
  · exact Device.decideSuspension_of_none c _ (.inl h1)

theorem Device.settle_oneMount (c : Ctx) (d : Device) (r : Request) (hw : c.warning = false) (hk : d.NoWake c)
    (h : d.fc.OneMount r) : d.settle c = d.grantRequest .mount r := by
  obtain ⟨ho, he, hc, hr, hm⟩ := h
  have hf : (d.grantRequest .mount r).fc = d.fc.grant .mount r := Device.noteFormatGrant_fc _ _
  have hg : d.grantable .mount r = true := by
    cases r with
    | read b f n => simp [Device.grantable, ho, he]
    | program b l x => simp [Device.grantable, ho, he]
    | erase b => simp [Device.grantable, ho, he]
  have h123 : (d.grantRequest .mount r).fc.waitCommand = none ∧ (d.grantRequest .mount r).fc.waitReclaim = none ∧
      (d.grantRequest .mount r).fc.waitMount = none := by
    rw [hf]
    cases r <;> simp [FlashController.grant, FlashController.unwait, hc, hr]
  obtain ⟨h1, h2, h3⟩ := h123
  refine Device.settle_grants c d .mount r hw hk he ?_ ?_ ?_
  · unfold Device.nextGrant
    rw [hc, hr, hm]
    simp [Option.filter, hg]
  · exact Device.nextGrant_of_none _ h1 h2 h3
  · exact Device.decideSuspension_of_none c _ (.inl h1)

/-! ## Taking a command -/

/-- Nothing to take. -/
theorem Device.takeHead_none (c : Ctx) (d : Device) (h : d.ex ≠ none ∨ d.queue = [] ∨ d.store = .mounting) : d.takeHead c = d := by
  unfold Device.takeHead
  split
  · rename_i p rest hx hq
    exact if_pos (by simpa [hx, hq] using h)
  · rfl

/-- The head command meets the general checks; one that passes them is taken, a COMMIT_GROUP with its group COMMITTING. -/
theorem Device.takeHead_head (c : Ctx) (d : Device) {p : Posted} {rest : List Posted} (hx : d.ex = none) (hq : d.queue = p :: rest)
    (hm : d.store ≠ .mounting) :
    d.takeHead c =
      match firstRefusal (d.generalChecks c p.code) with
      | some status => ({ d with queue := rest, ex := some (d.taken c p) } : Device).endCommand status 0
      | none => ({ d with queue := rest, ex := some (d.taken c p) } : Device).closeGroup p.code := by
  unfold Device.takeHead
  simp only [hx, hq]
  rw [if_neg hm]
  rfl

/-- A taken command makes its step. -/
theorem Device.makeStep_taken (c : Ctx) (d : Device) {x : Executing} {t : Taken} (hx : d.ex = some x) (hs : x.stage = .checking t) :
    d.makeStep c = d.startCommand c x t := by
  unfold Device.makeStep
  simp only [hx, hs]

/-- No step is to come where no command was taken, or the executing one has made its step. -/
theorem Device.makeStep_steady (c : Ctx) (d : Device) (h : ∀ x, d.ex = some x → ∀ t, x.stage ≠ .checking t) : d.makeStep c = d := by
  unfold Device.makeStep
  split
  · rfl
  · rename_i x hx
    split
    · rename_i t hs
      exact absurd hs (h x hx t)
    · rfl

end Sys2Proof.Machine
end

