-- ==== Sys2Proof/Laws/Walk.lean ====
section
/-! SUPPORT. What the copy walk can do at a record (R139): one equation, so that no proof unfolds the walk. -/
namespace Sys2Proof.Machine
open Sys2Proof
/-- The walk reads of its victim only what the cursor leaves alone: the bank and the plan's counts (R139, R143). -/
theorem Device.walkOn_cursor (v : Victim) (n : Nat) (rs : List WalkRecord) (d : Device) :
    Device.walkOn { v with cursor := n } rs d = Device.walkOn v rs d := by
  induction rs generalizing d with
  | nil => rfl
  | cons r rs ih =>
    have h : d.decide { v with cursor := n } r = d.decide v r := rfl
    simp only [Device.walkOn, h, ih]
    cases d.decide v r <;> rfl

/-- The walk of a device whose cursor has moved past a record (R139). -/
theorem Device.walk_advanceCursor {d : Device} {v : Victim} (h : d.reclaim.victim = some v) :
    d.advanceCursor.walk = Device.walkOn v (v.walk.drop (v.cursor + 1)) d.advanceCursor := by
  have hv : d.advanceCursor.reclaim.victim = some { v with cursor := v.cursor + 1 } := by
    simp [Device.advanceCursor, Device.mapVictim, h]
  rw [Device.walk, hv]
  exact Device.walkOn_cursor v _ _ _

/-- The walk at a record: what R139 decides for it comes first. -/
theorem Device.walk_at {d : Device} {v : Victim} {r : WalkRecord} (h : d.reclaim.victim = some v) (hr : v.walk[v.cursor]? = some r) :
    d.walk = match d.decide v r with
      | .copy owner => d.beginCopyRead v r owner
      | .pass => d.advanceCursor.walk
      | .entryLoses => (d.entryUnlocated r.header.key).advanceCursor.walk
      | .memberLoses => (d.memberUnlocated r.header.key).advanceCursor.walk := by
  obtain ⟨hlt, rfl⟩ := List.getElem?_eq_some_iff.mp hr
  have he : (d.entryUnlocated v.walk[v.cursor].header.key).reclaim.victim = some v := by
    rw [← h]; simp only [Device.entryUnlocated]; split <;> rfl
  have hm : (d.memberUnlocated v.walk[v.cursor].header.key).reclaim.victim = some v := h
  rw [Device.walk_advanceCursor h, Device.walk_advanceCursor he, Device.walk_advanceCursor hm]
  simp only [Device.walk, h]
  rw [List.drop_eq_getElem_cons hlt]
  rfl
end Sys2Proof.Machine
end

