-- ==== Sys2Proof/Tests/Slice0.lean ====
section
/-! SUPPORT. Tests on small states: operands that the well-formedness check refuses, one step of each command with the result the manual
gives, and for each statement with hypotheses a state and operands that meet them together. -/
namespace Sys2Proof.Tests
-- `decide +kernel` waits for the kernel: one theorem at a time keeps the waiting threads few.
set_option Elab.async false
open Sys2Proof Sys2Proof.Machine

/-! ## Ill-formed operands are refused -/

/-- The SCK edges that carry these bytes to the device, from idle LOW or HIGH (R188). -/
def clocked (idleHigh : Bool) (bytes : List Byte) : List SckEdge :=
  ((bytes.map bitsOut).flatten.map fun b => if idleHigh then [SckEdge.falls, .rises b] else [.rises b, .falls]).flatten

/-- An entry to WARNING that abandons nothing and comes between no command's taking and step. -/
def noEntry : WarningEntry := { erase := [], between := false }

/-- A cut that leaves everything as intended. -/
def cutNone : CutShort := { line := .asIntended, erase := [] }

/-- R188: SCK edges alternate, the first of them away from the idle level. -/
theorem test_wf_edges_alternate :
    (Instr.frame false [.falls]).wellFormed = false ∧ (Instr.frame true [.rises true]).wellFormed = false ∧
    (Instr.frameEnd [.rises true, .rises true]).wellFormed = false ∧ (Instr.frame true (clocked true [0xA5])).wellFormed = true ∧
    (Instr.frame false (clocked false [0xA5, 0x10])).wellFormed = true := by decide +kernel

/-- R189, R192: whole header bytes in FRAME, and fewer than eight bits of a partial byte in FRAME_END. -/
theorem test_wf_bit_counts :
    (Instr.frame false (clocked false [1, 2, 3])).wellFormed = false ∧ (Instr.frame false [.rises true, .falls]).wellFormed = false ∧
    (Instr.frameEnd (clocked false [0])).wellFormed = false ∧ (Instr.frameEnd ((clocked false [0]).take 14)).wellFormed = true := by
  decide +kernel

/-- R194, section 11.6: configuration registers are 0x40 to 0x46. -/
theorem test_wf_configuration_address :
    (Instr.configurationWrite 0x3F 0 noEntry).wellFormed = false ∧ (Instr.configurationWrite 0x47 0 noEntry).wellFormed = false ∧
    (Instr.configurationWrite 0x40 0 noEntry).wellFormed = true ∧ (Instr.configurationWrite 0x46 0 noEntry).wellFormed = true := by decide

/-- Section 11.6: a write to an address with a row of its own is that row's. -/
theorem test_wf_register_address :
    (Instr.registerWrite 0x18 0).wellFormed = false ∧ (Instr.registerWrite 0x2F 0).wellFormed = false ∧
    (Instr.registerWrite 0x43 0).wellFormed = false ∧ (Instr.registerWrite 0x7F 0).wellFormed = false ∧
    (Instr.registerWrite 0x20 0).wellFormed = true ∧ (Instr.registerWrite 0x7E 0).wellFormed = true := by decide

/-- R8: remains list rising lines. -/
theorem test_wf_remains_rising :
    (Instr.bankEraseOutcome [(5, .earlier), (5, .earlier)]).wellFormed = false ∧
    (Instr.bankEraseOutcome [(5, .earlier), (4, .earlier)]).wellFormed = false ∧
    (Instr.bankEraseOutcome [(4, .earlier), (127, .earlier)]).wellFormed = true := by decide

/-- R8: no listed line reads erased. -/
theorem test_wf_remains_erased :
    (Instr.bankEraseOutcome [(5, .other erasedBytes)]).wellFormed = false ∧
    (Instr.powerWarning (.pfw false) { cutNone with erase := [(5, .other erasedBytes)] }).wellFormed = false ∧
    (Instr.powerWarningDeasserted { millivolts := 1500, cut := { cutNone with erase := [(5, .other erasedBytes)] } }).wellFormed = false ∧
    (Instr.configurationWrite 0x46 3 { erase := [(5, .other erasedBytes)], between := true }).wellFormed = false ∧
    (Instr.powerOnReset { cutNone with erase := [(5, .other erasedBytes)] } false 3300).wellFormed = false ∧
    (Instr.pinReset (.pulse 1000) { cutNone with erase := [(5, .other erasedBytes)] }).wellFormed = false ∧
    (Instr.pinReset .rises { cutNone with erase := [(5, .other erasedBytes)] }).wellFormed = false := by decide

/-- R22: a payload line lies in lines 4 to 126. -/
theorem test_wf_payload_line :
    (Instr.payloadDecay 0 2 0 erasedBytes).wellFormed = false ∧ (Instr.payloadDecay 0 126 0 erasedBytes).wellFormed = false ∧
    (Instr.payloadDecay 0 3 0 erasedBytes).wellFormed = true ∧ (Instr.payloadDecay 0 125 0 erasedBytes).wellFormed = true := by decide

/-! ## Small states -/

/-- The state that a command's next step gives. -/
def after (i : Instr) (s : State) : State :=
  match exec i s with
  | .next t => t
  | _ => s

/-- A write frame at an address. -/
def writing (a : Addr) (s : State) : State := { s with port := { s.port with frame := some .writing, pointer := a } }

/-- A read frame at an address. -/
def reading (a : Addr) (s : State) : State := { s with port := { s.port with frame := some .reading, pointer := a } }

/-- Bank 0 ACTIVE with these lines used, and every other bank FREE with erase count 1. -/
def banksWith (used : Nat) : Vector BankEntry 32 :=
  (Vector.replicate 32 { BankEntry.initial with state := .free, eraseCount := some 1 }).set 0
    { BankEntry.initial with state := .active, epoch := some 1, eraseCount := some 1, used := used }

/-- A READY store with nothing in it and nothing in progress. -/
def base : State :=
  { State.reset with dev := { Device.initial with store := .ready, generation := some 1, banks := banksWith 0 } }

/-- The state with its device changed. -/
def onDev (f : Device → Device) (s : State) : State := { s with dev := f s.dev }

/-- One command at the head of the queue. -/
def head (c : CommandCode) (q : Descriptor) (s : State) : State := onDev (fun d => { d with queue := [{ code := c, desc := q }] }) s

/-- A PLAIN record of key 1 and a COUNTER record of key 2 with value 7. -/
def recA : RecordSpec := { key := 1, kind := .data, cls := .plain, payload := [1, 2, 3, 4, 5], gid := none }
def recB : RecordSpec := { key := 2, kind := .data, cls := .counter, payload := [0, 0, 0, 0, 0, 0, 0, 7], gid := none }

/-- A record of three lines in the array. -/
def placed (b : BankId) (line seq : Nat) (r : RecordSpec) (f : Flash) : Flash :=
  ((f.setLine b line (r.line seq 0)).setLine b (line + 1) (r.line seq 1)).setLine b (line + 2) (r.line seq 2)

/-- The two records stored in bank 0, with their entries. -/
def stored : State :=
  { base with
    flash := placed 0 6 2 recB (placed 0 3 1 recA [])
    dev := { base.dev with
      banks := banksWith 6
      nextSeq := 3
      dir :=
        [{ key := 1, cls := .plain, state := .live, loc := some { bank := 0, line := 3 }, length := 5, seq := 1, base := 1, stale := 0
           copies := 0 },
         { key := 2, cls := .counter, state := .live, loc := some { bank := 0, line := 6 }, length := 8, seq := 2, base := 2, stale := 0
           copies := 0 }] } }

/-- What the engine takes with a command that has no payload, and a stage to be replaced. -/
def took : Taken := { payload := [], timeout := 200 }
def fresh : Stage := .checking took

/-- The executing command at a stage, its descriptor for key 1 and buffer 0. -/
def executing (c : CommandCode) (stage : Stage) : Executing :=
  { code := c, desc := { key := 1, length := 5, argument := 1, tag := 9 }, detached := false, member := false, stage := stage, format := none }

/-- A command executing at a stage with a flash operation in progress. -/
def busy (x : Executing) (op : Request) (s : State) : State :=
  onDev (fun d => { d with ex := some x, fc := { op := some (.command, op) } }) s

/-- The reservation of line 9 of bank 0, at line `k` of its record. -/
def span9 (k : Nat) : Reservation := { bank := 0, line := 9, seq := 3, at_ := k }

/-- A command whose record is reserved at line 9 of bank 0 and whose line `k` is being programmed. -/
def programming (x : Executing) (record : RecordSpec) (k : Nat) : State :=
  busy { x with stage := .writing (writerAt record (.programming (span9 k))) } (.program 0 (9 + k) (record.line 3 k))
    (onDev (fun d => { d with banks := banksWith 9, nextSeq := 4 }) stored)

/-- An OPEN group with a member for key 5 in bank 0. -/
def group : GroupContext :=
  { id := 1, state := .opened, deadline := none, endsWithMember := false, records := [{ bank := 0, line := 3 }]
    members :=
      [{ key := 5, cls := .plain, state := .live, length := 5, seq := 2, loc := some { bank := 0, line := 3 }, staleIncrement := 0 }] }

/-- The state with a group context. -/
def inGroup (g : GroupContext) (s : State) : State := onDev (fun d => { d with group := some g }) s

/-- The Reclaim Engine at a job with a flash operation in progress. -/
def reclaiming (r : Reclaim) (op : Option Request) (s : State) : State :=
  onDev (fun d => { d with reclaim := r, fc := { op := op.map fun o => (.reclaim, o) } }) s

/-- Bank 3 as a victim whose walk holds one record. -/
def victim : Victim :=
  { bank := 3, point := .copying, cursor := 0, lower := [], grouped := [], forRequest := false, committedSince := []
    walk := [{ line := 3, header := recA.header 1, verdict := .valid }] }

/-- One bank's entry changed. -/
def withBank (b : BankId) (e : BankEntry) (s : State) : State := onDev (fun d => d.setBank b e) s

/-- A FULL bank with these dead lines. -/
def fullBank (dead : Nat) : BankEntry :=
  { BankEntry.initial with state := .full, epoch := some 1, eraseCount := some 1, used := 125, dead := dead }

/-- Every bank FULL and without dead lines. -/
def allFull (s : State) : State := onDev (fun d => { d with banks := Vector.replicate 32 (fullBank 0) }) s

/-- The condition WARNING with PFW# LOW. -/
def warned (s : State) : State := { s with power := { s.power with warning := true, pfwLow := true } }

/-! ## The premises of the statements, decided -/

def steadyB (r : Reclaim) : Bool :=
  match r.job.writer with
  | some w => w.stage ≠ .waitOpen
  | none => true

theorem steady_of {r : Reclaim} (h : steadyB r = true) : r.steady := by
  intro w hw hs
  simp [steadyB, hw, hs] at h

def commandB (d : Device) : Bool :=
  match d.ex with
  | some x => x.stage.steady
  | none => true

theorem command_of {d : Device} (h : commandB d = true) : ∀ x, d.ex = some x → x.stage.steady = true := by
  intro x hx
  simpa [commandB, hx] using h

theorem steadyDevice_of {d : Device} (h : (commandB d && steadyB d.reclaim) = true) : d.Steady := by
  simp only [Bool.and_eq_true] at h
  exact ⟨command_of h.1, steady_of h.2⟩

theorem free_of {fc : FlashController} (h : fc.op = none ∧ fc.erase = none ∧ fc.waitCommand = none ∧ fc.waitReclaim = none ∧
    fc.waitMount = none ∧ fc.decided = none) : fc.Free := ⟨h.1, h.2.1, h.2.2.1, h.2.2.2.1, h.2.2.2.2.1, h.2.2.2.2.2⟩

theorem alone_of {fc : FlashController} {who : Requester} {r : Request} (h : fc.op = some (who, r) ∧ fc.erase = none ∧
    fc.waitCommand = none ∧ fc.waitReclaim = none ∧ fc.waitMount = none ∧ fc.decided = none) : fc.Alone who r :=
  ⟨h.1, h.2.1, h.2.2.1, h.2.2.2.1, h.2.2.2.2.1, h.2.2.2.2.2⟩

def eraseB (d : Device) : Bool :=
  match d.fc.erase with
  | some e => !e.suspended || d.fc.op.isSome
  | none => true

theorem rest_of {d : Device} (h : (commandB d && steadyB d.reclaim && eraseB d && d.fc.waitCommand.isNone && d.fc.waitReclaim.isNone &&
    d.fc.waitMount.isNone) = true) : d.AtRest := by
  simp only [Bool.and_eq_true, Option.isNone_iff_eq_none] at h
  obtain ⟨⟨⟨⟨⟨h1, h2⟩, h3⟩, h4⟩, h5⟩, h6⟩ := h
  refine ⟨h4, h5, h6, command_of h1, steady_of h2, ?_⟩
  intro e he hs hn
  simp [eraseB, he, hs, hn] at h3

def groupB (d : Device) : Bool :=
  match d.group with
  | none => true
  | some g =>
    (g.state ≠ .committing || d.ex.any fun x => x.code = .commitGroup) &&
      (g.state ≠ .opened || !(g.endsWithMember || g.deadline = some 0) || d.ex.any fun x => x.member)

theorem group_of {d : Device} (h : groupB d = true) : d.groupLaw := by
  intro g hg
  simp only [groupB, hg, Bool.and_eq_true, Bool.or_eq_true, Bool.not_eq_true', decide_eq_true_eq] at h
  refine ⟨fun hc => h.1.resolve_left fun hn => hn hc, fun ho he => (h.2.resolve_left fun hn => hn.elim (fun hn => hn ho) fun hn => ?_)⟩
  rcases he with he | he <;> simp [he] at hn

def turnB (s : State) (p : Posted) : Bool :=
  s.dev.ex.isNone &&
    (s.dev.store = .ready || (s.dev.store = .degraded && !p.code.readOnlyRefused) || (s.dev.store = .blank && p.code = .format)) &&
    !s.power.warning && steadyB s.dev.reclaim && groupB s.dev

theorem turn_of {s : State} {p : Posted} {rest : List Posted} (h : turnB s p = true) (hq : s.dev.queue = p :: rest) : s.Turn p rest := by
  simp only [turnB, Bool.and_eq_true, Bool.or_eq_true, Bool.not_eq_true', decide_eq_true_eq, Option.isNone_iff_eq_none] at h
  obtain ⟨⟨⟨⟨h1, h2⟩, h3⟩, h4⟩, h5⟩ := h
  exact ⟨h1, hq, or_assoc.mp h2, h3, steady_of h4, group_of h5⟩

theorem ready_of {s : State} {p : Posted} {rest : List Posted} (h : turnB s p = true) (hq : s.dev.queue = p :: rest)
    (hf : s.dev.fc.op = none ∧ s.dev.fc.erase = none ∧ s.dev.fc.waitCommand = none ∧ s.dev.fc.waitReclaim = none ∧
      s.dev.fc.waitMount = none ∧ s.dev.fc.decided = none) : s.Ready p rest := ⟨turn_of h hq, free_of hf⟩

/-- What `State.MeetsWarning` asks of a state and its head command. -/
def meetsB (s : State) (p : Posted) : Bool :=
  turnB s p && commandB s.dev && eraseB s.dev && s.dev.fc.waitCommand.isNone && s.dev.fc.waitReclaim.isNone &&
    s.dev.fc.waitMount.isNone && s.dev.fc.decided.isNone && s.dev.fc.erase.all (fun e => e.requester ≠ .command) &&
    decide (1600 ≤ s.power.vdd)

theorem meets_of {s : State} {p : Posted} {rest : List Posted} (h : meetsB s p = true) (hq : s.dev.queue = p :: rest) :
    s.MeetsWarning p rest := by
  simp only [meetsB, Bool.and_eq_true, Option.isNone_iff_eq_none, decide_eq_true_eq] at h
  obtain ⟨⟨⟨⟨⟨⟨⟨⟨h1, h2⟩, h3⟩, h4⟩, h5⟩, h6⟩, h7⟩, h8⟩, h9⟩ := h
  have hs : steadyB s.dev.reclaim = true := by
    simp only [turnB, Bool.and_eq_true] at h1
    exact h1.1.2
  refine ⟨turn_of h1 hq, rest_of (by simp [h2, hs, h3, h4, h5, h6]), h7, ?_, h9⟩
  intro e he
  simpa [he] using h8

theorem programming_of (x : Executing) (record : RecordSpec) (k : Nat) (hk : (programming x record k).flash.line 0 (9 + k) = Line.erased)
    (hx : x.format = none) :
    (programming x record k).Programming { x with stage := .writing (writerAt record (.programming (span9 k))) }
      (writerAt record (.programming (span9 k))) (span9 k) :=
  ⟨rfl, hx, rfl, rfl, alone_of ⟨rfl, rfl, rfl, rfl, rfl, rfl⟩, hk, steady_of rfl⟩

/-! ## One step of each command -/

/-- R189, R190: a write header sets the pointer to bits 6 to 0 of the address and shows the summary and the credit count. -/
theorem test_frame_write_header :
    (after (.frame false (clocked false [0x5A, 0xC0])) base).port.frame = some .writing ∧
    (after (.frame false (clocked false [0x5A, 0xC0])) base).port.pointer = 0x40 ∧
    (after (.frame false (clocked false [0x5A, 0xC0])) base).port.sent = [0x01, 0x08] := by decide +kernel

/-- R189: any other access code makes the frame IGNORING. -/
theorem test_frame_ignored : (after (.frame true (clocked true [0x5B])) base).port.frame = some .ignoring := by decide +kernel

/-- R192. -/
theorem test_frame_end : (after (.frameEnd [.rises true]) (reading 0x09 base)).port.frame = none := by decide +kernel

/-- R188: 0x64 leaves most significant bit first; in mode 3 SDO is driven from the first falling edge on. -/
theorem test_sdo_msb_first :
    (reading 0x00 base).sdo [] = some false ∧ (reading 0x00 base).sdo [.rises false, .falls] = some true ∧
    (reading 0x00 { base with port := { idleHigh := true } }).sdo [] = none ∧
    (reading 0x00 { base with port := { idleHigh := true } }).sdo [.falls, .rises true, .falls] = some true ∧ base.sdo [] = none := by
  decide +kernel

/-- R196, R198: while RST# is LOW the port takes no frame and IRQ# is released. -/
theorem test_rst_low :
    (after (.frame false (clocked false [0xA5, 0])) (after (.pinReset .low cutNone) base)).port.frame = none ∧
    (after (.pinReset .low cutNone) { onDev (fun d => { d with flags := { mounted := true } }) base with mask := 4 }).irqAsserted = false ∧
    (after (.pinReset .rises cutNone) (after (.pinReset .low cutNone) base)).dev.store = .mounting := by decide +kernel

/-- R70: a WRITE is queued with its descriptor's tag and its buffer becomes the engine's. -/
theorem test_write_posted :
    (after (.write 0) (writing 0x2F { base with desc := { code := 2, tag := 7, buffer := 3 } })).dev.queue =
      [{ code := .write, desc := { code := 2, tag := 7, buffer := 3 } }] ∧
    ((after (.write 0) (writing 0x2F { base with desc := { code := 2, tag := 7, buffer := 3 } })).dev.buffer 3).owner = .engine := by
  decide +kernel

/-- R69: check 2, a READ of buffer 4. -/
theorem test_read_bad_buffer :
    (after (.read 0) (writing 0x2F { base with desc := { code := 1, tag := 7, buffer := 4 } })).dev.fifo =
      [{ tag := 7, status := .badArgument, result := 0 }] := by decide +kernel

/-- R69: check 1. -/
theorem test_code_names_no_command :
    (after (.codeNamesNoCommand 0) (writing 0x2F { base with desc := { code := 0x0C, tag := 7 } })).dev.fifo =
      [{ tag := 7, status := .badCommand, result := 0 }] := by decide +kernel

/-- R68: the ninth posting sets OVERRUN and posts nothing. -/
theorem test_delete_overrun :
    (after (.delete 0) (writing 0x2F (onDev (fun d => { d with fifo := List.replicate 8 { tag := 0, status := .ok, result := 0 } })
      { base with desc := { code := 3 } }))).dev.flags.overrun = true := by decide +kernel

/-- R80. -/
theorem test_pop :
    (after (.pop 0xFF) (writing 0x18 (onDev (fun d =>
      { d with fifo := [{ tag := 1, status := .ok, result := 0 }, { tag := 2, status := .ok, result := 5 }] }) base))).register 0x10 = 2 := by
  decide +kernel

/-- R85, R197. -/
theorem test_port_reset :
    (after (.portReset 0xC3) (writing 0x7F (head .read {} base))).dev.queue = [] ∧
    (after (.portReset 0xC2) (writing 0x7F (head .read {} base))).dev.queue = [{ code := .read, desc := {} }] := by decide +kernel

/-- R72: the buffer pointer wraps from 255 to 0. -/
theorem test_buffer_write_wraps :
    ((after (.bufferDataWrite 9) (writing 0x30 (onDev (fun d =>
      d.setBuffer 0 { bytes := [], owner := .host, pointer := 255 }) base))).dev.buffer 0).pointer = 0 ∧
    ((after (.bufferDataWrite 9) (writing 0x30 (onDev (fun d =>
      d.setBuffer 0 { bytes := [], owner := .host, pointer := 255 }) base))).dev.buffer 0).byte 255 = 9 := by decide +kernel

/-- R72: a buffer that the engine owns reads 0xFF. -/
theorem test_buffer_read_engine :
    (after .bufferDataRead (reading 0x30 (onDev (fun d =>
      d.setBuffer 0 { bytes := [(0, 5)], owner := .engine, pointer := 0 }) base))).port.sent = [0xFF] := by decide +kernel

/-- R195. -/
theorem test_flags_clear :
    (after (.notificationFlagsClear 0x80) (writing 0x50 (onDev (fun d =>
      { d with flags := { overrun := true, mounted := true } }) base))).dev.flags = { mounted := true } := by decide +kernel

/-- R196. -/
theorem test_mask : (after (.enableMaskWrite 0xA5) (writing 0x51 base)).mask = 0xA5 := by decide +kernel

/-- R194: the least and the greatest start threshold, and their neighbours outside. -/
theorem test_configuration_threshold :
    (after (.configurationWrite 0x40 2 noEntry) (writing 0x40 base)).cfg.startThreshold = 2 ∧
    (after (.configurationWrite 0x40 8 noEntry) (writing 0x40 base)).cfg.startThreshold = 8 ∧
    (after (.configurationWrite 0x40 1 noEntry) (writing 0x40 base)).cfg.startThreshold = 4 ∧
    (after (.configurationWrite 0x40 9 noEntry) (writing 0x40 base)).cfg.startThreshold = 4 := by decide +kernel

/-- R194: the greatest wear gap, 0x1000, and the value above it. -/
theorem test_configuration_wear_gap :
    (after (.configurationWrite 0x42 0x00 noEntry) (after (.configurationWrite 0x41 0x10 noEntry) (writing 0x41 base))).cfg.wearGap = 4096 ∧
    (after (.configurationWrite 0x42 0x01 noEntry) (after (.configurationWrite 0x41 0x10 noEntry) (writing 0x41 base))).cfg.wearGap = 1024 := by
  decide +kernel

/-- R65, section 11.6: the argument's first byte is its most significant. -/
theorem test_register_argument :
    (after (.registerWrite 0x29 0x12) (writing 0x29 base)).desc.argument = 0x12000000 := by decide +kernel

/-- R71. -/
theorem test_register_select : (after (.registerWrite 0x31 3) (writing 0x31 base)).select = 3 := by decide +kernel

/-- R88: a READ of an unknown key. -/
theorem test_take_read_unknown :
    (after .takeCommand (head .read { tag := 4, key := 9 } stored)).dev.fifo = [{ tag := 4, status := .notFound, result := 0 }] := by
  decide +kernel

/-- R74: the second general check. -/
theorem test_take_not_formatted :
    (after .takeCommand (head .list { tag := 4 } (onDev (fun d => { d with store := .blank }) base))).dev.fifo =
      [{ tag := 4, status := .notFormatted, result := 0 }] := by decide +kernel

/-- R16, R179: PFW# goes LOW. -/
theorem test_power_warning : (after (.powerWarning (.pfw false) cutNone) base).register 0x50 = 0x10 := by decide +kernel

/-- R179: 2399 mV is below 2.4 V and 2400 mV is not. -/
theorem test_power_warning_supply :
    (after (.powerWarning (.supply 2399 false) cutNone) base).power.warning = true ∧
    (after (.powerWarning (.supply 2400 false) cutNone) base).power.warning = false := by decide +kernel

/-- R181: 1599 mV is a power-on reset and 1600 mV is not. -/
theorem test_brown_out :
    (after (.powerWarning (.supply 1599 false) cutNone) base).dev.store = .mounting ∧
    (after (.powerWarning (.supply 1600 false) cutNone) base).dev.store = .ready := by decide +kernel

/-- R180: two ticks after the sources deassert. -/
theorem test_power_returns :
    (after .timebaseTick (after .timebaseTick (after (.powerWarningDeasserted { millivolts := 3300, cut := cutNone }) (warned base)))).power.warning = false ∧
    (after .timebaseTick (after (.powerWarningDeasserted { millivolts := 3300, cut := cutNone }) (warned base))).power.debounce = .armed := by decide +kernel

/-- R180: RECOVERY of an ARMED debounce. -/
theorem test_recovery :
    (after .recovery { base with power := { warning := true, debounce := .armed } }).dev.flags.powerOk = true := by decide +kernel

/-- R120. -/
theorem test_group_expiry :
    (after .groupExpiry (inGroup { group with deadline := some 1 } base)).dev.flags.groupExpired = true ∧
    (after .groupExpiry (inGroup { group with deadline := some 1 } base)).dev.group = none := by decide +kernel

/-- R120: a tick of a longer deadline. -/
theorem test_timebase_tick :
    ((after .timebaseTick (inGroup { group with deadline := some 20 } base)).dev.group.map fun g => g.deadline) = some (some 19) := by
  decide +kernel

/-- R7: a target that is not erased keeps its content. -/
theorem test_line_program_precheck :
    (after (.lineProgramOutcome .asIntended) { programming (executing .write fresh) recA 0 with
      flash := Flash.setLine [] 0 9 (.raw (lineOf [1])) }).flash.line 0 9 = .raw (lineOf [1]) := by decide +kernel

/-- R49, R79, R100: a WRITE's commit line verifies, its record superseding the one at line 3 (3 lines dead). -/
theorem test_line_program_commit :
    (after (.lineProgramOutcome .asIntended) (programming (executing .write fresh) recA 2)).dev.fifo =
      [{ tag := 9, status := .ok, result := 0 }] ∧
    ((after (.lineProgramOutcome .asIntended) (programming (executing .write fresh) recA 2)).dev.bank 0).dead = 3 ∧
    ((after (.lineProgramOutcome .asIntended) (programming (executing .write fresh) recA 2)).dev.entry 1).map
      (fun e => (e.seq, e.base, e.stale)) = some (3, 1, 1) := by decide +kernel

/-- R9, R89: READ delivers the record's payload. -/
theorem test_read_outcome :
    (after .multiLineReadOutcome (busy (executing .read (.reading { bank := 0, line := 3 })) (.read 0 3 3) stored)).dev.fifo =
      [{ tag := 9, status := .ok, result := 5 }] ∧
    ((after .multiLineReadOutcome (busy (executing .read (.reading { bank := 0, line := 3 })) (.read 0 3 3) stored)).dev.buffer 0).byte 4 =
      5 := by decide +kernel

/-- R63, R131: a verified erase of a bank with erase count 1 is followed by a header with 2. -/
theorem test_erase_outcome :
    (after (.bankEraseOutcome []) (onDev (fun d =>
      { d with reclaim := { job := .erase 3 }
               fc := { erase := some { requester := .reclaim, bank := 3, suspended := false, count := 0 } } }) base)).dev.fc.op =
      some (.reclaim, .program 3 0 (.bankHeader 1 2 0)) := by decide +kernel

/-- R131: the head of the erase list is erased. -/
theorem test_take_up_erase :
    (after .reclaimTakeUpWork (onDev (fun d => { d with reclaim := { eraseList := [5, 6] } }) base)).dev.reclaim.eraseList = [6] ∧
    ((after .reclaimTakeUpWork (onDev (fun d => { d with reclaim := { eraseList := [5, 6] } }) base)).dev.bank 5).state = .erasing := by
  decide +kernel

/-- R2, R29: a decayed payload line makes a complete record damaged. -/
theorem test_payload_decay :
    recordPayload 3 ((after (.payloadDecay 0 3 0 (lineOf [1, 2, 3, 4, 6])) stored).flash.lines 0 3 3) = none ∧
    recordPayload 3 (stored.flash.lines 0 3 3) = some [1, 2, 3, 4, 5] := by decide +kernel

/-- R20: the line under program may read otherwise after a reset. -/
theorem test_power_on_reset :
    (after (.powerOnReset { line := .other (lineOf [8]), erase := [] } false 3300)
      (programming (executing .write fresh) recA 1)).flash.line 0 10 = .raw (lineOf [8]) ∧
    (after (.powerOnReset cutNone false 3300) stored).dev.store = .mounting := by decide +kernel

/-- R198: 999 ns resets nothing and 1000 ns does. -/
theorem test_pin_reset :
    (after (.pinReset (.pulse 999) cutNone) base).dev.store = .ready ∧
    (after (.pinReset (.pulse 1000) cutNone) base).dev.store = .mounting := by decide +kernel

/-! ## States that meet the statements' hypotheses -/

theorem witness_StepRunsFrontCommand :
    { base with pending := [.takeCommand] }.pending = Instr.takeCommand :: [] ∧
    exec .takeCommand base = .next (after .takeCommand base) ∧ base.pending = [] := ⟨rfl, rfl, rfl⟩

/-- The header bytes 0xA5 0x09, 0x5A, none, and 0x00 0x00 on SDI. -/
theorem witness_FramesOpenAndEnd :
    base.rstLow = false ∧ 1600 ≤ base.power.vdd ∧ base.port.frame = none ∧
    [(0xA5 : Byte), 0x09] = wholeBytes (sampled (clocked false [0xA5, 0x09])) ∧ [(0x5A : Byte)] = wholeBytes (sampled (clocked true [0x5A])) ∧
    ([] : List Byte) = wholeBytes (sampled []) ∧ [(0x00 : Byte), 0x00] = wholeBytes (sampled (clocked true [0, 0])) ∧
    ((0x00 : Byte) ≠ 0xA5 ∧ (0x00 : Byte) ≠ 0x5A) ∧ (reading 0 base).port.frame ≠ none ∧ (after (.pinReset .low cutNone) base).rstLow = true ∧
    { base with power := { base.power with vdd := 1599 } }.power.vdd < 1600 := by decide +kernel

/-- One byte on SDI, and a read frame of part code 0x64: eight bits in mode 0, and none before the first falling edge in mode 3. -/
theorem witness_BitsOnTheWires :
    sampled (clocked false [0xA5]) = (List.range 8).map (fun i => (0xA5 : Byte).getLsbD (7 - i)) ∧
    [(0x64 : Byte)] = (reading 0 base).port.sent ++ [(reading 0 base).nextByte] ∧
    2 = (([.rises true, .falls, .rises true, .falls] : List SckEdge).filter fun e => decide (e = SckEdge.falls)).length ∧
    (reading 0 base).port.frame ≠ none ∧ (reading 0 base).rstLow = false ∧ 1600 ≤ (reading 0 base).power.vdd ∧
    2 + (if (reading 0 base).port.idleHigh then 1 else 0) = 2 ∧ 7 < 8 * [(0x64 : Byte)].length ∧
    (reading 0 { base with port := { idleHigh := true } }).port.idleHigh = true ∧ base.port.frame = none := by decide +kernel

/-- One completion in the FIFO. -/
def completed : State := onDev (fun d => { d with fifo := [{ tag := 1, status := .ok, result := 0 }] }) base

theorem witness_RegisterMap :
    base.dev.fifo = [] ∧ 0x10 ≤ (0x13 : Addr).toNat ∧ completed.dev.fifo = { tag := 1, status := .ok, result := 0 } :: [] ∧
    (0x18 ≤ (0x1F : Addr).toNat ∧ (0x1F : Addr).toNat < 0x20) ∧ (0x2D ≤ (0x2F : Addr).toNat ∧ (0x2F : Addr).toNat < 0x30) ∧
    0x52 ≤ (0x7F : Addr).toNat := ⟨rfl, by decide, rfl, by decide⟩

theorem witness_InterruptFollowsEnabledFlags :
    { completed with mask := 1 }.irqAsserted = true ∧ (writing 0x51 base).writingAt 0x51 ∧ (writing 0x50 base).writingAt 0x50 ∧
    (writing 0x7F base).writingAt 0x7F ∧ Instr.resets base (.powerOnReset cutNone false 3300) ∧
    Instr.resets base (.powerWarning (.supply 1599 false) cutNone) ∧ Instr.resets base (.pinReset (.pulse 1000) cutNone) :=
  ⟨by decide +kernel, ⟨rfl, rfl⟩, ⟨rfl, rfl⟩, ⟨rfl, rfl⟩, trivial, Or.inr ⟨_, _, rfl, by decide⟩, rfl, by decide⟩

theorem witness_WindowBytesReach_outside :
    Instr.byteAddress (.pop 0) = some 0x18 ∧ { base with port := { base.port with frame := some .ignoring } }.port.frame = some .ignoring ∧
    base.port.frame ≠ some .ignoring ∧ ¬base.writingAt 0x18 ∧ ¬base.writingAt 0x2F ∧
    some CommandCode.read ≠ CommandCode.ofByte base.desc.code := by
  refine ⟨by decide +kernel, rfl, by decide +kernel, fun h => ?_, fun h => ?_, by decide +kernel⟩ <;> exact absurd h.1 (by decide +kernel)

theorem witness_WindowBytesReach_blocks :
    exec (.enableMaskWrite 5) (writing 0x51 base) = .next (after (.enableMaskWrite 5) (writing 0x51 base)) ∧
    Instr.isWriteByte (writing 0x51 base) (.enableMaskWrite 5) ∧ (∀ v, Instr.enableMaskWrite 5 ≠ .portReset v) ∧
    (∀ v r, Instr.enableMaskWrite 5 ≠ .configurationWrite 0x46 v r) := by
  refine ⟨rfl, Or.inl (by decide), ?_, ?_⟩ <;> intros <;> simp

theorem witness_ReadByteSendsRegister :
    (reading 0x09 { base with port := { base.port with capture := some (0x09, 5) } }).port.capture = some (0x09, 5) ∧
    (reading 0x09 base).port.capture = none ∧ (reading 0x09 base).port.frame = some .reading ∧ (reading 0x09 base).port.pointer ≠ 0x30 ∧
    (reading 0x08 base).port.pointer = 0x08 ∧ base.port.frame ≠ some .reading ∧ base.port.frame ≠ some .ignoring ∧
    exec .timebaseTick (reading 0x09 base) = .next (after .timebaseTick (reading 0x09 base)) ∧
    ¬Instr.resets (reading 0x09 base) .timebaseTick ∧ Instr.timebaseTick ≠ .pinReset .low cutNone :=
  ⟨rfl, rfl, rfl, by decide, rfl, by decide, by decide, rfl, id, by decide⟩

theorem witness_DataPortReadAndWritten :
    (reading 0x30 base).port.frame = some .reading ∧ (reading 0x30 base).port.pointer = 0x30 ∧ (writing 0x30 base).writingAt 0x30 :=
  ⟨rfl, rfl, rfl, rfl⟩

theorem witness_CompletionHeadAndPop :
    completed.dev.fifo = [{ tag := 1, status := .ok, result := 0 }] ∧ base.dev.fifo = [] ∧
    (reading 0x10 base).port.frame = some .reading ∧ 0x10 ≤ (reading 0x10 base).port.pointer.toNat ∧
    (reading 0x13 base).port.pointer.toNat ≤ 0x13 ∧ completed.dev.fifo ≠ [] ∧ (writing 0x18 base).writingAt 0x18 ∧
    (writing 0x18 completed).creditLaw := by
  refine ⟨rfl, rfl, rfl, by decide +kernel, by decide +kernel, by decide +kernel, ⟨rfl, rfl⟩, ?_⟩
  show _ ≤ 8
  decide +kernel

theorem witness_ConfigurationRegisters_ranges :
    (writing 0x40 base).writingAt 0x40 ∧ (writing 0x41 base).writingAt 0x41 ∧
    ((writing 0x42 base).writingAt 0x42 ∧ 4096 = 256 * { base.cfg with wearGapHold := 0x10 }.wearGapHold.toNat + (0x00 : Byte).toNat) ∧
    (writing 0x43 base).writingAt 0x43 ∧
    ((writing 0x44 base).writingAt 0x44 ∧ 6000 = 256 * { base.cfg with groupTimeoutHold := 0x17 }.groupTimeoutHold.toNat + (0x70 : Byte).toNat) ∧
    (writing 0x45 base).writingAt 0x45 :=
  ⟨⟨rfl, rfl⟩, ⟨rfl, rfl⟩, ⟨⟨rfl, rfl⟩, by decide⟩, ⟨rfl, rfl⟩, ⟨⟨rfl, rfl⟩, by decide⟩, rfl, rfl⟩

theorem witness_ConfigurationRegisters_threshold :
    (writing 0x46 base).writingAt 0x46 ∧ 3 < (4 : Byte).toNat ∧ (writing 0x46 base).powerLaw ∧
    (3 : Byte).toNat = SupplyThreshold.v28.number ∧
    powerAsserted { base.cfg with supplyThreshold := .v28 } base.power = false ∧ base.power.warning = false ∧
    powerAsserted { base.cfg with supplyThreshold := .v28 } { base.power with vdd := 2799 } = true ∧
    (warned base).power.warning = true ∧ powerAsserted { base.cfg with supplyThreshold := .v28 } (warned base).power = true ∧
    powerAsserted { base.cfg with supplyThreshold := .disabled } { base.power with warning := true, vdd := 1900 } = false :=
  ⟨⟨rfl, rfl⟩, by decide, ⟨by decide +kernel, by decide +kernel, by decide +kernel⟩, by decide, by decide +kernel, rfl, by decide +kernel,
    rfl, by decide +kernel, by decide +kernel⟩

theorem witness_DescriptorByteStored :
    (writing 0x20 base).writingAt 0x20 ∧ Addr.hasOwnRow 0x20 = false ∧ Addr.hasOwnRow 0x2C = false ∧ Addr.hasOwnRow 0x7E = false ∧
    (0x2C : Addr) ≠ 0x31 ∧ (0x2C : Addr) ≠ 0x32 := ⟨⟨rfl, rfl⟩, by decide⟩

theorem witness_BufferSelectAndPointer :
    (writing 0x31 base).writingAt 0x31 ∧ (3 : Byte).toNat = (3 : Fin 4).val ∧ 3 < (4 : Byte).toNat ∧ (writing 0x32 base).writingAt 0x32 ∧
    ((reading 0x31 base).port.frame = some .reading ∧ (reading 0x31 base).port.pointer = 0x31) ∧
    ((reading 0x32 base).port.frame = some .reading ∧ (reading 0x32 base).port.pointer = 0x32) ∧ (writing 0x7F base).writingAt 0x7F ∧
    Instr.resets (after (.pinReset .low cutNone) base) (.pinReset .rises cutNone) :=
  ⟨⟨rfl, rfl⟩, by decide, by decide, ⟨rfl, rfl⟩, ⟨rfl, rfl⟩, ⟨rfl, rfl⟩, ⟨rfl, rfl⟩, rfl⟩

/-- A member WRITE executing in the open group. -/
def member (c : CommandCode) (record : RecordSpec) (k : Nat) : State :=
  inGroup group (programming { executing c fresh with member := true } record k)

theorem witness_PortResetEmptiesHostSide :
    (writing 0x7F base).writingAt 0x7F ∧ (0xC3 : Byte) = 0xC3 ∧ (0xC2 : Byte) ≠ 0xC3 ∧ (writing 0x7F base).dev.group = none ∧
    (writing 0x7F (inGroup group base)).dev.group = some group ∧ group.state = .opened ∧
    (writing 0x7F (inGroup group base)).dev.ex.any (fun x => x.member) = false ∧
    (writing 0x7F (member .write recA 0)).dev.ex.any (fun x => x.member) = true ∧
    ({ group with state := .committing }).state = .committing := ⟨⟨rfl, rfl⟩, by decide +kernel⟩

/-- Eight completions: no credit is left. -/
def noCredit : State := onDev (fun d => { d with fifo := List.replicate 8 { tag := 1, status := .ok, result := 0 } }) base

theorem witness_GoWithoutCredit :
    (writing 0x2F noCredit).writingAt 0x2F ∧ (writing 0x2F noCredit).dev.credits = 0 ∧
    (onDev (fun d => { d with flags := { overrun := true } }) base).dev.flags.overrun = true ∧
    (after (.notificationFlagsClear 0x80) (writing 0x50 (onDev (fun d => { d with flags := { overrun := true } }) base))).dev.flags.overrun =
      false := ⟨⟨rfl, rfl⟩, by decide +kernel⟩

theorem witness_PostingCheckedOrAccepted :
    (writing 0x2F base).writingAt 0x2F ∧ (writing 0x2F base).dev.credits ≠ 0 ∧
    (writing 0x2F (onDev (fun d => { d with fifo := List.replicate 7 { tag := 1, status := .ok, result := 0 } }) base)).dev.credits ≠ 0 ∧
    CommandCode.ofByte 0x0C = none ∧ CommandCode.ofByte 0x00 = none ∧ CommandCode.ofByte 0x01 = some .read ∧
    CommandCode.ofByte 0x0B = some .raiseLock ∧ 3 < (4 : Byte).toNat ∧ (3 : Byte).toNat = (3 : Fin 4).val ∧
    (base.dev.buffer 3).owner = .host ∧
    ((onDev (fun d => d.setBuffer 3 { bytes := [], owner := .engine, pointer := 0 }) base).dev.buffer 3).owner = .engine :=
  ⟨⟨rfl, rfl⟩, by decide +kernel⟩

/-! ### Taking a command -/

/-- The head of a queue. -/
def posted (c : CommandCode) (q : Descriptor) : Posted := { code := c, desc := q }

theorem witness_ChecksEndCommand_untaken :
    (busy (executing .read (.reading { bank := 0, line := 3 })) (.read 0 3 3) stored).dev.AtRest ∧
    (busy (executing .read (.reading { bank := 0, line := 3 })) (.read 0 3 3) stored).dev.ex ≠ none ∧ base.dev.AtRest ∧
    base.dev.queue = [] ∧ State.reset.dev.AtRest ∧ State.reset.dev.store = .mounting :=
  ⟨rest_of (by decide +kernel), by decide +kernel, rest_of (by decide +kernel), rfl, rest_of (by decide +kernel), rfl⟩

theorem witness_ChecksEndCommand_general (c : CommandCode) :
    (head c {} base).dev.AtRest ∧ (head c {} base).dev.groupLaw ∧ (head c {} base).dev.ex = none ∧
    (head c {} base).dev.queue = posted c {} :: [] ∧ (head c {} base).dev.store ≠ .mounting ∧ (warned (head c {} base)).power.warning = true ∧
    (onDev (fun d => { d with store := .blank }) (head c {} base)).dev.store = .blank ∧
    (onDev (fun d => { d with store := .degraded }) (head c {} base)).dev.store = .degraded := by
  refine ⟨rest_of rfl, group_of rfl, rfl, rfl, ?_, rfl, rfl, rfl⟩
  simp [head, onDev, base]

theorem witness_ChecksEndCommand_own :
    ∃ p, (head .read { key := 9 } stored).Turn p [] ∧ (head .read { key := 9 } stored).dev.AtRest ∧
      (head .read { key := 9 } stored).dev.refusalFor p = some .notFound :=
  ⟨posted .read { key := 9 }, turn_of (by decide +kernel) rfl, rest_of (by decide +kernel), by decide +kernel⟩

theorem witness_CommandRequestsRecord_read :
    (head .read { key := 1 } stored).Ready (posted .read { key := 1 }) [] ∧
    (head .read { key := 1 } stored).dev.refusalFor (posted .read { key := 1 }) = none ∧
    ((head .read { key := 1 } stored).dev.entry 1).map (fun e => (e.loc, e.length)) = some (some { bank := 0, line := 3 }, 5) :=
  ⟨ready_of (by decide +kernel) rfl (by decide +kernel), by decide +kernel, by decide +kernel⟩

theorem witness_CommandRequestsRecord_add :
    (head .add { key := 2, argument := 1 } stored).Ready (posted .add { key := 2, argument := 1 }) [] ∧
    (head .add { key := 2, argument := 1 } stored).dev.refusalFor (posted .add { key := 2, argument := 1 }) = none ∧
    ((head .add { key := 2, argument := 1 } stored).dev.seen 2).map (fun v => (v.loc, v.length)) = some (some { bank := 0, line := 6 }, 8) :=
  ⟨ready_of (by decide +kernel) rfl (by decide +kernel), by decide +kernel, by decide +kernel⟩

/-- A WRITE of five bytes to key 3. -/
def writeKey3 : Descriptor := { key := 3, length := 5, cls := 1 }

theorem witness_CommandRequestsRecord_write :
    (head .write writeKey3 stored).Ready (posted .write writeKey3) [] ∧
    (head .write writeKey3 stored).dev.refusalFor (posted .write writeKey3) = none ∧
    ((head .write writeKey3 stored).dev.recordFor (posted .write writeKey3)).map (fun r => r.span) = some 3 ∧
    (head .write writeKey3 stored).dev.fitsIn 0 3 ∧ (head .write writeKey3 stored).dev.nextSeq ≤ 0xFFFFFF00 :=
  ⟨ready_of (by decide +kernel) rfl (by decide +kernel), by decide +kernel, by decide +kernel, ⟨by decide +kernel, by decide +kernel⟩,
    by decide +kernel⟩

theorem witness_CommandRequestsRecord_others :
    ((head .delete { key := 1 } stored).Ready (posted .delete { key := 1 }) [] ∧
      (head .delete { key := 1 } stored).dev.refusalFor (posted .delete { key := 1 }) = none ∧
      (head .delete { key := 1 } stored).dev.recordFor (posted .delete { key := 1 }) ≠ none) ∧
    ((head .add { key := 4, argument := 1 } stored).Ready (posted .add { key := 4, argument := 1 }) [] ∧
      (head .add { key := 4, argument := 1 } stored).dev.refusalFor (posted .add { key := 4, argument := 1 }) = none ∧
      (head .add { key := 4, argument := 1 } stored).dev.recordFor (posted .add { key := 4, argument := 1 }) ≠ none) ∧
    ((head .commitGroup {} (inGroup group stored)).Ready (posted .commitGroup {}) [] ∧
      (head .commitGroup {} (inGroup group stored)).dev.refusalFor (posted .commitGroup {}) = none ∧
      (head .commitGroup {} (inGroup group stored)).dev.recordFor (posted .commitGroup {}) ≠ none) ∧
    ((head .raiseLock { argument := 2 } stored).Ready (posted .raiseLock { argument := 2 }) [] ∧
      (head .raiseLock { argument := 2 } stored).dev.refusalFor (posted .raiseLock { argument := 2 }) = none ∧
      (head .raiseLock { argument := 2 } stored).dev.recordFor (posted .raiseLock { argument := 2 }) ≠ none) :=
  ⟨⟨ready_of (by decide +kernel) rfl (by decide +kernel), by decide +kernel, by decide +kernel⟩,
    ⟨ready_of (by decide +kernel) rfl (by decide +kernel), by decide +kernel, by decide +kernel⟩,
    ⟨ready_of (by decide +kernel) rfl (by decide +kernel), by decide +kernel, by decide +kernel⟩,
    ⟨ready_of (by decide +kernel) rfl (by decide +kernel), by decide +kernel, by decide +kernel⟩⟩

/-- The WRITE of key 3 with the ACTIVE bank full up to its last two lines. -/
def writeFull : State := onDev (fun d => { d with banks := banksWith 123 }) (head .write writeKey3 stored)

/-- And with no FREE bank. -/
def writeNoSpace : State := onDev (fun d => { d with banks := (allFull base).dev.banks }) (head .write writeKey3 stored)

theorem fitsNowhere_of {d : Device} {span : Nat}
    (h : (allBanks.all fun b => decide (d.activeBank ≠ some b) || decide (128 < 3 + (d.bank b).used + span)) = true) :
    d.fitsNowhere span := by
  intro b hb
  have := List.all_eq_true.mp h b (List.mem_finRange b)
  simpa [hb] using this

theorem witness_CommandOpensOrWaits_opens :
    writeFull.Turn (posted .write writeKey3) [] ∧ writeFull.dev.refusalFor (posted .write writeKey3) = none ∧
    (writeFull.dev.recordFor (posted .write writeKey3)).map (fun r => r.span) = some 3 ∧ writeFull.dev.fitsNowhere 3 ∧
    writeFull.dev.nextSeq ≤ 0xFFFFFF00 ∧ writeFull.dev.fc.Free ∧ writeFull.dev.openMark = none ∧ 2 ≤ writeFull.dev.freeCount ∧
    writeFull.dev.freeToOpen = some 1 ∧ writeFull.dev.nextEpoch ≤ 0xFFFFFF00 :=
  ⟨turn_of (by decide +kernel) rfl, by decide +kernel, by decide +kernel, fitsNowhere_of (by decide +kernel), by decide +kernel,
    free_of (by decide +kernel), rfl, by decide +kernel, by decide +kernel, by decide +kernel⟩

theorem witness_CommandOpensOrWaits_waits :
    (onDev (fun d => { d with openMark := some (5, .reclaim) }) writeFull).Turn (posted .write writeKey3) [] ∧
    (onDev (fun d => { d with openMark := some (5, .reclaim) }) writeFull).dev.AtRest ∧
    (onDev (fun d => { d with openMark := some (5, .reclaim) }) writeFull).dev.openMark ≠ none ∧
    writeNoSpace.Turn (posted .write writeKey3) [] ∧ writeNoSpace.dev.refusalFor (posted .write writeKey3) = none ∧
    writeNoSpace.dev.fitsNowhere 3 ∧ writeNoSpace.dev.AtRest ∧ writeNoSpace.dev.freeCount < 2 :=
  ⟨turn_of (by decide +kernel) rfl, rest_of (by decide +kernel), by decide +kernel, turn_of (by decide +kernel) rfl, by decide +kernel,
    fitsNowhere_of (by decide +kernel), rest_of (by decide +kernel), by decide +kernel⟩

theorem witness_CommandOpensOrWaits_sequence :
    (onDev (fun d => { d with nextSeq := 0xFFFFFF01 }) (head .openGroup {} stored)).Turn (posted .openGroup {}) [] ∧
    (onDev (fun d => { d with nextSeq := 0xFFFFFF01 }) (head .openGroup {} stored)).dev.AtRest ∧
    (onDev (fun d => { d with nextSeq := 0xFFFFFF01 }) (head .openGroup {} stored)).dev.refusalFor (posted .openGroup {}) = none ∧
    (onDev (fun d => { d with nextSeq := 0xFFFFFF01 }) (head .write writeKey3 stored)).dev.recordFor (posted .write writeKey3) ≠ none ∧
    0xFFFFFF00 < (onDev (fun d => { d with nextSeq := 0xFFFFFF01 }) stored).dev.nextSeq ∧
    (onDev (fun d => { d with nextSeq := 0xFFFFFF01 }) (head .commitGroup {} (inGroup group stored))).Turn (posted .commitGroup {}) [] ∧
    (onDev (fun d => { d with nextSeq := 0xFFFFFF01 }) (head .commitGroup {} (inGroup group stored))).dev.recordFor (posted .commitGroup {}) ≠
      none :=
  ⟨turn_of (by decide +kernel) rfl, rest_of (by decide +kernel), by decide +kernel, by decide +kernel, by decide +kernel,
    turn_of (by decide +kernel) rfl, by decide +kernel⟩

theorem witness_CommandOpensOrWaits_epoch :
    (onDev (fun d => { d with nextEpoch := 0xFFFFFF01 }) writeFull).Turn (posted .write writeKey3) [] ∧
    (onDev (fun d => { d with nextEpoch := 0xFFFFFF01 }) writeFull).dev.AtRest ∧
    (onDev (fun d => { d with nextEpoch := 0xFFFFFF01 }) writeFull).dev.refusalFor (posted .write writeKey3) = none ∧
    (onDev (fun d => { d with nextEpoch := 0xFFFFFF01 }) writeFull).dev.fitsNowhere 3 ∧
    2 ≤ (onDev (fun d => { d with nextEpoch := 0xFFFFFF01 }) writeFull).dev.freeCount ∧
    0xFFFFFF00 < (onDev (fun d => { d with nextEpoch := 0xFFFFFF01 }) writeFull).dev.nextEpoch :=
  ⟨turn_of (by decide +kernel) rfl, rest_of (by decide +kernel), by decide +kernel, fitsNowhere_of (by decide +kernel), by decide +kernel,
    by decide +kernel⟩

theorem witness_ListWritesEntries :
    (head .list { buffer := 3, argument := 1 } stored).Turn (posted .list { buffer := 3, argument := 1 }) [] ∧
    (head .list { buffer := 3, argument := 1 } stored).dev.AtRest ∧ (3 : Byte).toNat = (3 : Fin 4).val :=
  ⟨turn_of (by decide +kernel) rfl, rest_of (by decide +kernel), by decide⟩

theorem witness_GroupOpenedAndEnded_opens :
    (head .openGroup { argument := 6000 } stored).Turn (posted .openGroup { argument := 6000 }) [] ∧
    (head .openGroup { argument := 6000 } stored).dev.AtRest ∧
    (head .openGroup { argument := 6000 } stored).dev.refusalFor (posted .openGroup { argument := 6000 }) = none ∧
    (head .openGroup { argument := 6001 } stored).dev.refusalFor (posted .openGroup { argument := 6001 }) = some .badArgument ∧
    (head .openGroup { argument := 6000 } stored).dev.nextSeq ≤ 0xFFFFFF00 :=
  ⟨turn_of (by decide +kernel) rfl, rest_of (by decide +kernel), by decide +kernel, by decide +kernel, by decide +kernel⟩

theorem witness_GroupOpenedAndEnded_ends :
    (head .dropGroup {} (inGroup group stored)).Turn (posted .dropGroup {}) [] ∧ (head .dropGroup {} (inGroup group stored)).dev.AtRest ∧
    (head .dropGroup {} (inGroup group stored)).dev.group = some group ∧
    (head .commitGroup {} (inGroup { group with members := [], records := [] } stored)).Turn (posted .commitGroup {}) [] ∧
    (head .commitGroup {} (inGroup { group with members := [], records := [] } stored)).dev.AtRest :=
  ⟨turn_of (by decide +kernel) rfl, rest_of (by decide +kernel), rfl, turn_of (by decide +kernel) rfl, rest_of (by decide +kernel)⟩

theorem witness_GroupOpenedAndEnded_lines : (inGroup group stored).dev.group = some group := rfl

/-- The Reclaim Engine erasing bank 3, with an erase in progress. -/
def erasing (s : State) : State :=
  onDev (fun d =>
    { d with reclaim := { job := .erase 3 }
             fc := { erase := some { requester := .reclaim, bank := 3, suspended := false, count := 0 } } }) s

theorem witness_CommandsWaitForReclaim_reclaim :
    (head .reclaim { argument := 0xFF } stored).Turn (posted .reclaim { argument := 0xFF }) [] ∧
    (head .reclaim { argument := 0xFF } stored).dev.AtRest ∧
    (head .reclaim { argument := 0xFF } stored).dev.refusalFor (posted .reclaim { argument := 0xFF }) = none ∧
    (head .reclaim { argument := 0xFF } stored).dev.reclaimPhase ≠ .halted ∧
    (head .reclaim { argument := 0xFF } stored).dev.causes.commit = false ∧
    (onDev (fun d => { d with reclaim := { job := .halted .fault } }) (head .reclaim { argument := 0xFF } stored)).Turn
      (posted .reclaim { argument := 0xFF }) [] ∧
    (onDev (fun d => { d with reclaim := { job := .halted .fault } }) (head .reclaim { argument := 0xFF } stored)).dev.reclaimPhase =
      .halted :=
  ⟨turn_of (by decide +kernel) rfl, rest_of (by decide +kernel), by decide +kernel, by decide +kernel, by decide +kernel,
    turn_of (by decide +kernel) rfl, by decide +kernel⟩

/-- The Reclaim Engine repairing the lock record. -/
def repairing (s : State) : State :=
  reclaiming { job := .lockRepair (writerAt (lockRecord 1) (.programming { bank := 0, line := 9, seq := 3, at_ := 0 })) }
    (some (.program 0 9 ((lockRecord 1).line 3 0))) s

theorem witness_CommandsWaitForReclaim_others :
    ((repairing (head .raiseLock { argument := 2 } stored)).Turn (posted .raiseLock { argument := 2 }) [] ∧
      (repairing (head .raiseLock { argument := 2 } stored)).dev.AtRest ∧
      (repairing (head .raiseLock { argument := 2 } stored)).dev.refusalFor (posted .raiseLock { argument := 2 }) = none ∧
      (repairing (head .raiseLock { argument := 2 } stored)).dev.repairing = true) ∧
    ((erasing (head .format {} stored)).Turn (posted .format {}) [] ∧ (erasing (head .format {} stored)).dev.AtRest ∧
      (erasing (head .format {} stored)).dev.refusalFor (posted .format {}) = none ∧
      (erasing (head .format {} stored)).dev.reclaimPhase ≠ .idle ∧ (erasing (head .format {} stored)).dev.reclaimPhase ≠ .halted) :=
  ⟨⟨turn_of (by decide +kernel) rfl, rest_of (by decide +kernel), by decide +kernel, by decide +kernel⟩,
    turn_of (by decide +kernel) rfl, rest_of (by decide +kernel), by decide +kernel, by decide +kernel, by decide +kernel⟩

/-- FORMAT with every bank BLANK, and with every bank FULL. -/
def formatBlank : State :=
  onDev (fun d => { d with banks := Vector.replicate 32 BankEntry.initial, store := .blank, generation := none }) (head .format {} base)
def formatFull : State := onDev (fun d => { d with banks := (allFull base).dev.banks }) (head .format {} stored)

theorem witness_FormatBegins :
    (formatBlank.Ready (posted .format {}) [] ∧ formatBlank.dev.refusalFor (posted .format {}) = none ∧
      formatBlank.dev.reclaimPhase = .idle ∧ formatBlank.dev.formatAnchor = some 0 ∧ formatBlank.dev.banksIn .blank ≠ []) ∧
    ((head .format {} stored).Ready (posted .format {}) [] ∧ (head .format {} stored).dev.formatAnchor = some 1 ∧
      (head .format {} stored).dev.banksIn .blank = [] ∧ (head .format {} stored).dev.freeToOpen = some 1) ∧
    (formatFull.Ready (posted .format {}) [] ∧ formatFull.dev.formatAnchor = some 1 ∧ formatFull.dev.banksIn .blank = [] ∧
      formatFull.dev.freeToOpen = none ∧ formatFull.dev.reclaim.eraseList = []) :=
  ⟨⟨ready_of (by decide +kernel) rfl (by decide +kernel), by decide +kernel, by decide +kernel, by decide +kernel, by decide +kernel⟩,
    ⟨ready_of (by decide +kernel) rfl (by decide +kernel), by decide +kernel, by decide +kernel, by decide +kernel⟩,
    ready_of (by decide +kernel) rfl (by decide +kernel), by decide +kernel, by decide +kernel, by decide +kernel, rfl⟩

/-! ### Commands between whose taking and step the warning comes -/

/-- PFW# goes LOW between the taking and the step of the head command (R182, R184). -/
def warnedHead (c : CommandCode) (q : Descriptor) (s : State) : State := after (.powerWarning (.pfw true) cutNone) (head c q s)

/-- R184, the row of OPEN_GROUP, the warning first: POWER_ABORT, no context, the sequence consumed. -/
theorem test_open_group_warned :
    (warnedHead .openGroup { tag := 3 } stored).dev.fifo = [{ tag := 3, status := .powerAbort, result := 0 }] ∧
    (warnedHead .openGroup { tag := 3 } stored).dev.group = none ∧ (warnedHead .openGroup { tag := 3 } stored).dev.nextSeq = 4 := by
  decide +kernel

/-- R184, the rows of DROP_GROUP, LIST and RECLAIM, the warning first; R182, a WRITE whose checks are not yet made. -/
theorem test_others_warned :
    (warnedHead .dropGroup { tag := 3 } (inGroup group stored)).dev.fifo = [{ tag := 3, status := .noGroup, result := 0 }] ∧
    (warnedHead .list { tag := 3 } stored).dev.fifo = [{ tag := 3, status := .ok, result := 2 }] ∧
    (warnedHead .reclaim { tag := 3, argument := 0xFF } stored).dev.fifo = [{ tag := 3, status := .powerAbort, result := 0 }] ∧
    (warnedHead .write { writeKey3 with tag := 3 } stored).dev.fifo = [{ tag := 3, status := .powerAbort, result := 0 }] ∧
    (warnedHead .write { writeKey3 with tag := 3 } stored).dev.nextSeq = 3 := by decide +kernel

/-- R184, the rows of OPEN_GROUP and DROP_GROUP, the step first. -/
theorem test_groups_then_warned :
    (after (.powerWarning (.pfw true) cutNone) (after .takeCommand (head .openGroup { tag := 3 } stored))).dev.fifo =
      [{ tag := 3, status := .ok, result := 0 }] ∧
    (after (.powerWarning (.pfw true) cutNone) (after .takeCommand (head .openGroup { tag := 3 } stored))).dev.group = none ∧
    (after (.powerWarning (.pfw true) cutNone) (after .takeCommand (head .dropGroup { tag := 3 } (inGroup group stored)))).dev.fifo =
      [{ tag := 3, status := .ok, result := 0 }] := by decide +kernel

theorem witness_ChecksEndCommand_warned :
    (onDev (fun d => { d with store := .degraded }) (head .write {} base)).dev.store = .degraded ∧ CommandCode.write.readOnlyRefused = true ∧
    ((head .write {} stored).MeetsWarning (posted .write {}) [] ∧
      (((head .write {} stored).headTaken (posted .write {}) []).judging ((head .write {} stored).headExecuting (posted .write {}))).refusalFor
        (posted .write {}) = some .badKey) ∧
    ((head .write writeKey3 (inGroup group stored)).MeetsWarning (posted .write writeKey3) [] ∧
      (((head .write writeKey3 (inGroup group stored)).headTaken (posted .write writeKey3) []).judging
        ((head .write writeKey3 (inGroup group stored)).headExecuting (posted .write writeKey3))).refusalFor (posted .write writeKey3) =
          none) ∧
    ((head .read { key := 1 } stored).MeetsWarning (posted .read { key := 1 }) [] ∧
      (((head .read { key := 1 } stored).headTaken (posted .read { key := 1 }) []).judging
        ((head .read { key := 1 } stored).headExecuting (posted .read { key := 1 }))).refusalFor (posted .read { key := 1 }) = none ∧
      ((head .read { key := 1 } stored).dev.entry 1).map (fun e => e.loc) = some (some { bank := 0, line := 3 })) :=
  ⟨rfl, rfl, ⟨meets_of (by decide +kernel) rfl, by decide +kernel⟩, ⟨meets_of (by decide +kernel) rfl, by decide +kernel⟩,
    meets_of (by decide +kernel) rfl, by decide +kernel, by decide +kernel⟩

theorem witness_ListWritesEntries_warned :
    (head .list { buffer := 3 } stored).MeetsWarning (posted .list { buffer := 3 }) [] := meets_of (by decide +kernel) rfl

/-- No sequence value is left. -/
def spent (s : State) : State := onDev (fun d => { d with nextSeq := 0xFFFFFF01 }) s

theorem witness_GroupOpenedAndEnded_warned :
    (head .openGroup {} stored).MeetsWarning (posted .openGroup {}) [] ∧
    (((head .openGroup {} stored).headTaken (posted .openGroup {}) []).underWarning
      ((head .openGroup {} stored).headExecuting (posted .openGroup {}))).refusalFor (posted .openGroup {}) = none ∧
    stored.dev.nextSeq ≤ 0xFFFFFF00 ∧ (spent (head .openGroup {} stored)).MeetsWarning (posted .openGroup {}) [] ∧
    0xFFFFFF00 < (spent stored).dev.nextSeq ∧
    (head .dropGroup {} (inGroup group stored)).MeetsWarning (posted .dropGroup {}) [] ∧
    (head .commitGroup {} (inGroup group stored)).MeetsWarning (posted .commitGroup {}) [] ∧ group.members ≠ [] ∧
    (head .commitGroup {} (inGroup { group with members := [], records := [] } stored)).MeetsWarning (posted .commitGroup {}) [] :=
  ⟨meets_of (by decide +kernel) rfl, by decide +kernel, by decide +kernel, meets_of (by decide +kernel) rfl, by decide +kernel,
    meets_of (by decide +kernel) rfl, meets_of (by decide +kernel) rfl, by decide +kernel, meets_of (by decide +kernel) rfl⟩

/-- The Reclaim Engine HALTED after a fault. -/
def haltedFor (s : State) : State := onDev (fun d => { d with reclaim := { job := .halted .fault } }) s

theorem witness_CommandsWaitForReclaim_warned :
    ((head .reclaim { argument := 0xFF } stored).MeetsWarning (posted .reclaim { argument := 0xFF }) [] ∧
      (((head .reclaim { argument := 0xFF } stored).headTaken (posted .reclaim { argument := 0xFF }) []).underWarning
        ((head .reclaim { argument := 0xFF } stored).headExecuting (posted .reclaim { argument := 0xFF }))).refusalFor
          (posted .reclaim { argument := 0xFF }) = none ∧
      stored.dev.reclaimPhase ≠ .halted ∧ stored.dev.causes.commit = false) ∧
    ((haltedFor (head .reclaim { argument := 0xFF } stored)).MeetsWarning (posted .reclaim { argument := 0xFF }) [] ∧
      (haltedFor stored).dev.reclaimPhase = .halted) ∧
    ((repairing (head .raiseLock { argument := 2 } stored)).MeetsWarning (posted .raiseLock { argument := 2 }) [] ∧
      (((repairing (head .raiseLock { argument := 2 } stored)).headTaken (posted .raiseLock { argument := 2 }) []).underWarning
        ((repairing (head .raiseLock { argument := 2 } stored)).headExecuting (posted .raiseLock { argument := 2 }))).refusalFor
          (posted .raiseLock { argument := 2 }) = none) :=
  ⟨⟨meets_of (by decide +kernel) rfl, by decide +kernel, by decide +kernel, by decide +kernel⟩,
    ⟨meets_of (by decide +kernel) rfl, by decide +kernel⟩, meets_of (by decide +kernel) rfl, by decide +kernel⟩

theorem witness_FormatUnderWarning_warned :
    (head .format {} stored).MeetsWarning (posted .format {}) [] ∧
    (((head .format {} stored).headTaken (posted .format {}) []).underWarning
      ((head .format {} stored).headExecuting (posted .format {}))).refusalFor (posted .format {}) = none :=
  ⟨meets_of (by decide +kernel) rfl, by decide +kernel⟩

/-! ### FORMAT -/

/-- FORMAT at a stage. -/
def formatAt (stage : Stage) (granted committed : Bool) (todo : List BankId) : Executing :=
  { executing .format stage with
    format := some { prior := .ready, priorCauses := {}, granted := granted, committed := committed, todo := todo } }

/-- FORMAT with an erase or header program granted to it, the Reclaim Engine HALTED for it. -/
def formatState (x : Executing) (fc : FlashController) (s : State) : State :=
  onDev (fun d => { d with ex := some x, store := .formatting, reclaim := { job := .halted .format }, fc := fc }) s

/-- FORMAT erasing bank 3, and programming its header with erase count 2. -/
def formatErasing (committed : Bool) : State :=
  formatState (formatAt (.formatErase 3 false) true committed [])
    { erase := some { requester := .command, bank := 3, suspended := false, count := 0 } } stored
def formatHeading (again committed : Bool) (todo : List BankId) (s : State) : State :=
  formatState (formatAt (.formatHeader 3 again 2) true committed todo) { op := some (.command, .program 3 0 (.bankHeader 2 2 0)) } s

/-- All banks but bank 3 BAD. -/
def oneBank : State := onDev (fun d => { d with banks := (Vector.replicate 32 { BankEntry.initial with state := .bad }).set 3 (fullBank 0) }) base

theorem witness_FormatErasesBanks_erase :
    (formatErasing false).Formatting (formatAt (.formatErase 3 false) true false []) ⟨.ready, {}, true, false, []⟩ (.formatErase 3 false) ∧
    (formatErasing false).dev.fc.erase = some { requester := .command, bank := 3, suspended := false, count := 0 } ∧
    (formatErasing false).dev.fc.op = none ∧ (formatErasing false).dev.generation = some 1 ∧ lineOf [1] ≠ erasedBytes :=
  ⟨⟨rfl, rfl, rfl, rfl, rfl, rfl, rfl, steady_of rfl⟩, rfl, rfl, rfl, by decide⟩

theorem witness_FormatErasesBanks_header (again committed : Bool) (todo : List BankId) :
    (formatHeading again committed todo stored).Formatting (formatAt (.formatHeader 3 again 2) true committed todo)
      ⟨.ready, {}, true, committed, todo⟩ (.formatHeader 3 again 2) ∧
    (formatHeading again committed todo stored).dev.fc.Alone .command (.program 3 0 (.bankHeader 2 2 0)) ∧
    stored.flash.line 3 0 = Line.erased ∧ (stored.dev.bank 3).state ≠ .bad ∧ (5 : BankId) ≠ 3 ∧
    (allBanks.filter fun c => decide ((stored.dev.bank c).state ≠ .bad ∧ c ≠ 3)) = 0 :: 1 :: 2 :: (allBanks.drop 4) ∧
    (stored.dev.bank 5).state ≠ .blank ∧ ((withBank 5 BankEntry.initial stored).dev.bank 5).state = .blank :=
  ⟨⟨rfl, rfl, rfl, rfl, rfl, rfl, rfl, steady_of rfl⟩, alone_of ⟨rfl, rfl, rfl, rfl, rfl, rfl⟩, by decide +kernel, by decide +kernel,
    by decide, by decide +kernel, by decide +kernel, by decide +kernel⟩

/-- FORMAT at its second erase of bank 3, which has failed once. -/
def formatErasingAgain (committed : Bool) (todo : List BankId) : State :=
  formatState (formatAt (.formatErase 3 true) true committed todo)
    { erase := some { requester := .command, bank := 3, suspended := false, count := 0 } } stored

/-- A second failed erase and a second failed header, after the commit point and before it; the next bank is FULL, or BLANK. -/
theorem witness_FormatErasesBanks_second (committed : Bool) (todo : List BankId) :
    (formatErasingAgain committed todo).Formatting (formatAt (.formatErase 3 true) true committed todo) ⟨.ready, {}, true, committed, todo⟩
      (.formatErase 3 true) ∧
    (formatErasingAgain committed todo).dev.fc.erase = some { requester := .command, bank := 3, suspended := false, count := 0 } ∧
    (formatErasingAgain committed todo).dev.fc.op = none ∧ lineOf [1] ≠ erasedBytes ∧
    (formatHeading true committed todo stored).Formatting (formatAt (.formatHeader 3 true 2) true committed todo)
      ⟨.ready, {}, true, committed, todo⟩ (.formatHeader 3 true 2) ∧
    (stored.dev.emptyInto 3 .bad).formatAnchor = some 1 ∧
    ((withBank 5 BankEntry.initial stored).dev.emptyInto 3 .bad).formatAnchor = some 5 ∧
    (((withBank 5 BankEntry.initial stored).dev.emptyInto 3 .bad).bank 5).state = .blank :=
  ⟨⟨rfl, rfl, rfl, rfl, rfl, rfl, rfl, steady_of rfl⟩, rfl, rfl, by decide, ⟨rfl, rfl, rfl, rfl, rfl, rfl, rfl, steady_of rfl⟩,
    by decide +kernel, by decide +kernel, by decide +kernel⟩

/-- R163: an anchor whose second erase fails is BAD, and the next anchor is erased. -/
theorem test_format_next_anchor :
    ((after (.bankEraseOutcome [(5, .other (lineOf [9]))]) (formatErasingAgain false [])).dev.bank 3).state = .bad ∧
    (after (.bankEraseOutcome [(5, .other (lineOf [9]))]) (formatErasingAgain false [])).dev.fc.erase =
      some { requester := .command, bank := 1, suspended := false, count := 0 } := by decide +kernel

/-- Bank 5 BAD, and no bank ACTIVE. -/
def oneBad : State := withBank 5 { BankEntry.initial with state := .bad } (withBank 0 { BankEntry.initial with state := .free } stored)

theorem witness_FormatEnds_ends :
    (formatHeading false true [] stored).Formatting (formatAt (.formatHeader 3 false 2) true true []) ⟨.ready, {}, true, true, []⟩
      (.formatHeader 3 false 2) ∧
    (formatHeading false true [] stored).dev.fc.Alone .command (.program 3 0 (.bankHeader 2 2 0)) ∧
    (formatHeading false true [] stored).dev.reclaim.job = .halted .format ∧
    false = decide (¬∀ c, c ≠ 3 → ((formatHeading false true [] stored).dev.bank c).state ≠ .bad) ∧
    true = decide (¬∀ c, c ≠ 3 → ((formatHeading false true [] oneBank).dev.bank c).state ≠ .bad) ∧
    ((formatHeading false true [] oneBank).dev.makeFree 3 2).usable.length < 8 :=
  ⟨⟨rfl, rfl, rfl, rfl, rfl, rfl, rfl, steady_of rfl⟩, alone_of ⟨rfl, rfl, rfl, rfl, rfl, rfl⟩, rfl, by decide +kernel, by decide +kernel,
    by decide +kernel⟩

theorem witness_FormatEnds_map :
    (formatHeading false true [] oneBad).Formatting (formatAt (.formatHeader 3 false 2) true true []) ⟨.ready, {}, true, true, []⟩
      (.formatHeader 3 false 2) ∧
    true = decide (¬∀ c, c ≠ 3 → ((formatHeading false true [] oneBad).dev.bank c).state ≠ .bad) ∧
    8 ≤ ((formatHeading false true [] oneBad).dev.makeFree 3 2).usable.length ∧
    ((formatHeading false true [] oneBad).dev.makeFree 3 2).badCount ≤ 8 ∧
    (∀ c, (((formatHeading false true [] oneBad).dev.makeFree 3 2).bank c).state ≠ .active) ∧
    ((formatHeading false true [] oneBad).dev.makeFree 3 2).freeToOpen = some 0 ∧
    2 ≤ ((formatHeading false true [] oneBad).dev.makeFree 3 2).freeCount :=
  ⟨⟨rfl, rfl, rfl, rfl, rfl, rfl, rfl, steady_of rfl⟩, by decide +kernel⟩

theorem witness_FormatEnds_remounts :
    (formatHeading true false [] oneBank).Formatting (formatAt (.formatHeader 3 true 2) true false []) ⟨.ready, {}, true, false, []⟩
      (.formatHeader 3 true 2) ∧
    (formatHeading true false [] oneBank).dev.fc.Alone .command (.program 3 0 (.bankHeader 2 2 0)) ∧
    (∀ c, c ≠ 3 → ((formatHeading true false [] oneBank).dev.bank c).state = .bad) ∧
    (formatHeading true false [] oneBank).dev.reclaim.eraseList = [] :=
  ⟨⟨rfl, rfl, rfl, rfl, rfl, rfl, rfl, steady_of rfl⟩, alone_of ⟨rfl, rfl, rfl, rfl, rfl, rfl⟩, by decide +kernel, rfl⟩

theorem witness_FormatUnderWarning :
    ((formatState (formatAt .formatWait false false []) {} stored).dev.ex = some (formatAt .formatWait false false []) ∧
      (formatState (formatAt .formatWait false false []) {} stored).dev.fc.Free ∧
      (formatState (formatAt .formatWait false false []) {} stored).power.warning = false ∧
      1600 ≤ (formatState (formatAt .formatWait false false []) {} stored).power.vdd ∧ stored.dev.group = none) ∧
    ((formatErasing true).Formatting (formatAt (.formatErase 3 false) true true []) ⟨.ready, {}, true, true, []⟩ (.formatErase 3 false) ∧
      (formatErasing true).dev.group = none ∧ 1600 ≤ (formatErasing true).power.vdd) ∧
    ((warned (formatHeading false true [] stored)).dev.ex = some (formatAt (.formatHeader 3 false 2) true true []) ∧
      (warned (formatHeading false true [] stored)).dev.fc.Alone .command (.program 3 0 (.bankHeader 2 2 0)) ∧
      (warned (formatHeading false true [] stored)).power.warning = true) :=
  ⟨⟨rfl, free_of ⟨rfl, rfl, rfl, rfl, rfl, rfl⟩, rfl, by decide, rfl⟩, ⟨⟨rfl, rfl, rfl, rfl, rfl, rfl, rfl, steady_of rfl⟩, rfl, by decide⟩,
    rfl, alone_of ⟨rfl, rfl, rfl, rfl, rfl, rfl⟩, rfl⟩

/-! ### Line programs -/

theorem witness_ArrayOutcomes_program :
    (programming (executing .write fresh) recA 2).dev.fc.op = some (.command, .program 0 11 (recA.line 3 2)) ∧ (11 : Nat) < 128 ∧
    (programming (executing .write fresh) recA 2).flash.line 0 11 = Line.erased ∧
    (LineRead.asIntended = .asIntended) ∧ recA.line 3 2 = .commitLine 3 (.over [1, 2, 3, 4, 5]) 0 ∧
    { programming (executing .write fresh) recA 2 with flash := Flash.setLine [] 0 11 (.raw (lineOf [1])) }.flash.line 0 11 ≠
      Line.erased ∧
    (∀ who b line data, base.dev.fc.op ≠ some (who, .program b line data)) := by
  refine ⟨rfl, by decide, by decide +kernel, rfl, by decide +kernel, by decide +kernel, ?_⟩
  intros
  simp [base, Device.initial]

theorem witness_ArrayOutcomes_eraseAndDecay :
    (erasing stored).dev.fc.erase = some { requester := .reclaim, bank := 3, suspended := false, count := 0 } ∧
    EraseRemains.wellFormed [(0, .earlier), (127, .other (lineOf [1]))] = true ∧ base.dev.fc.erase = none ∧
    (recA.header 1).passesAt (3 : LineId).val = true ∧
    (∀ i, i < recA.span → stored.flash.line 0 ((3 : LineId).val + i) = recA.line 1 i) ∧ (0 : Fin 16).val + 2 < recA.span ∧
    payloadRead (recA.header 1) ((stored.flash.setLine 0 4 (.raw (lineOf [8]))).lines 0 3 recA.span) ≠ some recA.payload ∧
    (base.flash.line 0 3).headerAt 3 = none :=
  ⟨rfl, by decide, rfl, by decide, by decide +kernel, by decide, by decide +kernel, by decide +kernel⟩

theorem witness_FlashChangesOnlyByItsEvents :
    exec (.payloadDecay 0 3 0 (lineOf [8])) stored = .next (after (.payloadDecay 0 3 0 (lineOf [8])) stored) ∧
    (after (.payloadDecay 0 3 0 (lineOf [8])) stored).flash ≠ stored.flash := ⟨rfl, by decide +kernel⟩

/-- A record of 33 payload bytes whose second payload line would read erased. -/
def recSkip : RecordSpec :=
  { key := 1, kind := .data, cls := .plain, gid := none
    payload := List.replicate 16 1 ++ List.replicate 16 0xFF ++ [7] }

theorem witness_NextLineRequested :
    (programming (executing .write fresh) recA 0).Programming
      { executing .write fresh with stage := .writing (writerAt recA (.programming (span9 0))) }
      (writerAt recA (.programming (span9 0))) (span9 0) ∧
    (programming (executing .write fresh) recA 0).power.warning = false ∧ 0 < 1 ∧ 1 < recA.span ∧ recA.skips 1 = false ∧
    (programming (executing .write fresh) recSkip 1).Programming
      { executing .write fresh with stage := .writing (writerAt recSkip (.programming (span9 1))) }
      (writerAt recSkip (.programming (span9 1))) (span9 1) ∧
    3 < recSkip.span ∧ (∀ k, 1 < k → k < 3 → recSkip.skips k = true) ∧ recSkip.skips 3 = false := by
  refine ⟨programming_of _ _ _ (by decide +kernel) rfl, rfl, by decide, by decide, by decide, programming_of _ _ _ (by decide +kernel) rfl,
    by decide, ?_, by decide⟩
  intro k h1 h2
  obtain rfl : k = 2 := by omega
  decide

theorem witness_RecordCommitEndsCommand_write :
    ((programming (executing .write fresh) recA 2).Programming
      { executing .write fresh with stage := .writing (writerAt recA (.programming (span9 2))) }
      (writerAt recA (.programming (span9 2))) (span9 2) ∧ 2 + 1 = recA.span) ∧
    (programming (executing .raiseLock fresh) (lockRecord 1) 2).Programming
      { executing .raiseLock fresh with stage := .writing (writerAt (lockRecord 1) (.programming (span9 2))) }
      (writerAt (lockRecord 1) (.programming (span9 2))) (span9 2) ∧ 2 + 1 = (lockRecord 1).span ∧
    (executing .raiseLock fresh).desc.argument.toNat = 1 :=
  ⟨⟨programming_of _ _ _ (by decide +kernel) rfl, by decide⟩, programming_of _ _ _ (by decide +kernel) rfl, by decide, by decide⟩

theorem witness_RecordCommitEndsCommand_add :
    (programming (executing .add fresh) recB 2).Programming
      { executing .add fresh with stage := .writing (writerAt recB (.programming (span9 2))) }
      (writerAt recB (.programming (span9 2))) (span9 2) ∧ 2 + 1 = recB.span ∧ recB.payload.length = 8 ∧
    (programming { executing .add fresh with detached := true } recB 2).Programming
      { executing .add fresh with detached := true, stage := .writing (writerAt recB (.programming (span9 2))) }
      (writerAt recB (.programming (span9 2))) (span9 2) ∧
    (executing .add fresh).desc.buffer.toNat = (0 : Fin 4).val :=
  ⟨programming_of _ _ _ (by decide +kernel) rfl, by decide, by decide,
    programming_of { executing .add fresh with detached := true } _ _ (by decide +kernel) rfl, by decide⟩

/-- R108: a commit line that reads back valid with another spare byte; its bank with the suspect mark and its tail dead. -/
theorem witness_RecordCommitEndsCommand_readBack :
    (programming (executing .write fresh) recA 2).Programming
      { executing .write fresh with stage := .writing (writerAt recA (.programming (span9 2))) }
      (writerAt recA (.programming (span9 2))) (span9 2) ∧ 2 + 1 = recA.span ∧ (7 : Byte) ≠ 0 ∧
    ((programming (executing .write fresh) recA 2).dev.faultBank 0).bank 0 =
      { (programming (executing .write fresh) recA 2).dev.bank 0 with suspect := true, state := .full, dead := 0 + (125 - 9) } :=
  ⟨programming_of _ _ _ (by decide +kernel) rfl, by decide, by decide, by decide +kernel⟩

/-- A record that committed at line 9 of bank 0. -/
def committedAt9 (state : EntryState) (k : Key) : Committed :=
  { key := k, cls := .plain, state := state, loc := some { bank := 0, line := 9 }, length := 0, seq := 3, newBase := 3, increment := 0 }

theorem witness_DirectoryAfterCommit :
    (committedAt9 .live 3).loc = some { bank := 0, line := 9 } ∧ (committedAt9 .live 3).increment = 0 ∧
    stored.dev.entry (committedAt9 .live 3).key = none ∧ (stored.dev.entry (committedAt9 .tombstone 1).key).isSome = true := by
  decide +kernel

/-- The member record commits: a new key, a key with a member entry, a group that ends with it, and an ADD. -/
theorem witness_MemberCommitLeavesDirectory :
    (member .write recA 2).Programming
      { executing .write fresh with member := true, stage := .writing (writerAt recA (.programming (span9 2))) }
      (writerAt recA (.programming (span9 2))) (span9 2) ∧ 2 + 1 = recA.span ∧ (member .write recA 2).dev.group = some group ∧
    group.state = .opened ∧ group.endsWithMember = false ∧ group.deadline ≠ some 0 ∧ (member .write recA 2).dev.member recA.key = none ∧
    ((member .write { recA with key := 5 } 2).dev.member 5).map (fun m => (m.state, m.loc)) = some (.live, some { bank := 0, line := 3 }) ∧
    (inGroup { group with endsWithMember := true } (member .write recA 2)).dev.group = some { group with endsWithMember := true } ∧
    (inGroup { group with deadline := some 0 } (member .write recA 2)).dev.group = some { group with deadline := some 0 } ∧
    (inGroup { group with deadline := some 0, endsWithMember := true } (member .write recA 2)).dev.group =
      some { group with deadline := some 0, endsWithMember := true } ∧
    (member .add recB 2).Programming
      { executing .add fresh with member := true, stage := .writing (writerAt recB (.programming (span9 2))) }
      (writerAt recB (.programming (span9 2))) (span9 2) ∧ recB.payload.length = 8 :=
  ⟨⟨rfl, rfl, rfl, rfl, alone_of ⟨rfl, rfl, rfl, rfl, rfl, rfl⟩, by decide +kernel, steady_of rfl⟩, by decide, rfl, rfl, rfl, by decide,
    by decide +kernel, by decide +kernel, rfl, rfl, rfl,
    ⟨rfl, rfl, rfl, rfl, alone_of ⟨rfl, rfl, rfl, rfl, rfl, rfl⟩, by decide +kernel, steady_of rfl⟩, by decide⟩

/-- R120, R121: a deadline at 0 expires with the member command; where a port reset has ended the group too, no flag is set. -/
theorem test_held_end :
    (after (.lineProgramOutcome .asIntended) (inGroup { group with deadline := some 0 } (member .write recA 2))).dev.flags.groupExpired =
      true ∧
    (after (.lineProgramOutcome .asIntended)
      (inGroup { group with deadline := some 0, endsWithMember := true } (member .write recA 2))).dev.flags.groupExpired = false := by
  decide +kernel

/-- COMMIT_GROUP programming its record's commit line. -/
def committing : State :=
  inGroup { group with state := .committing } (programming (executing .commitGroup fresh) (commitRecord 1 1) 2)

theorem witness_GroupCommitShowsMembers :
    committing.Programming
      { executing .commitGroup fresh with stage := .writing (writerAt (commitRecord 1 1) (.programming (span9 2))) }
      (writerAt (commitRecord 1 1) (.programming (span9 2))) (span9 2) ∧ 2 + 1 = (commitRecord 1 1).span ∧
    committing.dev.group = some { group with state := .committing } ∧ (group.members.map fun m => m.key).Nodup ∧ committing.dev.ordered ∧
    group.records ≠ [] ∧ { group with records := [] }.records = [] ∧ (∀ m ∈ group.members, m.key ≠ 6) ∧
    committing.dev.entry 5 = none ∧ ((inGroup group stored).dev.entry 1).isSome = true := by
  refine ⟨⟨rfl, rfl, rfl, rfl, alone_of ⟨rfl, rfl, rfl, rfl, rfl, rfl⟩, by decide +kernel, steady_of rfl⟩, by decide, rfl, by decide, ?_,
    by decide, rfl, by decide, by decide +kernel, by decide +kernel⟩
  show List.Pairwise _ _
  decide +kernel

theorem witness_RecordAbandoned_opens :
    (programming (executing .write fresh) recA 1).Programming
      { executing .write fresh with stage := .writing (writerAt recA (.programming (span9 1))) }
      (writerAt recA (.programming (span9 1))) (span9 1) ∧ recA.line 3 1 ≠ .raw (lineOf [9]) ∧
    (programming (executing .write fresh) recA 1).dev.nextSeq ≤ 0xFFFFFF00 ∧
    (programming (executing .write fresh) recA 1).dev.nextEpoch ≤ 0xFFFFFF00 ∧
    (programming (executing .write fresh) recA 1).dev.openMark = none ∧
    (∀ c, ((programming (executing .write fresh) recA 1).dev.bank c).state = .active → c = (span9 1).bank) ∧
    2 ≤ (programming (executing .write fresh) recA 1).dev.freeCount ∧
    (programming (executing .write fresh) recA 1).dev.freeToOpen = some 1 :=
  ⟨programming_of _ _ _ (by decide +kernel) rfl, by decide, by decide +kernel, by decide +kernel, rfl, by decide +kernel, by decide +kernel,
    by decide +kernel⟩

/-- A record whose second attempt is under way. -/
def secondAttempt : Writer := { writerAt recA (.programming (span9 1)) with faulted := true }

theorem witness_RecordAbandoned_ends :
    (busy { executing .write fresh with stage := .writing secondAttempt } (.program 0 10 (recA.line 3 1)) stored).Programming
      { executing .write fresh with stage := .writing secondAttempt } secondAttempt (span9 1) ∧ secondAttempt.faulted = true ∧
    (warned (programming (executing .write fresh) recA 1)).power.warning = true :=
  ⟨⟨rfl, rfl, rfl, rfl, alone_of ⟨rfl, rfl, rfl, rfl, rfl, rfl⟩, by decide +kernel, steady_of rfl⟩, rfl, rfl⟩

theorem witness_RecordAbandoned_warning :
    (warned (programming (executing .write fresh) recA 1)).Programming
      { executing .write fresh with stage := .writing (writerAt recA (.programming (span9 1))) }
      (writerAt recA (.programming (span9 1))) (span9 1) ∧
    (warned (programming (executing .write fresh) recA 1)).power.warning = true ∧ 1 + 1 < recA.span :=
  ⟨⟨rfl, rfl, rfl, rfl, alone_of ⟨rfl, rfl, rfl, rfl, rfl, rfl⟩, by decide +kernel, steady_of rfl⟩, rfl, by decide⟩

/-- A WRITE opening bank 1 for its record. -/
def opening : State :=
  busy { executing .write fresh with stage := .writing (writerAt recA (.opening 1 2)) } (.program 1 1 (.openLine 2 0))
    (onDev (fun d => { d with banks := banksWith 124, openMark := some (1, .command), nextEpoch := 3 }) stored)

theorem witness_OpenLineOutcome_ok :
    opening.dev.ex = some { executing .write fresh with stage := .writing (writerAt recA (.opening 1 2)) } ∧
    opening.dev.fc.Alone .command (.program 1 1 (.openLine 2 0)) ∧ opening.flash.line 1 1 = Line.erased ∧ opening.dev.reclaim.steady ∧
    opening.power.warning = false ∧ (opening.dev.bank 1).state = .free ∧ opening.dev.nextSeq ≤ 0xFFFFFF00 :=
  ⟨rfl, alone_of ⟨rfl, rfl, rfl, rfl, rfl, rfl⟩, by decide +kernel, steady_of rfl, rfl, by decide +kernel, by decide +kernel⟩

/-- The open line's fault: the next open, and the end after a second fault. -/
theorem witness_OpenLineOutcome_fault :
    opening.dev.fc.Alone .command (.program 1 1 (.openLine 2 0)) ∧ (executing .write fresh).code ≠ .commitGroup ∧
    (executing .write fresh).member = false ∧ (opening.dev.bank 1).state = .free ∧ opening.dev.fitsNowhere recA.span ∧
    opening.dev.nextEpoch ≤ 0xFFFFFF00 ∧ 2 ≤ (withBank 1 (fullBank 125) opening).dev.freeCount ∧
    (withBank 1 (fullBank 125) opening).dev.freeToOpen = some 2 ∧ secondAttempt.faulted = true ∧ secondAttempt.fixedSeq = none :=
  ⟨alone_of ⟨rfl, rfl, rfl, rfl, rfl, rfl⟩, by decide, rfl, by decide +kernel, fitsNowhere_of (by decide +kernel), by decide +kernel,
    by decide +kernel, by decide +kernel, rfl, rfl⟩

/-! ### Reads -/

/-- A command reading the record at line 3 of bank 0, as stored and with an array that reads erased. -/
def readingRecord (c : CommandCode) (line : Nat) : State := busy (executing c (.reading { bank := 0, line := line })) (.read 0 line 3) stored

theorem witness_ReadOutcomeDelivers :
    (readingRecord .read 3).dev.ex = some (executing .read (.reading { bank := 0, line := 3 })) ∧
    (readingRecord .read 3).dev.fc.Alone .command (.read 0 3 3) ∧ (readingRecord .read 3).dev.reclaim.steady ∧
    (executing .read fresh).desc.buffer.toNat = (0 : Fin 4).val ∧
    recordPayload 3 ((readingRecord .read 3).flash.lines 0 3 3) = some [1, 2, 3, 4, 5] ∧
    recordPayload 3 ({ readingRecord .read 3 with flash := [] }.flash.lines 0 3 3) = none ∧
    ((readingRecord .read 3).dev.entry 1).map (fun e => e.loc) = some (some { bank := 0, line := 3 }) :=
  ⟨rfl, alone_of ⟨rfl, rfl, rfl, rfl, rfl, rfl⟩, steady_of rfl, by decide, by decide +kernel, by decide +kernel, by decide +kernel⟩

/-- A counter read outside a group: intact with a small sum, with too great a sum, damaged; and the sum's four placements. -/
theorem witness_AddOutcomePlacesSum :
    (readingRecord .add 6).dev.ex = some (executing .add (.reading { bank := 0, line := 6 })) ∧
    (readingRecord .add 6).dev.fc.Alone .command (.read 0 6 3) ∧ (readingRecord .add 6).power.warning = false ∧
    recordPayload 6 ((readingRecord .add 6).flash.lines 0 6 3) = some recB.payload ∧ natOf recB.payload + 1 < 2 ^ 64 ∧
    2 ^ 64 ≤ natOf (List.replicate 8 0xFF) + (executing .add fresh).desc.argument.toNat ∧
    recordPayload 6 ({ readingRecord .add 6 with flash := [] }.flash.lines 0 6 3) = none ∧ (readingRecord .add 6).dev.fitsIn 0 3 ∧
    (readingRecord .add 6).dev.nextSeq ≤ 0xFFFFFF00 ∧
    ((busy (executing .add (.reading { bank := 0, line := 6 })) (.read 0 6 3) writeFull).dev.fitsNowhere 3 ∧
      2 ≤ writeFull.dev.freeCount ∧ writeFull.dev.freeToOpen = some 1) ∧
    ((busy (executing .add (.reading { bank := 0, line := 6 })) (.read 0 6 3) writeNoSpace).dev.fitsNowhere 3 ∧
      writeNoSpace.dev.freeCount < 2 ∧ writeNoSpace.dev.store = .ready) :=
  ⟨rfl, alone_of ⟨rfl, rfl, rfl, rfl, rfl, rfl⟩, rfl, by decide +kernel, by decide +kernel, by decide +kernel, by decide +kernel,
    ⟨by decide +kernel, by decide +kernel⟩, by decide +kernel, ⟨fitsNowhere_of (by decide +kernel), by decide +kernel, by decide +kernel⟩,
    fitsNowhere_of (by decide +kernel), by decide +kernel, by decide +kernel⟩

/-- A member ADD whose counter is the group's. -/
def memberAdd : State :=
  inGroup { group with members := group.members.map fun m => { m with key := 2, cls := .counter, length := 8, loc := some ⟨0, 6⟩ } }
    (busy { executing .add (.reading { bank := 0, line := 6 }) with desc := { key := 2, argument := 1 }, member := true } (.read 0 6 3) stored)

/-- The Directory's counter of key 2, and the member's. -/
theorem witness_AddOutcomePlacesSum_damaged :
    (stored.dev.entry 2).map (fun e => (e.loc, e.state)) = some (some { bank := 0, line := 6 }, .live) ∧ stored.dev.member 2 = none ∧
    (memberAdd.dev.member 2).map (fun m => (m.loc, m.state)) = some (some { bank := 0, line := 6 }, .live) ∧
    memberAdd.dev.reclaim.victim = none ∧ memberAdd.dev.fc.Alone .command (.read 0 6 3) ∧
    (∀ g, memberAdd.dev.group = some g → g.endsWithMember = false ∧ g.deadline ≠ some 0) := by
  refine ⟨by decide +kernel, by decide +kernel, by decide +kernel, rfl, alone_of ⟨rfl, rfl, rfl, rfl, rfl, rfl⟩, ?_⟩
  intro g hg
  simp only [memberAdd, inGroup, onDev, Option.some.injEq] at hg
  subst hg
  exact ⟨rfl, by decide⟩

theorem witness_RecordReadsBack :
    (recA.header 1).passesAt 3 = true ∧ (recA.header 1).passesAt 125 = true ∧ stored.flash.line 0 3 = recA.line 1 0 ∧
    wellFormedPayload (recA.header 1) recA.payload = true ∧ (∀ i, i < recA.span → stored.flash.line 0 (3 + i) = recA.line 1 i) ∧
    payloadRead (recA.header 1) ((stored.flash.setLine 0 4 (.raw (lineOf [8]))).lines 0 3 recA.span) ≠ some recA.payload ∧
    (∀ k z, (stored.flash.setLine 0 5 Line.erased).line 0 (3 + (recA.span - 1)) ≠ .commitLine 1 k z) := by
  refine ⟨by decide, by decide, by decide +kernel, by decide, by decide +kernel, by decide +kernel, ?_⟩
  intro k z
  have h : (stored.flash.setLine 0 5 Line.erased).line 0 (3 + (recA.span - 1)) = Line.erased := by decide +kernel
  rw [h]
  simp [Line.erased]

/-! ### The Flash Controller -/

/-- The erase of bank `b` by the Reclaim Engine, with a suspension count. -/
def eraseOp (b : BankId) (suspended : Bool) (count : Nat) : EraseOp := { requester := .reclaim, bank := b, suspended := suspended, count := count }

/-- A WRITE and a READ of bank 0 that meet an erase of bank 3, counts 7 and 8, and of bank 0. -/
theorem witness_ErasesSuspended_met :
    (erasing (head .write writeKey3 stored)).Turn (posted .write writeKey3) [] ∧
    (erasing (head .write writeKey3 stored)).dev.refusalFor (posted .write writeKey3) = none ∧
    (erasing (head .write writeKey3 stored)).dev.fc.op = none ∧ (erasing (head .write writeKey3 stored)).dev.fc.erase = some (eraseOp 3 false 0) ∧
    (erasing (head .write writeKey3 stored)).dev.fitsIn 0 3 ∧ stored.cfg.suspendEnable = true ∧ (eraseOp 3 false 7).count < 8 ∧
    8 ≤ (eraseOp 3 false 8).count ∧ (erasing (head .read { key := 1 } stored)).Turn (posted .read { key := 1 }) [] ∧
    (erasing (head .read { key := 1 } stored)).dev.refusalFor (posted .read { key := 1 }) = none ∧
    ((erasing (head .read { key := 1 } stored)).dev.entry 1).map (fun e => e.loc) = some (some { bank := 0, line := 3 }) ∧ (0 : BankId) ≠ 3 :=
  ⟨turn_of (by decide +kernel) rfl, by decide +kernel, rfl, rfl, ⟨by decide +kernel, by decide +kernel⟩, rfl, by decide, by decide,
    turn_of (by decide +kernel) rfl, by decide +kernel, by decide +kernel, by decide⟩

/-- The record's line beside the SUSPENDED erase. -/
def beside (k : Nat) : State := onDev (fun d => { d with fc := { d.fc with erase := some (eraseOp 3 true 1) } }) (programming (executing .write fresh) recA k)

theorem witness_ErasesSuspended_beside :
    (beside 0).LineInProgress { executing .write fresh with stage := .writing (writerAt recA (.programming (span9 0))) }
      (writerAt recA (.programming (span9 0))) (span9 0) ∧ (beside 0).power.warning = false ∧ (beside 0).dev.fc.erase = some (eraseOp 3 true 1) ∧
    0 < 1 ∧ 1 < recA.span ∧ recA.skips 1 = false ∧
    (beside 2).LineInProgress { executing .write fresh with stage := .writing (writerAt recA (.programming (span9 2))) }
      (writerAt recA (.programming (span9 2))) (span9 2) ∧ 2 + 1 = recA.span :=
  ⟨⟨rfl, rfl, rfl, rfl, rfl, by decide +kernel, steady_of rfl⟩, rfl, rfl, by decide, by decide, by decide,
    ⟨rfl, rfl, rfl, rfl, rfl, by decide +kernel, steady_of rfl⟩, by decide⟩

/-- The same line with a request of the Reclaim Engine waiting, the fairness count at 15 and at 16. -/
def contended (fairness : Nat) : State :=
  onDev (fun d => { d with fc := { d.fc with waitReclaim := some (.read 3 3 125), fairness := fairness } })
    (programming (executing .write fresh) recA 0)

/-- The Reclaim Engine's erase with a command's read waiting. -/
def eraseContended : State := onDev (fun d => { d with fc := { d.fc with waitCommand := some (.read 3 3 3), fairness := 15 } }) (erasing stored)

theorem witness_GrantOrderAndFairness :
    (contended 15).LineInProgress { executing .write fresh with stage := .writing (writerAt recA (.programming (span9 0))) }
      (writerAt recA (.programming (span9 0))) (span9 0) ∧ (contended 15).dev.fc.waitReclaim = some (.read 3 3 125) ∧
    (contended 15).dev.fc.fairness < 16 ∧ 16 ≤ (contended 16).dev.fc.fairness ∧ (∀ b, Request.read 3 3 125 ≠ .erase b) ∧
    eraseContended.dev.Steady ∧ eraseContended.dev.fc.erase = some (eraseOp 3 false 0) ∧ eraseContended.dev.reclaim.job = .erase 3 ∧
    eraseContended.dev.fc.waitCommand = some (.read 3 3 3) ∧ (∀ x, eraseContended.dev.ex = some x → x.format = none) ∧
    eraseContended.dev.generation = some 1 ∧ eraseContended.dev.fc.fairness < 16 :=
  ⟨⟨rfl, rfl, rfl, rfl, rfl, by decide +kernel, steady_of rfl⟩, rfl, by decide +kernel, by decide +kernel, by simp,
    steadyDevice_of (by decide +kernel), rfl, rfl, rfl, (fun _ h => nomatch h), rfl, by decide +kernel⟩

/-! ### The Reclaim Engine -/

theorem witness_ReclaimErasesAndFrees :
    (erasing stored).dev.Steady ∧ (erasing stored).dev.generation = some 1 ∧ (erasing stored).dev.reclaim.attempt = 0 ∧
    lineOf [1] ≠ erasedBytes ∧
    (reclaiming { job := .eraseHeader 3 2 } (some (.program 3 0 (.bankHeader 1 2 0))) stored).dev.Steady ∧
    (reclaiming { job := .eraseHeader 3 2 } (some (.program 3 0 (.bankHeader 1 2 0))) stored).dev.fc.Alone .reclaim
      (.program 3 0 (.bankHeader 1 2 0)) ∧
    (reclaiming { job := .eraseHeader 3 2 } (some (.program 3 0 (.bankHeader 1 2 0))) stored).flash.line 3 0 = Line.erased ∧
    (base.dev.bank 3).eraseCount = some 1 ∧ ((withBank 3 BankEntry.initial base).dev.bank 3).eraseCount = none :=
  ⟨steadyDevice_of (by decide +kernel), rfl, rfl, by decide, steadyDevice_of (by decide +kernel), alone_of ⟨rfl, rfl, rfl, rfl, rfl, rfl⟩,
    by decide +kernel, by decide +kernel, by decide +kernel⟩

/-- A WRITE that waits for space in a store that can make none. -/
def waiting : State :=
  onDev (fun d => { d with ex := some { executing .write fresh with stage := .writing (writerAt recA .waitSpace) } }) (allFull stored)

theorem witness_ReclaimTakesUpWork_erases :
    ((warned base).dev.AtRest ∧ (warned base).power.warning = true) ∧ base.dev.Steady ∧ base.dev.fc.Free ∧ base.power.warning = false ∧
    base.dev.store = .ready ∧ base.dev.reclaim.job = .idle ∧ base.dev.generation = some 1 ∧
    (withBank 3 BankEntry.initial base).dev.banksIn .blank = [3] ∧ base.dev.banksIn .blank = [] ∧
    (onDev (fun d => { d with reclaim := { eraseList := [5, 6] } }) base).dev.reclaim.eraseList = [5, 6] :=
  ⟨⟨rest_of (by decide +kernel), rfl⟩, steadyDevice_of (by decide +kernel), free_of (by decide +kernel), rfl, rfl, rfl, rfl,
    by decide +kernel, by decide +kernel, rfl⟩

theorem witness_ReclaimTakesUpWork_reports :
    waiting.dev.fc.Free ∧ waiting.power.warning = false ∧ waiting.dev.store = .ready ∧ waiting.dev.reclaim.job = .idle ∧
    waiting.dev.banksIn .blank = [] ∧ waiting.dev.openMark = none ∧
    waiting.dev.ex = some { executing .write fresh with stage := .writing (writerAt recA .waitSpace) } ∧
    waiting.dev.fitsNowhere recA.span ∧ waiting.dev.freeCount < 2 ∧
    (∀ b, (waiting.dev.bank b).state = .full → (waiting.dev.bank b).dead = 0) :=
  ⟨free_of (by decide +kernel), rfl, rfl, rfl, by decide +kernel, rfl, rfl, fitsNowhere_of (by decide +kernel), by decide +kernel,
    by decide +kernel⟩

/-- No FREE bank, one FULL bank with a dead line, suspect or not, and FULL banks with 17 and 18. -/
def dirty (suspect : Bool) : State :=
  withBank 5 { fullBank 1 with suspect := suspect } <| withBank 6 (fullBank 17) <| withBank 7 (fullBank 18) <|
    allFull base

theorem witness_ReclaimTakesUpWork_space :
    (dirty true).dev.Steady ∧ (dirty true).dev.fc.Free ∧ (dirty true).power.warning = false ∧ (dirty true).dev.store = .ready ∧
    (dirty true).dev.causes.commit = false ∧ (dirty true).dev.reclaim = {} ∧ (dirty true).dev.banksIn .blank = [] ∧
    (dirty true).dev.freeCount ≤ (dirty true).cfg.startThreshold ∧ (dirty true).dev.spaceVictim = some 5 ∧
    (dirty false).dev.spaceVictim = some 7 :=
  ⟨steadyDevice_of (by decide +kernel), free_of (by decide +kernel), rfl, rfl, rfl, rfl, by decide +kernel, by decide +kernel,
    by decide +kernel, by decide +kernel⟩

/-- Bank 5 as a victim whose plan read is in progress, under WARNING, and one held SELECTING. -/
def planning : Victim :=
  { bank := 5, point := .selecting, walk := [], cursor := 0, lower := [], grouped := [], forRequest := false, committedSince := [] }

theorem witness_ReclaimTakesUpWork_selecting :
    (warned (reclaiming { job := .planRead, victim := some planning } (some (.read 5 3 125)) base)).dev.Steady ∧
    (warned (reclaiming { job := .planRead, victim := some planning } (some (.read 5 3 125)) base)).power.warning = true ∧
    (warned (reclaiming { job := .planRead, victim := some planning } (some (.read 5 3 125)) base)).dev.fc.Alone .reclaim (.read 5 3 125) ∧
    (reclaiming { victim := some planning } none base).dev.Steady ∧ (reclaiming { victim := some planning } none base).dev.fc.Free ∧
    (reclaiming { victim := some planning } none base).dev.store = .ready ∧
    (reclaiming { victim := some planning } none base).dev.banksIn .blank = [] ∧ planning.point = .selecting :=
  ⟨steadyDevice_of (by decide +kernel), rfl, alone_of ⟨rfl, rfl, rfl, rfl, rfl, rfl⟩, steadyDevice_of (by decide +kernel),
    free_of (by decide +kernel), rfl, by decide +kernel, rfl⟩

/-- A victim whose plan read ends in the condition NORMAL: bank 0, with two records, one of them of key 1's entry. -/
theorem witness_ReclaimTakesUpWork_plan :
    (reclaiming { job := .planRead, victim := some { planning with bank := 0 } } (some (.read 0 3 125)) stored).dev.Steady ∧
    (reclaiming { job := .planRead, victim := some { planning with bank := 0 } } (some (.read 0 3 125)) stored).power.warning = false ∧
    (reclaiming { job := .planRead, victim := some { planning with bank := 0 } } (some (.read 0 3 125)) stored).dev.fc.Alone .reclaim
      (.read 0 3 125) ∧
    (parseJournal (stored.flash.lines 0 3 125)).records.map (fun r => (r.line, r.verdict)) = [(3, .intact), (6, .intact)] ∧
    (stored.dev.entry 1).isSome = true ∧ (onDev (fun d => { d with commits := [{ gid := 1, loc := ⟨3, 3⟩, memberCount := 1, remaining := 1 }] })
      stored).dev.commits ≠ [] :=
  ⟨steadyDevice_of (by decide +kernel), rfl, alone_of ⟨rfl, rfl, rfl, rfl, rfl, rfl⟩, by decide +kernel, by decide +kernel, by decide⟩

/-- R138, R139: the plan read makes the walk list, and the record of key 1's entry is read whole. -/
theorem test_plan_read :
    (after .multiLineReadOutcome (reclaiming { job := .planRead, victim := some { planning with bank := 0 } } (some (.read 0 3 125))
      stored)).dev.fc.op = some (.reclaim, .read 0 3 3) := by decide +kernel

/-- The second erase of bank 3, with few and with many other BAD banks. -/
def secondErase (s : State) : State := onDev (fun d => { d with reclaim := { d.reclaim with attempt := 1 } }) (erasing s)

theorem witness_BadBankMapped :
    (secondErase oneBank).dev.Steady ∧ (secondErase oneBank).dev.reclaim.attempt = 1 ∧ (secondErase oneBank).dev.fc.erase = some (eraseOp 3 false 0) ∧
    ((secondErase oneBank).dev.emptyInto 3 .bad).usable.length < 8 ∧ (secondErase oneBank).dev.store = .ready ∧
    (secondErase stored).dev.Steady ∧ 8 ≤ ((secondErase stored).dev.emptyInto 3 .bad).usable.length ∧
    ((secondErase stored).dev.emptyInto 3 .bad).badCount ≤ 8 ∧ (secondErase stored).dev.nextSeq ≤ 0xFFFFFF00 ∧
    ((secondErase stored).dev.emptyInto 3 .bad).fitsIn 0 (mapRecord [3]).span ∧ ((secondErase stored).dev.emptyInto 3 .bad).banksIn .bad = [3] ∧
    (reclaiming { job := .eraseHeader 3 2 } (some (.program 3 0 (.bankHeader 1 2 0))) stored).dev.reclaim.attempt = 0 ∧
    Line.bankHeader 1 2 0 ≠ .raw (lineOf [1]) :=
  ⟨steadyDevice_of (by decide +kernel), rfl, rfl, by decide +kernel, rfl, steadyDevice_of (by decide +kernel), by decide +kernel,
    by decide +kernel, by decide +kernel, ⟨by decide +kernel, by decide +kernel⟩, by decide +kernel, rfl, by decide⟩

/-- The lock record's entry, and a repair that is due. -/
def lockEntry (state : EntryState) : DirEntry :=
  { key := 0xFF01, cls := .plain, state := state, loc := none, length := 1, seq := 1, base := 1, stale := 0, copies := 0 }
def repairDue (state : EntryState) : State :=
  onDev (fun d => { d with dir := [lockEntry state], reclaim := { repairDue := true } }) stored

/-- The same with a RAISE_LOCK executing. -/
def repairDueRaising : State :=
  busy { executing .raiseLock fresh with stage := .writing (writerAt (lockRecord 1) (.programming (span9 0))) }
    (.program 0 9 ((lockRecord 1).line 3 0)) (repairDue .damaged)

theorem witness_SystemRecordsProgrammed_due :
    (repairDue .damaged).dev.Steady ∧ (repairDue .damaged).power.warning = false ∧ (repairDue .damaged).dev.store = .ready ∧
    (repairDue .damaged).dev.reclaim = { repairDue := true } ∧ (repairDue .damaged).dev.entry 0xFF01 = some (lockEntry .damaged) ∧
    (repairDue .damaged).dev.ex = none ∧ (repairDue .damaged).dev.fc.Free ∧ (repairDue .damaged).dev.fitsIn 0 3 ∧
    (repairDue .live).dev.entry 0xFF01 = some (lockEntry .live) ∧ repairDueRaising.dev.Steady ∧ repairDueRaising.dev.AtRest ∧
    repairDueRaising.dev.ex.any (fun x => decide (x.code = .raiseLock)) = true :=
  ⟨steadyDevice_of (by decide +kernel), rfl, rfl, rfl, by decide +kernel, rfl, free_of (by decide +kernel),
    ⟨by decide +kernel, by decide +kernel⟩, by decide +kernel, steadyDevice_of (by decide +kernel), rest_of (by decide +kernel),
    by decide +kernel⟩

/-- A bank map that is due. -/
def mapDue (s : State) : State := onDev (fun d => { d with reclaim := { mapDue := true } }) s

theorem witness_SystemRecordsProgrammed_map :
    (mapDue stored).dev.Steady ∧ (mapDue stored).dev.fc.Free ∧ (mapDue stored).power.warning = false ∧ (mapDue stored).dev.store = .ready ∧
    (mapDue stored).dev.reclaim = { mapDue := true } ∧ (mapDue oneBank).dev.usable.length < 8 ∧ (mapDue oneBank).dev.store = .ready ∧
    8 ≤ (mapDue stored).dev.usable.length ∧ (mapDue stored).dev.badCount ≤ 8 ∧
    0xFFFFFF00 < (onDev (fun d => { d with nextSeq := 0xFFFFFF01 }) (mapDue stored)).dev.nextSeq ∧
    (mapDue stored).dev.nextSeq ≤ 0xFFFFFF00 ∧ (mapDue (withBank 5 { BankEntry.initial with state := .bad } stored)).dev.banksIn .bad = [5] ∧
    (mapDue (withBank 5 { BankEntry.initial with state := .bad } stored)).dev.fitsIn 0 (mapRecord [5]).span :=
  ⟨steadyDevice_of (by decide +kernel), free_of (by decide +kernel), rfl, rfl, rfl, by decide +kernel, rfl, by decide +kernel,
    by decide +kernel, by decide +kernel, by decide +kernel, by decide +kernel, ⟨by decide +kernel, by decide +kernel⟩⟩

/-- A lock repair, or a bank map, programming line `k` of its record. -/
def systemRecord (job : Writer → ReclaimJob) (w : Writer) (k : Nat) : State :=
  reclaiming { job := job { w with stage := .programming (span9 k) } } (some (.program 0 (9 + k) (w.record.line 3 k))) stored

theorem witness_SystemRecordsProgrammed_lines :
    (systemRecord .lockRepair (writerAt (lockRecord 1) .waitOpen) 2).dev.Steady ∧
    (systemRecord .bankMap (writerAt (mapRecord [5]) .waitOpen) 2).dev.Steady ∧
    (systemRecord .bankMap (writerAt (mapRecord [5]) .waitOpen) 2).dev.fc.Alone .reclaim (.program 0 (9 + 2) ((mapRecord [5]).line 3 2)) ∧
    stored.flash.line 0 (9 + 2) = Line.erased ∧ 2 + 1 = (mapRecord [5]).span ∧ 2 + 1 = (lockRecord 1).span ∧ (lockRecord 1).kind = .data ∧
    { writerAt (lockRecord 1) .waitOpen with faulted := true }.faulted = true ∧ (lockRecord 1).line 3 1 ≠ .raw (lineOf [9]) ∧
    stored.dev.store = .ready :=
  ⟨steadyDevice_of (by decide +kernel), steadyDevice_of (by decide +kernel), alone_of ⟨rfl, rfl, rfl, rfl, rfl, rfl⟩, by decide +kernel,
    by decide, by decide, rfl, rfl, by decide, rfl⟩

/-- The copy of key 1's record, from bank 3, programming its commit line. -/
def copying : CopyJob :=
  { line := 3, header := recA.header 1, owner := .directory
    writer := { record := recA, fixedSeq := some 1, faulted := false, stage := .programming { bank := 0, line := 9, seq := 1, at_ := 2 } } }

/-- Key 1's entry, located in bank 3. -/
def inBank3 : DirEntry :=
  { key := 1, cls := .plain, state := .live, loc := some { bank := 3, line := 3 }, length := 5, seq := 1, base := 1, stale := 0, copies := 0 }

def copyState : State :=
  reclaiming { job := .copy copying, victim := some victim } (some (.program 0 11 (recA.line 1 2)))
    (onDev (fun d => { d with dir := [inBank3] }) (withBank 3 { fullBank 1 with state := .reclaiming } stored))

theorem witness_CopyVerifies_directory :
    copyState.dev.Steady ∧ copyState.power.warning = false ∧ copyState.dev.reclaim.job = .copy copying ∧ 2 + 1 = recA.span ∧
    copyState.dev.reclaim.victim = some victim ∧ victim.cursor + 1 = victim.walk.length ∧
    copyState.dev.fc.Alone .reclaim (.program 0 (9 + 2) (recA.line 1 2)) ∧ copyState.flash.line 0 (9 + 2) = Line.erased ∧
    copyState.dev.entry copying.header.key = some inBank3 ∧
    true = decide (inBank3.loc = some { bank := victim.bank, line := copying.line } ∧ inBank3.seq = copying.header.seq) ∧
    false = decide ({ inBank3 with seq := 4 }.loc = some { bank := victim.bank, line := copying.line } ∧
      { inBank3 with seq := 4 }.seq = copying.header.seq) ∧ (copyState.dev.bank victim.bank).eraseCount = some 1 :=
  ⟨steadyDevice_of (by decide +kernel), rfl, rfl, by decide, rfl, rfl, alone_of ⟨rfl, rfl, rfl, rfl, rfl, rfl⟩, by decide +kernel,
    by decide +kernel, by decide, by decide, by decide +kernel⟩

/-- The faults of a copy: at a payload line and at the commit line, the first and the second. -/
theorem witness_RecordAbandoned_copy :
    copyState.dev.Steady ∧ copyState.dev.reclaim.job = .copy copying ∧
    copyState.dev.fc.Alone .reclaim (.program 0 (9 + 2) (recA.line 1 2)) ∧ copyState.flash.line 0 (9 + 2) = Line.erased ∧
    copying.writer.fixedSeq ≠ none ∧ recA.line 1 2 ≠ .raw (lineOf [9]) ∧ 2 + 1 = recA.span ∧ copying.writer.faulted = false ∧
    copyState.dev.nextEpoch ≤ 0xFFFFFF00 ∧ copyState.dev.openMark = none ∧ (∀ a, (copyState.dev.bank a).state = .active → a = 0) ∧
    copyState.dev.freeToOpen = some 1 ∧ { copying.writer with faulted := true }.faulted = true ∧ copyState.dev.store = .ready ∧
    copyState.dev.reclaim.request = none :=
  ⟨steadyDevice_of (by decide +kernel), rfl, alone_of ⟨rfl, rfl, rfl, rfl, rfl, rfl⟩, by decide +kernel, by decide, by decide, by decide, rfl,
    by decide +kernel, rfl, by decide +kernel, by decide +kernel, rfl, rfl, rfl⟩

/-- A copy that opens bank 1, with bank 0 ACTIVE and almost full. -/
def copyOpening (faulted : Bool) : State :=
  reclaiming
    { job := .copy { copying with writer := { copying.writer with faulted := faulted, stage := .opening 1 2 } }, victim := some victim }
    (some (.program 1 1 (.openLine 2 0)))
    (onDev (fun d => { d with banks := banksWith 123, openMark := some (1, .reclaim), nextEpoch := 3 }) stored)

theorem witness_OpenLineOutcome_copy (faulted : Bool) :
    (copyOpening faulted).dev.Steady ∧ (copyOpening faulted).power.warning = false ∧
    (copyOpening faulted).dev.fc.Alone .reclaim (.program 1 1 (.openLine 2 0)) ∧ stored.flash.line 1 1 = Line.erased ∧
    ((copyOpening faulted).dev.bank 1).state = .free ∧ (copyOpening faulted).dev.store = .ready ∧
    (copyOpening faulted).dev.reclaim.request = none ∧ (copyOpening faulted).dev.nextEpoch ≤ 0xFFFFFF00 ∧
    (copyOpening faulted).dev.fitsNowhere recA.span ∧ (withBank 1 (fullBank 125) (copyOpening faulted)).dev.freeToOpen = some 2 :=
  ⟨⟨(fun _ h => nomatch h), fun w h hs => by cases h; cases hs⟩, rfl, alone_of ⟨rfl, rfl, rfl, rfl, rfl, rfl⟩, by decide +kernel,
    by cases faulted <;> decide +kernel, rfl, rfl, by cases faulted <;> decide +kernel,
    fitsNowhere_of (by cases faulted <;> decide +kernel), by cases faulted <;> decide +kernel⟩

/-- The copy of a member record of group 1, and of a COMMIT record. -/
def memberCopy : CopyJob := { copying with owner := .member, header := { copying.header with gid := some 1 } }
def commitEntry3 : CommitEntry := { gid := 1, loc := { bank := 3, line := 3 }, memberCount := 1, remaining := 1 }
def withJob (c : CopyJob) (s : State) : State := onDev (fun d => { d with reclaim := { d.reclaim with job := .copy c } }) s
def member1 (loc : Location) : MemberEntry :=
  { key := 1, cls := .plain, state := .live, length := 5, seq := 1, loc := some loc, staleIncrement := 0 }

theorem witness_CopyVerifies_member :
    (withJob memberCopy copyState).dev.Steady ∧ memberCopy.header.gid = some 1 ∧
    (inGroup { group with members := [member1 ⟨3, 3⟩] } (withJob memberCopy copyState)).dev.member 1 = some (member1 ⟨3, 3⟩) ∧
    (member1 ⟨3, 3⟩).loc = some { bank := victim.bank, line := memberCopy.line } ∧ (member1 ⟨3, 3⟩).seq = memberCopy.header.seq ∧
    (member1 ⟨0, 6⟩).loc ≠ some { bank := victim.bank, line := memberCopy.line } ∧ group.id = 1 ∧
    (∀ g, (withJob memberCopy copyState).dev.group = some g → g.id ≠ 1) ∧ 1 ∈ { victim with committedSince := [1] }.committedSince ∧
    1 ∉ victim.committedSince ∧ { memberCopy with owner := .commitTable }.owner = .commitTable :=
  ⟨steadyDevice_of (by decide +kernel), rfl, by decide +kernel, by decide, by decide, by decide, rfl, (fun _ h => nomatch h),
    by decide, by decide, rfl⟩

/-- Bank 3 as a victim, its record being read whole for its owner. -/
def copyReading (owner : CopyOwner) (f : Flash) : State :=
  { copyState with
    flash := f
    dev := { copyState.dev with
      reclaim := { copyState.dev.reclaim with job := .copyRead owner }, fc := { op := some (.reclaim, .read 3 3 3) } } }

/-- The record in bank 3 as it was programmed, and with its payload decayed. -/
def sound : Flash := placed 3 3 1 recA stored.flash
def decayed3 : Flash := sound.setLine 3 4 (.raw (lineOf [8]))

/-- The rows of R139: an entry's record that is LIVE, a TOMBSTONE with more and with fewer stale records than the plan counted, DAMAGED; a
member's that is LIVE or DAMAGED; a COMMIT record; and past the last record. -/
theorem witness_CopyVerifies_walk :
    copyState.dev.reclaim.victim = some victim ∧ victim.walk[victim.cursor]? = some { line := 3, header := recA.header 1, verdict := .valid } ∧
    copyState.dev.ordered ∧ copyState.dev.entry 1 = some inBank3 ∧ inBank3.loc = some ⟨victim.bank, 3⟩ ∧ inBank3.seq = (recA.header 1).seq ∧
    (∀ state, { inBank3 with state := state }.state = state) ∧ countOf { victim with lower := [(1, 2)] }.lower 1 < 3 ∧
    ¬countOf { victim with lower := [(1, 2)] }.lower 1 < 2 ∧
    (inGroup { group with members := [member1 ⟨3, 3⟩] } (onDev (fun d => { d with dir := [] }) copyState)).dev.member 1 =
      some (member1 ⟨3, 3⟩) ∧
    { member1 ⟨3, 3⟩ with state := .damaged }.state = .damaged ∧ [commitEntry3].filter (fun y => decide (y.loc = ⟨3, 3⟩)) = [commitEntry3] ∧
    { victim with cursor := 1 }.walk.length ≤ { victim with cursor := 1 }.cursor ∧ (copyState.dev.bank 3).eraseCount = some 1 := by
  refine ⟨rfl, rfl, ?_, by decide +kernel, rfl, rfl, fun _ => rfl, by decide, by decide, by decide +kernel, rfl, by decide, by decide,
    by decide +kernel⟩
  show List.Pairwise _ _
  decide +kernel

/-- A record read whole: it fits the ACTIVE bank; it fits nowhere and a bank is opened, the engine halts, or it waits on the command's
open. -/
theorem witness_CopyVerifies_read :
    (copyReading .directory sound).dev.Steady ∧ (copyReading .directory sound).dev.fc.Alone .reclaim (.read 3 3 3) ∧
    recordPayload 3 (sound.lines 3 3 3) = some [1, 2, 3, 4, 5] ∧ (copyReading .directory sound).dev.fitsIn 0 recA.span ∧
    (onDev (fun d => { d with banks := banksWith 123 }) (copyReading .directory sound)).dev.fitsNowhere recA.span ∧
    (onDev (fun d => { d with banks := banksWith 123 }) (copyReading .directory sound)).dev.freeToOpen = some 1 ∧
    (copyReading .directory sound).dev.nextEpoch ≤ 0xFFFFFF00 ∧ (allFull (copyReading .directory sound)).dev.fitsNowhere recA.span ∧
    (allFull (copyReading .directory sound)).dev.freeToOpen = none ∧ (allFull (copyReading .directory sound)).dev.store = .ready ∧
    (allFull (copyReading .directory sound)).dev.reclaim.request = none ∧
    (Request.program 1 1 (.openLine 2 0) ≠ .erase 1 ∧ (copyReading .directory sound).dev.ex = none) :=
  ⟨steadyDevice_of (by decide +kernel), alone_of ⟨rfl, rfl, rfl, rfl, rfl, rfl⟩, by decide +kernel, ⟨by decide +kernel, by decide +kernel⟩,
    fitsNowhere_of (by decide +kernel), by decide +kernel, by decide +kernel, fitsNowhere_of (by decide +kernel), by decide +kernel, rfl, rfl,
    by decide, rfl⟩

/-- A record read whole and found damaged: an entry's, a member's, and a COMMIT record. -/
theorem witness_CopyVerifies_damaged :
    (copyReading .directory decayed3).dev.Steady ∧ (copyReading .directory decayed3).dev.fc.Alone .reclaim (.read 3 3 3) ∧
    recordPayload 3 (decayed3.lines 3 3 3) = none ∧ (copyReading .directory decayed3).dev.ordered ∧
    (copyReading .directory decayed3).dev.member 1 = none ∧ (copyReading .directory decayed3).dev.commits = [] ∧
    (copyReading .directory decayed3).dev.entry 1 = some inBank3 ∧
    (inGroup { group with members := [member1 ⟨3, 3⟩] } (onDev (fun d => { d with dir := [] }) (copyReading .member decayed3))).dev.member 1 =
      some (member1 ⟨3, 3⟩) ∧
    (onDev (fun d => { d with dir := [] }) (copyReading .member decayed3)).dev.entry 1 = none ∧
    (copyReading .commitTable decayed3).dev.fitsIn 0 (commitRecord 1 1).span := by
  refine ⟨steadyDevice_of (by decide +kernel), alone_of ⟨rfl, rfl, rfl, rfl, rfl, rfl⟩, by decide +kernel, ?_, by decide +kernel, rfl,
    by decide +kernel, by decide +kernel, by decide +kernel, ⟨by decide +kernel, by decide +kernel⟩⟩
  show List.Pairwise _ _
  decide +kernel

/-- R140: a record found damaged loses its entry's location, and its three lines join the victim's one dead line. -/
theorem test_copy_read_damaged :
    (after .multiLineReadOutcome (copyReading .directory decayed3)).dev.dir.map (fun e => (e.state, e.loc)) = [(.damaged, none)] ∧
    ((after .multiLineReadOutcome (copyReading .directory decayed3)).dev.bank 3).dead = 4 := by decide +kernel

/-- R140: a COMMIT record found damaged is rebuilt from its entry: group 1, one member. -/
theorem test_commit_rebuilt :
    (after .multiLineReadOutcome (onDev (fun d => { d with dir := [], commits := [commitEntry3] }) (copyReading .commitTable
      decayed3))).dev.reclaim.job.writer.map (fun w => w.record.payload) = some [0, 0, 0, 1, 0, 1] := by decide +kernel

/-- R116, R123: the copy of a member found damaged, its group committed without a Commit Table entry: the DAMAGED entry takes it. -/
theorem test_copy_after_empty_commit :
    (after (.lineProgramOutcome .asIntended) (withJob memberCopy (onDev (fun d => { d with
      dir := [{ inBank3 with state := .damaged }]
      reclaim := { d.reclaim with victim := some { victim with committedSince := [1] } } }) copyState))).dev.dir.map (fun e =>
        (e.state, e.loc)) = [(.damaged, some { bank := 0, line := 9 })] := by decide +kernel


def retiring : State :=
  reclaiming { job := .retire, victim := some { victim with point := .retiring, cursor := 1 } } (some (.program 3 2 (.retireLine 1 0)))
    (withBank 3 { fullBank 1 with state := .reclaiming } stored)

/-- A retire with an open group, a Commit Table entry, and a RECLAIM of bank 3 and of any bank that waits on it. -/
theorem witness_VictimRetired :
    retiring.dev.Steady ∧ retiring.dev.reclaim.job = .retire ∧
    retiring.dev.reclaim.victim = some { victim with point := .retiring, cursor := 1 } ∧
    retiring.dev.fc.Alone .reclaim (.program 3 2 (.retireLine 1 0)) ∧ retiring.flash.line 3 2 = Line.erased ∧ retiring.dev.ordered ∧
    (retiring.dev.entry 1).any (fun e => e.loc.all fun l => l.bank ≠ victim.bank) = true ∧
    (inGroup group retiring).dev.group = some group ∧ (onDev (fun d => { d with commits := [commitEntry3] }) retiring).dev.commits = [commitEntry3] ∧
    (executing .reclaim .reclaimHeld).code = .reclaim ∧ (executing .reclaim .reclaimHeld).member = false ∧
    (if (3 : Nat) = 255 then victim.forRequest = true else 3 = victim.bank.val) ∧
    ¬(if (255 : Nat) = 255 then victim.forRequest = true else 255 = victim.bank.val) := by
  refine ⟨steadyDevice_of (by decide +kernel), rfl, rfl, alone_of ⟨rfl, rfl, rfl, rfl, rfl, rfl⟩, by decide +kernel, ?_,
    by decide +kernel, rfl, rfl, rfl, rfl, by decide, by decide⟩
  show List.Pairwise _ _
  decide +kernel

/-- R139, R143: the retire removes an entry whose COMMIT record was left in the victim. -/
theorem test_retire_leaves_no_commit_location :
    (after (.lineProgramOutcome .asIntended) (onDev (fun d => { d with commits := [{ commitEntry3 with remaining := 2 }] })
      retiring)).dev.commits = [] := by decide +kernel

theorem witness_VictimRetired_fault :
    retiring.dev.store = .ready ∧ retiring.power.warning = false ∧ Line.retireLine 1 0 ≠ .raw (lineOf [9]) ∧ retiring.dev.ex = none ∧
    (onDev (fun d => { d with ex := some (executing .reclaim .reclaimHeld), reclaim := { d.reclaim with request := some 3 } })
      retiring).dev.Steady ∧
    (onDev (fun d => { d with ex := some (executing .reclaim .reclaimHeld), reclaim := { d.reclaim with request := some 3 } })
      retiring).dev.reclaim.request ≠ none :=
  ⟨rfl, rfl, by decide, rfl, steadyDevice_of (by decide +kernel), by decide +kernel⟩

/-! ### Mount, power, resets -/

/-- The census reading bank 0, and bank 30, of an array. -/
def census (rows : List CensusRow) (b : BankId) (f : Flash) : State :=
  { base with
    flash := f
    dev := { base.dev with mount := .census rows, store := .mounting, fc := { op := some (.mount, .read b 0 3) } } }

theorem witness_MountReadsAndHandsOff :
    (census [] 0 []).dev.Steady ∧ (census [] 0 []).dev.fc.Alone .mount (.read 0 0 3) ∧ (census [] 0 []).power.warning = false ∧
    (census [] 0 []).flash.line 0 0 = Line.erased ∧
    (census [] 0 (Flash.setLine [] 0 0 (.bankHeader 1 1 0))).flash.line 0 0 ≠ Line.erased ∧ (30 : BankId).val + 1 < 32 ∧
    (warned (census [] 0 [])).power.warning = true ∧
    (onDev (fun d => { d with mount := .scan [] [(0, 1)] [], fc := { op := some (.mount, .read 0 3 125) } }) (census [] 0 [])).dev.Steady ∧
    (onDev (fun d => { d with mount := .scan [] [(0, 1)] [], fc := { op := some (.mount, .read 0 3 125) } }) (census [] 0 [])).dev.fc.Alone
      .mount (.read 0 3 125) :=
  ⟨steadyDevice_of (by decide +kernel), alone_of ⟨rfl, rfl, rfl, rfl, rfl, rfl⟩, rfl, by decide +kernel, by decide +kernel, by decide, rfl,
    steadyDevice_of (by decide +kernel), alone_of ⟨rfl, rfl, rfl, rfl, rfl, rfl⟩⟩

/-- A BLANK bank's row, the row of bank 0 opened in generation 1 with epoch 1, and that of a FREE bank. -/
def blankRow : CensusRow := { header := Line.erased, openLine := Line.erased, retire := Line.erased, restErased := true }
def openedRow : CensusRow := { header := .bankHeader 1 1 0, openLine := .openLine 1 0, retire := Line.erased, restErased := false }

theorem witness_CensusClassifiesBanks :
    currentGeneration [blankRow] = none ∧ currentGeneration [openedRow, blankRow] = some 1 ∧ blankRow.classify none = .blank ∧
    openedRow.classify (some 1) = .opened ∧ { openedRow with openLine := Line.erased }.classify (some 1) = .free ∧
    openedRow.classify (some 2) = .retired ∧
    (census (List.replicate 31 blankRow) 31 (Flash.setLine [] 31 0 (.raw (lineOf [1])))).dev.Steady ∧
    (census (List.replicate 31 blankRow) 31 []).dev.fc.Alone .mount (.read 31 0 3) ∧ (List.replicate 31 blankRow).length = 31 ∧
    (census [] 31 (Flash.setLine [] 31 0 (.raw (lineOf [1])))).flash.line 31 0 ≠ Line.erased ∧
    currentGeneration (List.replicate 31 blankRow ++ [{ blankRow with header := .raw (lineOf [1]) }]) = none ∧
    (List.replicate 31 blankRow ++ [{ blankRow with header := .raw (lineOf [1]) }])[(31 : BankId).val]? =
      some { blankRow with header := .raw (lineOf [1]) } :=
  ⟨by decide, by decide, by decide, by decide, by decide, by decide, steadyDevice_of (by decide +kernel),
    alone_of ⟨rfl, rfl, rfl, rfl, rfl, rfl⟩, by decide, by decide +kernel, by decide, by decide⟩

/-- The last scan read of an array in which bank 0 alone counts, and what it finds there. -/
def scanRows : List CensusRow := openedRow :: List.replicate 31 blankRow
def scanning (f : Flash) : State :=
  { base with
    flash := f
    dev := { Device.initial with mount := .scan scanRows [(0, 1)] [], fc := { op := some (.mount, .read 0 3 125) } } }
def scanned (f : Flash) : List ScanBank :=
  [] ++ [{ bank := 0, epoch := 1, append := (parseJournal (f.lines 0 3 125)).append, records := (parseJournal (f.lines 0 3 125)).records }]

/-- Key 1's record as stored, and with a decayed payload line. -/
def decayed : Flash := stored.flash.setLine 0 4 (.raw (lineOf [8]))

theorem witness_MountBuildsDirectory :
    (scanning stored.flash).dev.Steady ∧ (scanning stored.flash).dev.mount = .scan scanRows [(0, 1)] [] ∧
    (scanning stored.flash).dev.fc.Alone .mount (.read 0 3 125) ∧ (scanning stored.flash).dev.causes.directory = false ∧
    ((scanned stored.flash).filter fun x => decide ((censusRow scanRows x.bank).classify (currentGeneration scanRows) = .opened)) =
      scanned stored.flash ∧
    banksListed (bankMapTaken (scanned stored.flash)) = [] ∧
    ((foundIn (scanned stored.flash)).map fun f => (f.header.key, f.verdict, f.header.gid)) = [(1, .intact, none), (2, .intact, none)] ∧
    ((foundIn (scanned decayed)).map fun f => (f.header.key, f.verdict, f.header.gid)) = [(1, .damaged, none), (2, .intact, none)] :=
  ⟨steadyDevice_of (by decide +kernel), rfl, alone_of ⟨rfl, rfl, rfl, rfl, rfl, rfl⟩, rfl, by decide +kernel, by decide +kernel,
    by decide +kernel, by decide +kernel⟩

theorem witness_MountBuildsBanks :
    (scanning stored.flash).dev.Steady ∧ (scanning stored.flash).dev.fc.Alone .mount (.read 0 3 125) ∧
    (scanning stored.flash).dev.causes.commit = false ∧ ((scanned stored.flash).map fun y => y.bank).Nodup ∧
    (∀ z ∈ scanned stored.flash, z.epoch ≤ 1) ∧ ((scanned stored.flash).map fun y => y.append) = [9] ∧
    (∀ y ∈ scanned stored.flash, y.bank ≠ 5) ∧ (censusRow scanRows 5).classify (currentGeneration scanRows) = .blank :=
  ⟨steadyDevice_of (by decide +kernel), alone_of ⟨rfl, rfl, rfl, rfl, rfl, rfl⟩, rfl, by decide +kernel, by decide +kernel, by decide +kernel,
    by decide +kernel, by decide +kernel⟩

/-- The last scan read of an array in which two banks count: bank 0 with a record of group 5, its COMMIT record and a bank map that lists
bank 7, and bank 1, empty, opened last. -/
def journal0 : ScanBank :=
  { bank := 0, epoch := 1, append := 12
    records := [{ line := 3, header := { recA.header 6 with gid := some 5 }, verdict := .intact, payload := recA.payload },
      { line := 6, header := (commitRecord 5 1).header 7, verdict := .intact, payload := (commitRecord 5 1).payload },
      { line := 9, header := (mapRecord [7]).header 8, verdict := .intact, payload := (mapRecord [7]).payload }] }
def twoRows : List CensusRow := openedRow :: { openedRow with openLine := .openLine 2 0 } :: List.replicate 30 blankRow
def scanningTwo : State :=
  { base with
    flash := []
    dev := { Device.initial with mount := .scan twoRows [(1, 2)] [journal0], fc := { op := some (.mount, .read 1 3 125) } } }
def twoScans : List ScanBank := [journal0] ++ [{ bank := 1, epoch := 2, append := 3, records := [] }]

theorem witness_MountBuildsBanks_two :
    scanningTwo.dev.Steady ∧ scanningTwo.dev.fc.Alone .mount (.read 1 3 125) ∧
    ((parseJournal (scanningTwo.flash.lines 1 3 125)).append, (parseJournal (scanningTwo.flash.lines 1 3 125)).records) = (3, []) ∧
    (twoScans.filter fun x => decide ((censusRow twoRows x.bank).classify (currentGeneration twoRows) = .opened)) = twoScans ∧
    banksListed (bankMapTaken twoScans) = [7] ∧ (twoScans.map fun y => y.bank).Nodup ∧ (∀ y ∈ twoScans, y.bank ≠ 7) ∧
    ((validFound (foundIn twoScans)).map fun f => (f.header.kind, f.header.gid, natOf (f.payload.take 4))) =
      [(.data, some 5, 0x01020304), (.commit, none, 5), (.data, none, 7)] ∧
    (∃ z ∈ twoScans, journal0.epoch < z.epoch) ∧ (∀ z ∈ twoScans, z = journal0 ∨ z.epoch ≠ journal0.epoch) :=
  ⟨steadyDevice_of (by decide +kernel), alone_of ⟨rfl, rfl, rfl, rfl, rfl, rfl⟩, by decide +kernel, by decide +kernel, by decide +kernel,
    by decide +kernel, by decide +kernel, by decide +kernel, by decide +kernel, by decide +kernel⟩

/-- R155 to R158: the Commit Table entry, a FULL bank, the ACTIVE one, a BAD one. -/
theorem test_mount_two_banks :
    (after .multiLineReadOutcome scanningTwo).dev.commits = [{ gid := 5, loc := { bank := 0, line := 6 }, memberCount := 1, remaining := 1 }] ∧
    ([0, 1, 7, 8].map fun b => (((after .multiLineReadOutcome scanningTwo).dev.bank b).state,
      ((after .multiLineReadOutcome scanningTwo).dev.bank b).dead)) = [(.full, 116), (.active, 0), (.bad, 0), (.blank, 0)] := by
  decide +kernel

/-- The levels that assert and do not; a command that waits for space, for a repair, and for a RECLAIM. -/
theorem witness_PowerWarningEntered :
    (¬Instr.resets base (.powerWarning (.pfw false) cutNone)) ∧ (¬Instr.resets base (.powerWarning (.supply 1600 false) cutNone)) ∧
    powerAsserted base.cfg { base.power with vdd := 2400 } = false ∧ powerAsserted base.cfg { base.power with vdd := 2399 } = true ∧
    powerAsserted base.cfg { base.power with pfwLow := true } = true ∧ base.power.warning = false ∧ (warned base).power.warning = true ∧
    (inGroup group base).dev.group = some group ∧ (inGroup group base).dev.ex.any (fun x => x.member) = false ∧
    waiting.dev.commandPhase = .waitingSpace ∧ (executing .raiseLock .repairWait).stage = .repairWait ∧
    (onDev (fun d => { d with ex := some (executing .reclaim .reclaimHeld), reclaim := { request := some 3 } }) base).dev.retireAnswers = false := by
  refine ⟨?_, ?_, by decide +kernel⟩
  · rintro (h | ⟨mv, b, h, _⟩)
    · exact absurd h (by decide)
    · cases h
  · rintro (h | ⟨mv, b, h, hm⟩)
    · exact absurd h (by decide)
    · cases h
      exact absurd hm (by decide)

theorem witness_WarningEndsAfterDebounce :
    (¬Instr.resets (warned base) (.powerWarningDeasserted { millivolts := 1600, cut := cutNone })) ∧
    powerAsserted base.cfg { base.power with pfwLow := false, vdd := 2399 } = true ∧
    powerAsserted base.cfg { base.power with pfwLow := false, vdd := 2400 } = false ∧ (warned base).dev.AtRest ∧
    (warned base).dev.group = none ∧ (warned base).power.debounce = .idle ∧
    { base with power := { base.power with warning := true, debounce := .pending } }.power.debounce = .pending ∧
    { base with power := { base.power with warning := true, debounce := .armed } }.power.debounce = .armed ∧ base.dev.store ≠ .mounting ∧
    (onDev (fun d => { d with store := .mounting }) base).dev.fc.Free ∧ (onDev (fun d => { d with store := .mounting }) base).dev.AtRest := by
  refine ⟨?_, by decide +kernel, by decide +kernel, rest_of (by decide +kernel), rfl, rfl, rfl, rfl, by decide +kernel,
    free_of (by decide +kernel), rest_of (by decide +kernel)⟩
  rintro (h | h) <;> exact absurd h (by decide)

theorem witness_GroupDeadlineTicks :
    base.dev.AtRest ∧ base.power.warning = false ∧ base.dev.group = none ∧ group.deadline = none ∧
    (inGroup { group with deadline := some 2 } base).dev.AtRest ∧
    (inGroup { group with deadline := some 1 } base).dev.ex.any (fun x => x.member) = false ∧
    (inGroup { group with deadline := some 1 } (member .write recA 0)).dev.AtRest ∧
    (inGroup { group with deadline := some 1 } (member .write recA 0)).dev.ex.any (fun x => x.member) = true :=
  ⟨rest_of (by decide +kernel), rfl, rfl, rfl, rest_of (by decide +kernel), rfl, rest_of (by decide +kernel), rfl⟩

theorem witness_HostSideAfterReset :
    Instr.resets base (.powerOnReset cutNone false 3300) ∧ Instr.resets base (.pinReset (.pulse 1000) cutNone) ∧
    Instr.resets (after (.pinReset .low cutNone) base) (.pinReset .rises cutNone) ∧ Instr.resets base (.powerWarningDeasserted { millivolts := 1599, cut := cutNone }) :=
  ⟨trivial, ⟨rfl, by decide⟩, rfl, Or.inr (by decide)⟩

theorem witness_ResetKeepsFlashAndMounts :
    (false : Bool) = (false || decide (2400 < 2400)) ∧ true = (false || decide (2399 < 2400)) ∧ 1599 < 1600 ∧
    { base with power := { base.power with vdd := 1599 } }.power.vdd < 1600 ∧ 999 < 1000 ∧ base.rstLow = false ∧
    (after (.pinReset .low cutNone) base).rstLow = true ∧ base.dev.fc.erase = none ∧ base.dev.fc.op = none := by decide +kernel

/-! ### Laws -/

theorem witness_laws_kept :
    State.reset.lawful ∧ State.reset.creditLaw ∧ State.reset.dev.groupLaw ∧ State.reset.powerLaw ∧ State.reset.dev.ordered ∧
    step { stored with pending := [.takeCommand] } = .next (after .takeCommand stored) ∧ stored.lawful ∧ stored.creditLaw ∧ stored.dev.groupLaw ∧
    stored.powerLaw ∧ stored.dev.ordered := by
  refine ⟨⟨by decide +kernel, ?_⟩, ?_, group_of (by decide +kernel), ⟨by decide +kernel, by decide +kernel, by decide +kernel⟩,
    List.Pairwise.nil, rfl, ⟨by decide +kernel, ?_⟩, ?_, group_of (by decide +kernel),
    ⟨by decide +kernel, by decide +kernel, by decide +kernel⟩, ?_⟩
  · show (_ ∧ _) ∧ (_ ∧ _) ∧ _
    decide +kernel
  · show _ ≤ 8
    decide +kernel
  · show (_ ∧ _) ∧ (_ ∧ _) ∧ _
    decide +kernel
  · show _ ≤ 8
    decide +kernel
  · show List.Pairwise _ _
    decide +kernel

end Sys2Proof.Tests
end

section
/-! Lines of the Flash Array: what they read after each of its operations (R1, R2, R7, R8), and the records they hold (R22 to R31). -/
namespace Sys2Proof.Machine
open Sys2Proof

/-! ## Lines of the array -/

theorem Line.isErased_iff (l : Line) : l.isErased = true ↔ l = Line.erased := decide_eq_true_iff

theorem Line.isErased_eq_false (l : Line) : l.isErased = false ↔ l ≠ Line.erased := decide_eq_false_iff_not

@[simp] theorem Line.isErased_erased : Line.erased.isErased = true := (Line.isErased_iff _).mpr rfl

/-- Two places of the array have one key exactly when they are one place. -/
theorem lineKey_inj {b b' : BankId} {l l' : Nat} (h : l < 128) (h' : l' < 128) : lineKey b l = lineKey b' l' ↔ b = b' ∧ l = l' := by
  unfold lineKey
  rw [Fin.ext_iff]
  omega

/-- Within a bank a write reaches one line alone. -/
theorem Flash.line_setLine_otherLine (f : Flash) (b : BankId) {line line' : Nat} (v : Line) (h : line' ≠ line) :
    (f.setLine b line v).line b line' = f.line b line' :=
  Flash.line_setLine_other f b b line line' v (by unfold lineKey; omega)

theorem Flash.getElem?_lines (f : Flash) (b : BankId) (first : Nat) {i count : Nat} (h : i < count) :
    (f.lines b first count)[i]? = some (f.line b (first + i)) := by
  simp [Flash.lines, h]

theorem programReads_erased (data : Line) (result : LineRead) : programReads Line.erased data result = readsAs data result := by
  simp [programReads]

theorem programReads_programmed {before : Line} (data : Line) (result : LineRead) (h : before ≠ Line.erased) :
    programReads before data result = before := by
  simp [programReads, (Line.isErased_eq_false _).mpr h]

/-- A payload check that does not agree is a commit line's alone; any other line reads as bytes (R30). -/
theorem readsAs_checkWrong (data : Line) (bytes : RawLine) (h : ∀ q k z, data ≠ .commitLine q k z) :
    readsAs data (.checkWrong bytes) = .raw bytes := by
  cases data
  case commitLine q k z => exact absurd rfl (h q k z)
  all_goals rfl

theorem programOutcome_asIntended {before : Line} (data : Line) (h : before = Line.erased) :
    programOutcome before data .asIntended = .ok := by
  simp [programOutcome, h, readsAs]

/-! ## A bank after an erase -/

/-- Writes to distinct addresses: each address reads what was written there. -/
theorem Store.read_writeAll_mem {α : Type} [DecidableEq α] (d : α) (cells m : List (Nat × α)) (hd : (cells.map Prod.fst).Nodup)
    {a : Nat} {v : α} (h : (a, v) ∈ cells) : Store.read d (Store.writeAll d m cells) a = v := by
  induction cells generalizing m with
  | nil => cases h
  | cons c rest ih =>
    obtain ⟨hc, hrest⟩ := List.nodup_cons.mp hd
    rcases List.mem_cons.mp h with rfl | h
    · rw [Store.writeAll, Store.read_writeAll_other, Store.read_write_same]
      exact fun c hm hk => hc (List.mem_map.mpr ⟨c, hm, hk⟩)
    · exact ih _ hrest h

/-- The lines that well-formed remains list rise strictly. -/
theorem EraseRemains.sorted_of_wellFormed (remains : EraseRemains) (h : remains.wellFormed = true) :
    remains.Pairwise fun a b => a.1 < b.1 := by
  induction remains with
  | nil => exact .nil
  | cons a rest ih =>
    cases rest with
    | nil => simp
    | cons b rest =>
      obtain ⟨la, ra⟩ := a
      obtain ⟨lb, rb⟩ := b
      simp only [EraseRemains.wellFormed, Bool.and_eq_true, decide_eq_true_eq] at h
      obtain ⟨⟨_, hab⟩, hrest⟩ := h
      have hs := ih hrest
      refine List.pairwise_cons.mpr ⟨fun c hc => ?_, hs⟩
      rcases List.mem_cons.mp hc with rfl | hc
      · exact hab
      · exact lt_trans hab ((List.pairwise_cons.mp hs).1 c hc)

/-- The writes by which an erase leaves what it leaves go to distinct lines. -/
theorem EraseRemains.nodup_of_wellFormed (f : Flash) (b : BankId) (remains : EraseRemains) (h : remains.wellFormed = true) :
    ((remains.map fun r => (lineKey b r.1.val, remainsAs (f.line b r.1.val) r.2)).map Prod.fst).Nodup := by
  rw [List.map_map]
  refine (List.pairwise_map.mpr ?_ : List.Pairwise (· ≠ ·) _)
  refine (EraseRemains.sorted_of_wellFormed remains h).imp fun {x y} hxy => ?_
  have : x.1.val < y.1.val := hxy
  simp only [Function.comp, lineKey]
  omega

/-- A line that an erase lists reads as listed (R8). -/
theorem Flash.line_eraseBank_listed (f : Flash) (b : BankId) (remains : EraseRemains) (h : remains.wellFormed = true) {l : LineId}
    {r : LineRemains} (hr : (l, r) ∈ remains) : (f.eraseBank b remains).line b l.val = remainsAs (f.line b l.val) r :=
  Store.read_writeAll_mem _ _ _ (EraseRemains.nodup_of_wellFormed f b remains h)
    (List.mem_map_of_mem (f := fun r : LineId × LineRemains => (lineKey b r.1.val, remainsAs (f.line b r.1.val) r.2)) hr)

/-- A line that an erase does not list reads erased (R1). -/
theorem Flash.line_eraseBank_unlisted (f : Flash) (b : BankId) (remains : EraseRemains) (l : LineId) (h : ∀ r, (l, r) ∉ remains) :
    (f.eraseBank b remains).line b l.val = Line.erased := by
  unfold Flash.eraseBank Flash.line
  rw [Store.read_writeAll_other, Store.read_clear, if_pos]
  · have := l.isLt
    rw [decide_eq_true_eq, lineKey]
    omega
  · intro c hc hk
    obtain ⟨⟨l', r⟩, hr, rfl⟩ := List.mem_map.mp hc
    have hl : l' = l := Fin.ext ((lineKey_inj l'.isLt l.isLt).mp hk).2
    exact h r (hl ▸ hr)

/-- An erase that leaves nothing finds every line erased (R8). -/
theorem Flash.bankErased_eraseBank_nil (f : Flash) (b : BankId) : (f.eraseBank b []).bankErased b = true := by
  simp only [Flash.bankErased, Flash.lines, List.all_map, List.all_eq_true, List.mem_range, Function.comp]
  intro i hi
  rw [Line.isErased_iff, Nat.zero_add]
  exact Flash.line_eraseBank_unlisted f b [] ⟨i, hi⟩ (by simp)

/-! ## The lines of a record as it is laid out -/

theorem RecordSpec.two_le_span (r : RecordSpec) : 2 ≤ r.span := Nat.le_add_right 2 _

theorem RecordSpec.span_eq (r : RecordSpec) : r.span = payloadLines r.payload.length + 2 := Nat.add_comm 2 _

theorem RecordSpec.header_span (r : RecordSpec) (seq : Nat) : (r.header seq).span = r.span := rfl

theorem RecordSpec.line_payload (r : RecordSpec) (seq : Nat) {i : Nat} (h : i < payloadLines r.payload.length) :
    r.line seq (i + 1) = .raw (payloadLine r.payload i) := by
  have : i + 1 + 1 < r.span := by rw [r.span_eq]; omega
  simp [RecordSpec.line, this]

theorem RecordSpec.line_last (r : RecordSpec) (seq : Nat) : r.line seq (r.span - 1) = .commitLine seq (.over r.payload) 0 := by
  have := r.two_le_span
  unfold RecordSpec.line
  rw [if_neg (by omega), if_neg (by omega)]

/-- A line with the header of a record that passes carries that header (R23). -/
theorem RecordSpec.headerAt_line (r : RecordSpec) (seq line : Nat) (h : (r.header seq).passesAt line = true) :
    (r.line seq 0).headerAt line = some (r.header seq) := if_pos h

/-! ## The payload as read (R27) -/

theorem joinBytes_raw (ls : List RawLine) : joinBytes (ls.map Line.raw) = some (ls.map fun l => l.toList).flatten := by
  induction ls with
  | nil => rfl
  | cons l ls ih => simp [joinBytes, Line.rawBytes, ih]

theorem payloadLine_toList (payload : List Byte) (i : Nat) :
    (payloadLine payload i).toList = (payload.drop (16 * i) ++ List.replicate 16 0).take 16 := rfl

/-- The lines of a payload, one after another, begin with the payload: line by line, each holds the next sixteen bytes. -/
theorem payloadLines_prefix (n : Nat) (payload : List Byte) (h : payload.length ≤ 16 * n) :
    (((List.range n).map fun i => (payloadLine payload i).toList).flatten).take payload.length = payload := by
  induction n generalizing payload with
  | zero =>
    have : payload = [] := List.eq_nil_of_length_eq_zero (by omega)
    simp [this]
  | succ n ih =>
    have hrest : (List.range n).map (fun i => (payloadLine payload (i + 1)).toList) =
        (List.range n).map fun i => (payloadLine (payload.drop 16) i).toList := by
      refine List.map_congr_left fun i _ => ?_
      rw [payloadLine_toList, payloadLine_toList, List.drop_drop, Nat.mul_add, Nat.add_comm]
    rw [List.range_succ_eq_map, List.map_cons, List.map_map, List.flatten_cons]
    simp only [Function.comp_def, Nat.succ_eq_add_one]
    rw [hrest, payloadLine_toList, Nat.mul_zero, List.drop_zero]
    by_cases hl : payload.length ≤ 16
    · rw [List.take_append_of_le_length (by simp; omega), List.take_take, Nat.min_eq_left hl, List.take_left]
    · have hi := ih (payload.drop 16) (by rw [List.length_drop]; omega)
      rw [List.length_drop] at hi
      rw [List.take_append_of_le_length (l₁ := payload) (by omega), List.take_append, List.take_take, List.length_take,
        Nat.min_eq_right (by omega : 16 ≤ payload.length), Nat.min_eq_left (by omega : 16 ≤ payload.length), hi,
        List.take_append_drop]

/-- The payload lines of a record laid out in the array read back as its payload (R27). -/
theorem RecordSpec.payloadRead_laid (r : RecordSpec) (seq line : Nat) (b : BankId) (f : Flash)
    (h : ∀ i, i < r.span → f.line b (line + i) = r.line seq i) :
    payloadRead (r.header seq) (f.lines b line r.span) = some r.payload := by
  have hlines : ((f.lines b line r.span).drop 1).take (payloadLines r.payload.length) =
      ((List.range (payloadLines r.payload.length)).map (payloadLine r.payload)).map Line.raw := by
    refine List.ext_getElem? fun i => ?_
    by_cases hi : i < payloadLines r.payload.length
    · have hs : i + 1 < r.span := by rw [r.span_eq]; omega
      rw [List.getElem?_take_of_lt hi, List.getElem?_drop, Nat.add_comm 1, Flash.getElem?_lines f b line hs, h _ hs,
        r.line_payload seq hi]
      simp [hi]
    · rw [List.getElem?_eq_none (by rw [List.length_take]; omega), List.getElem?_eq_none (by simp; omega)]
  have hlen : r.payload.length ≤ 16 * payloadLines r.payload.length := by
    unfold payloadLines
    omega
  show ((joinBytes (((f.lines b line r.span).drop 1).take (payloadLines r.payload.length))).map fun bs => bs.take r.payload.length) = _
  rw [hlines, joinBytes_raw, List.map_map]
  exact congrArg some (payloadLines_prefix _ r.payload hlen)

/-! ## The record as judged (R28, R29, R31) -/

/-- The payload check of a record whose commit line stands in the array (R28). -/
theorem RecordSpec.commitCheck_laid (r : RecordSpec) (seq line : Nat) (b : BankId) (f : Flash)
    (h : f.line b (line + (r.span - 1)) = r.line seq (r.span - 1)) :
    commitCheck (r.header seq) (f.lines b line r.span) = some (.over r.payload) := by
  have hs := r.two_le_span
  unfold commitCheck
  rw [r.header_span, Flash.getElem?_lines f b line (by omega), h, r.line_last]
  exact if_pos rfl

/-- A line without the commit mark or with another sequence is no commit line of the record (R28). -/
theorem RecordSpec.commitCheck_missing (r : RecordSpec) (seq line : Nat) (b : BankId) (f : Flash)
    (h : ∀ k z, f.line b (line + (r.span - 1)) ≠ .commitLine seq k z) :
    commitCheck (r.header seq) (f.lines b line r.span) = none := by
  have hs := r.two_le_span
  unfold commitCheck
  rw [r.header_span, Flash.getElem?_lines f b line (by omega)]
  split
  · rename_i q check z hq
    refine if_neg fun hqs => h check z ?_
    rw [Option.some.inj hq, hqs]
    rfl
  · rfl

/-- A check over a payload agrees with that payload and no other (R6). -/
theorem checkAgrees_over (p : List Byte) (read : Option (List Byte)) : checkAgrees (.over p) read = true ↔ read = some p := by
  cases read with
  | none => simp [checkAgrees]
  | some q => simpa [checkAgrees] using eq_comm

theorem judge_torn {h : Header} {ls : List Line} (hc : commitCheck h ls = none) : (judge h ls).1 = .torn := by
  simp only [judge, hc]

/-- A record with its commit line is intact when the check agrees and the payload has the form its key asks for (R29, R31). -/
theorem judge_checked {h : Header} {ls : List Line} {check : PayloadCheck} (hc : commitCheck h ls = some check) :
    judge h ls =
      (if checkAgrees check (payloadRead h ls) && wellFormedPayload h ((payloadRead h ls).getD []) then .intact else .damaged,
        (payloadRead h ls).getD []) := by
  simp only [judge, hc]
  split <;> rfl

/-- A record read from a line with its header: the judgement of its lines decides. -/
theorem RecordSpec.recordPayload_eq (r : RecordSpec) (seq line : Nat) (b : BankId) (f : Flash)
    (hp : (r.header seq).passesAt line = true) (hh : f.line b line = r.line seq 0) :
    recordPayload line (f.lines b line r.span) =
      if (judge (r.header seq) (f.lines b line r.span)).1 = .intact then some (judge (r.header seq) (f.lines b line r.span)).2
      else none := by
  have h0 : (f.lines b line r.span).getD 0 Line.erased = r.line seq 0 := by
    have := r.two_le_span
    rw [List.getD_eq_getElem?_getD, Flash.getElem?_lines f b line (by omega)]
    exact hh
  unfold recordPayload
  rw [h0, r.headerAt_line seq line hp]
  dsimp only
  split <;> rename_i hj <;> simp [hj]

/-- A record that stands in the array with its commit line does not count as intact when its payload reads otherwise (R29). -/
theorem RecordSpec.recordPayload_damaged (r : RecordSpec) (seq line : Nat) (b : BankId) (f : Flash)
    (hp : (r.header seq).passesAt line = true) (hh : f.line b line = r.line seq 0)
    (hc : f.line b (line + (r.span - 1)) = r.line seq (r.span - 1))
    (hr : payloadRead (r.header seq) (f.lines b line r.span) ≠ some r.payload) :
    recordPayload line (f.lines b line r.span) = none := by
  have hd : checkAgrees (.over r.payload) (payloadRead (r.header seq) (f.lines b line r.span)) = false := by
    rw [← Bool.not_eq_true, checkAgrees_over]
    exact hr
  rw [r.recordPayload_eq seq line b f hp hh, judge_checked (r.commitCheck_laid seq line b f hc)]
  simp [hd]

/-- Settles O37: header, payload lines and commit line are read back one by one. -/
theorem recordReadsBack : Obligations.RecordReadsBack := by
  intro r seq line b f hp hh
  refine ⟨fun hw hl => ?intact, fun hc hr => r.recordPayload_damaged seq line b f hp hh hc hr, fun hm => ?torn⟩
  case intact =>
    have hs := r.two_le_span
    have hread := r.payloadRead_laid seq line b f hl
    have hagree : checkAgrees (.over r.payload) (some r.payload) = true := (checkAgrees_over _ _).mpr rfl
    rw [r.recordPayload_eq seq line b f hp hh, judge_checked (r.commitCheck_laid seq line b f (hl _ (by omega))), hread]
    simp [hagree, hw]
  case torn =>
    rw [r.recordPayload_eq seq line b f hp hh, judge_torn (r.commitCheck_missing seq line b f hm)]
    rfl

/-! ## Payload decay (R2) -/

/-- A payload line of a complete record decays to any bytes that its payload check does not cover. -/
theorem RecordSpec.canDecay_laid (r : RecordSpec) (seq line index : Nat) (b : BankId) (bytes : RawLine) (f : Flash)
    (hp : (r.header seq).passesAt line = true) (hl : ∀ i, i < r.span → f.line b (line + i) = r.line seq i) (hi : index + 2 < r.span)
    (hr : payloadRead (r.header seq) ((f.setLine b (line + 1 + index) (.raw bytes)).lines b line r.span) ≠ some r.payload) :
    canDecay f b line index bytes = true := by
  have hs := r.two_le_span
  have hd : checkAgrees (.over r.payload)
      (payloadRead (r.header seq) ((f.setLine b (line + 1 + index) (.raw bytes)).lines b line r.span)) = false := by
    rw [← Bool.not_eq_true, checkAgrees_over]
    exact hr
  have hx : index < payloadLines (r.header seq).length := by
    show index < payloadLines r.payload.length
    rw [r.span_eq] at hi
    omega
  have hh : f.line b line = r.line seq 0 := hl 0 (by omega)
  unfold canDecay
  rw [hh, r.headerAt_line seq line hp]
  simp only [r.header_span]
  rw [r.commitCheck_laid seq line b f (hl _ (by omega))]
  simp [hx, hd]

theorem canDecay_noHeader (f : Flash) (b : BankId) (line index : Nat) (bytes : RawLine) (h : (f.line b line).headerAt line = none) :
    canDecay f b line index bytes = false := by
  unfold canDecay
  rw [h]

/-- A complete record with one payload line changed is not intact. -/
theorem RecordSpec.recordPayload_decayed (r : RecordSpec) (seq line index : Nat) (b : BankId) (bytes : RawLine) (f : Flash)
    (hp : (r.header seq).passesAt line = true) (hl : ∀ i, i < r.span → f.line b (line + i) = r.line seq i) (hi : index + 2 < r.span)
    (hr : payloadRead (r.header seq) ((f.setLine b (line + 1 + index) (.raw bytes)).lines b line r.span) ≠ some r.payload) :
    recordPayload line ((f.setLine b (line + 1 + index) (.raw bytes)).lines b line r.span) = none := by
  have hs := r.two_le_span
  refine r.recordPayload_damaged seq line b _ hp ?_ ?_ hr
  · rw [Flash.line_setLine_otherLine _ _ _ (by omega)]
    exact hl 0 (by omega)
  · rw [Flash.line_setLine_otherLine _ _ _ (by omega)]
    exact hl _ (by omega)

/-! ## The ends of flash operations -/

/-- LINE_PROGRAM_OUTCOME while a line program is in progress (R7). -/
theorem exec_lineProgramOutcome {s : State} {who : Requester} {b : BankId} {line : Nat} {data : Line} (result : LineRead)
    (h : s.dev.fc.op = some (who, .program b line data)) :
    exec (.lineProgramOutcome result) s =
      .next ({ s with flash := s.flash.setLine b line (programReads (s.flash.line b line) data result) }.engines fun d =>
        d.opDone.programmed s.ctx who (programOutcome (s.flash.line b line) data result)) := by
  show execLineProgramOutcome result s = _
  unfold execLineProgramOutcome
  rw [h]

/-- BANK_ERASE_OUTCOME while an erase is RUNNING (R8). -/
theorem exec_bankEraseOutcome {s : State} {e : EraseOp} (remains : EraseRemains) (h : s.dev.fc.erase = some e)
    (hs : e.suspended = false) :
    exec (.bankEraseOutcome remains) s =
      .next ({ s with flash := s.flash.eraseBank e.bank remains }.engines fun d =>
        d.eraseOver.erased s.ctx e.requester ((s.flash.eraseBank e.bank remains).bankErased e.bank)) := by
  show execBankEraseOutcome remains s = _
  unfold execBankEraseOutcome
  simp [h, hs]

/-- Settles O26: the line written and the bank erased are the operation's own. -/
theorem arrayOutcomes : Obligations.ArrayOutcomes := by
  refine ⟨fun s who b line data result hop hline => ?program, fun s result h => ?noProgram, fun s e remains he hs hw => ?erase,
    fun s remains h => ?noErase, fun s r seq b line index bytes f hp hl hi hf hr => ?decay, fun s b line index bytes h => ?noDecay⟩
  case program =>
    refine ⟨_, exec_lineProgramOutcome result hop, rfl, rfl, rfl, rfl, rfl, rfl, fun b' l' hl' hne => ?_, fun hb => ?_, fun hb => ?_⟩
    · rw [State.engines_flash]
      refine Flash.line_setLine_other _ _ _ _ _ _ fun hk => ?_
      obtain ⟨hb, hl⟩ := (lineKey_inj hl' hline).mp hk
      exact hne.elim (· hb) (· hl)
    · rw [State.engines_flash, Flash.line_setLine_same, programReads_programmed _ _ hb]
    · simp only [State.engines_flash, Flash.line_setLine_same, hb, programReads_erased]
      refine ⟨?_, ?_, ?_, ?_⟩
      · rintro rfl; rfl
      · rintro bytes rfl; rfl
      · rintro bytes rfl
        exact ⟨fun q k z hd => by rw [hd]; rfl, readsAs_checkWrong data bytes⟩
      · rintro spare rfl
        exact ⟨fun _ _ _ h => by rw [h]; rfl, fun _ _ h => by rw [h]; rfl, fun _ _ h => by rw [h]; rfl, fun _ _ h => by rw [h]; rfl,
          fun _ _ _ h => by rw [h]; rfl, fun _ h => by rw [h]; rfl⟩
  case noProgram =>
    show execLineProgramOutcome result s = _
    unfold execLineProgramOutcome
    split
    · rename_i who b line data hop
      exact absurd hop (h who b line data)
    · rfl
  case erase =>
    refine ⟨_, exec_bankEraseOutcome remains he hs, fun b l hl hb => ?_, fun l hl => ?_, fun l hl => ?_, fun l bytes hl => ?_⟩
    · exact Flash.line_eraseBank_other _ _ _ _ _ hl hb
    · exact Flash.line_eraseBank_unlisted _ _ _ _ hl
    · exact Flash.line_eraseBank_listed _ _ _ hw hl
    · exact Flash.line_eraseBank_listed _ _ _ hw hl
  case noErase =>
    show execBankEraseOutcome remains s = _
    unfold execBankEraseOutcome
    split
    · rename_i e he
      rw [if_pos (h e he)]
    · rfl
  case decay =>
    subst hf
    refine ⟨?_, r.recordPayload_decayed seq line.val index.val b bytes s.flash hp hl hi hr⟩
    exact congrArg Host.Outcome.next (if_pos (r.canDecay_laid seq line.val index.val b bytes s.flash hp hl hi hr))
  case noDecay =>
    exact congrArg Host.Outcome.next (if_neg (by simp [canDecay_noHeader _ _ _ _ _ h]))

end Sys2Proof.Machine
end

section
/-! The power condition and the resets (chapter 10, R16 to R20, R179 to R186, R198): what a change of the sources does to the state, how
recovery ends the warning, what a reset leaves, and the events at which the Flash Array changes at all. -/
namespace Sys2Proof.Machine
open Sys2Proof

/-- An event of the engines changes the device alone: it is what the end of the step makes of the event. -/
theorem State.engines_eq (s : State) (g : Device → Device) {d : Device} (h : (g s.dev).settle s.ctx = d) :
    s.engines g = { s with dev := d } := h ▸ rfl

/-! ## The sources are judged (R179, R180) -/

theorem State.judgePower_quiet (s : State) (entry : WarningEntry) (h : powerAsserted s.cfg s.power = false) :
    s.judgePower entry =
      { s with
        power := if s.power.warning = true ∧ s.power.debounce = .idle then { s.power with debounce := .pending } else s.power } := by
  unfold State.judgePower
  rw [h]
  simp only [Bool.false_eq_true, if_false]
  split <;> rfl

theorem State.judgePower_again (s : State) (entry : WarningEntry) (h : powerAsserted s.cfg s.power = true)
    (hw : s.power.warning = true) : s.judgePower entry = { s with power := { s.power with debounce := .idle } } := by
  unfold State.judgePower
  rw [if_pos h, if_pos hw]

theorem State.judgePower_enters (s : State) (entry : WarningEntry) (h : powerAsserted s.cfg s.power = true)
    (hw : s.power.warning = false) : s.judgePower entry = s.enterWarning entry := by
  unfold State.judgePower
  rw [if_pos h, if_neg (by simp [hw])]

/-- PFW# LOW asserts, whatever the supply (R179). -/
theorem powerAsserted_pfwLow (g : Configuration) (p : Power) (h : p.pfwLow = true) : powerAsserted g p = true := by
  simp [powerAsserted, h]

/-! ## The entry to WARNING -/

/-- The entry sets POWER_WARN, whatever the blocks do in its step (R16). -/
theorem Device.warn_powerWarn (d : Device) : d.warn.flags.powerWarn = true := by
  have h : d.warn.over { powerWarn := true } := by
    unfold Device.warn
    exact Device.warnCommand_flg _ _ (Device.abandonErase_flg _ _ (Device.endOpenGroup_flg _ _ (by simp [Device.over, Flags.within])))
  exact h.2.2.2.1 rfl

theorem Device.warnBetween_powerWarn (g : Configuration) (d : Device) : (d.warnBetween g).flags.powerWarn = true :=
  (Device.makeStep_flg _ _ _ (Flags.within_refl _)).2.2.2.1 (Device.warn_powerWarn _)

theorem State.enterWarning_powerWarn (s : State) (entry : WarningEntry) : (s.enterWarning entry).dev.flags.powerWarn = true := by
  refine (Device.settle_flg _ _ _ (Flags.within_refl _)).2.2.2.1 ?_
  split
  · exact Device.warnBetween_powerWarn _ _
  · exact Device.warn_powerWarn _

/-! ## Where the supply stays at or above the brown-out level -/

theorem exec_powerWarning_pfw (s : State) (between : Bool) (cut : CutShort) (h : 1600 ≤ s.power.vdd) :
    exec (.powerWarning (.pfw between) cut) s =
      .next (({ s with power := { s.power with pfwLow := true } } : State).judgePower { erase := cut.erase, between := between }) :=
  congrArg Host.Outcome.next (s.levels_judged true s.power.vdd cut between h h)

theorem exec_powerWarning_supply (s : State) (mv : Nat) (between : Bool) (cut : CutShort) (h : 1600 ≤ s.power.vdd) (hm : 1600 ≤ mv) :
    exec (.powerWarning (.supply mv between) cut) s =
      .next (({ s with power := { s.power with vdd := mv } } : State).judgePower { erase := cut.erase, between := between }) :=
  congrArg Host.Outcome.next (s.levels_judged s.power.pfwLow mv cut between hm h)

theorem exec_powerWarningDeasserted (s : State) (mv : Nat) (cut : CutShort) (h : 1600 ≤ s.power.vdd) (hm : 1600 ≤ mv) :
    exec (.powerWarningDeasserted { millivolts := mv, cut := cut }) s =
      .next (({ s with power := { s.power with pfwLow := false, vdd := mv } } : State).judgePower
        { erase := cut.erase, between := false }) :=
  congrArg Host.Outcome.next (s.levels_judged false mv cut false hm h)

theorem Instr.vdd_of_not_resets {s : State} {source : WarningSource} {cut : CutShort} (h : ¬Instr.resets s (.powerWarning source cut)) :
    1600 ≤ s.power.vdd := Nat.le_of_not_lt fun hv => h (.inl hv)

theorem Instr.supply_of_not_resets {s : State} {mv : Nat} {between : Bool} {cut : CutShort}
    (h : ¬Instr.resets s (.powerWarning (.supply mv between) cut)) : 1600 ≤ mv :=
  Nat.le_of_not_lt fun hv => h (.inr ⟨mv, between, rfl, hv⟩)

/-! ## Recovery (R17, R180, R186) -/

theorem Device.tickGroup_noGroup (d : Device) (h : d.group = none) : d.tickGroup = d := by
  unfold Device.tickGroup
  rw [h]

/-- A tick without an open group is the debounce's alone. -/
theorem exec_timebaseTick_noGroup (s : State) (hr : s.dev.AtRest) (hg : s.dev.group = none) :
    exec .timebaseTick s = .next s.tickDebounce := by
  have h : s.engines Device.tickGroup = s := by
    unfold State.engines
    rw [Device.tickGroup_noGroup _ hg, Device.settle_atRest _ _ hr]
  show Host.Outcome.next (s.engines Device.tickGroup).tickDebounce = _
  rw [h]

theorem exec_recovery_armed (s : State) (hw : s.power.warning = true) (hd : s.power.debounce = .armed) :
    exec .recovery s = .next s.recovered := congrArg Host.Outcome.next (if_pos ⟨hw, hd⟩)

/-- The condition is NORMAL again, the store not MOUNTING: POWER_OK and the fairness count change, and nothing else. -/
theorem State.recovered_running (s : State) (hr : s.dev.AtRest) (hm : s.dev.store ≠ .mounting) :
    s.recovered =
      { s with
        power := { s.power with warning := false, debounce := .idle }
        dev := { s.dev with flags := { s.dev.flags with powerOk := true }, fc := { s.dev.fc with fairness := 0 } } } := by
  obtain ⟨hc, hrc, hmo, hs, hw, he⟩ := hr
  refine State.engines_eq _ _ ?_
  unfold Device.recover
  dsimp only
  rw [if_neg hm]
  exact Device.settle_atRest _ _ ⟨hc, hrc, hmo, hs, hw, he⟩

/-- A MOUNTING store mounts from census, its first read granted (R186). -/
theorem State.recovered_mounting (s : State) (hr : s.dev.AtRest) (hm : s.dev.store = .mounting) (hf : s.dev.fc.Free) :
    s.recovered =
      { s with
        power := { s.power with warning := false, debounce := .idle }
        dev := { ({ s.dev with flags := { s.dev.flags with powerOk := true }, fc := { s.dev.fc with fairness := 0 } } : Device).resetTables with
          mount := .census []
          fc := { s.dev.fc with fairness := 0, op := some (.mount, .read 0 0 3) } } } := by
  obtain ⟨ho, he, hc, hrc, hmo, hd⟩ := hf
  let d : Device :=
    ({ s.dev with
      flags := { s.dev.flags with powerOk := true }
      fc := { s.dev.fc with fairness := 0, op := s.dev.fc.op.filter fun o => o.1 ≠ Requester.mount } } : Device).beginMount
  have hk (c : Ctx) : d.NoWake c := by
    refine ⟨Device.wakeReclaim_of_noWait c d (by simp [d, Device.beginMount, Device.request, Device.resetTables, ReclaimJob.writer]), ?_⟩
    cases hx : s.dev.ex with
    | none => exact Device.wakeCommand_of_idle c d hx
    | some x => exact Device.wakeCommand_of_steady c d hx (hr.steady x hx)
  have hone : d.fc.OneMount (.read 0 0 3) := ⟨by simp [d, Device.beginMount, Device.request, Device.resetTables, ho], he, hc, hrc, rfl⟩
  refine State.engines_eq _ _ ?_
  unfold Device.recover
  dsimp only
  rw [if_pos hm]
  refine (Device.settle_oneMount _ d _ rfl (hk _) hone).trans ?_
  simp [d, Device.beginMount, Device.request, Device.resetTables, Device.grantRequest, Device.noteFormatGrant, FlashController.grant,
    FlashController.unwait, FlashController.fairnessAfter, hmo]

/-- Settles O51: the debounce takes one tick to ARMED and one to NORMAL. -/
theorem warningEndsAfterDebounce : Obligations.WarningEndsAfterDebounce := by
  refine ⟨fun s mv cut power hr hp => ?deasserted, fun s hr hg hw => ⟨fun hd => ?idle, fun hd => ?pending, ?armed⟩, fun s h => ?noEvent⟩
  case deasserted =>
    subst hp
    have hv : 1600 ≤ s.power.vdd := Nat.le_of_not_lt fun hv => hr (.inl hv)
    have hm : 1600 ≤ mv := Nat.le_of_not_lt fun hm => hr (.inr hm)
    rw [exec_powerWarningDeasserted s mv cut hv hm]
    refine ⟨fun ha hw => congrArg _ (State.judgePower_again _ _ ha hw), fun ha hw => ?_,
      fun ha => congrArg _ (State.judgePower_quiet _ _ ha)⟩
    have henters := State.judgePower_enters { s with power := { s.power with pfwLow := false, vdd := mv } }
      { erase := cut.erase, between := false } ha hw
    exact ⟨_, congrArg _ henters, rfl, State.enterWarning_powerWarn _ _⟩
  case idle =>
    rw [exec_timebaseTick_noGroup s hr hg]
    simp [State.tickDebounce, hw, hd]
  case pending =>
    rw [exec_timebaseTick_noGroup s hr hg]
    simp [State.tickDebounce, hw, hd]
  case armed =>
    rintro hd d rfl i hi
    have hexec : exec i s = .next s.recovered := by
      rcases hi with rfl | rfl
      · rw [exec_timebaseTick_noGroup s hr hg]
        simp [State.tickDebounce, hw, hd]
      · exact exec_recovery_armed s hw hd
    rw [hexec]
    exact ⟨fun hm => congrArg _ (State.recovered_running s hr hm), fun hm hf => congrArg _ (State.recovered_mounting s hr hm hf)⟩
  case noEvent =>
    refine congrArg Host.Outcome.next (if_neg ?_)
    rintro ⟨hw, hd⟩
    exact h.elim (fun h => absurd hw (by simp [h])) (fun h => h hd)

/-! ## Resets (R20, R150, R181, R198) -/

theorem resetPower_eq (low : Bool) (mv : Nat) :
    resetPower low mv = { warning := low || decide (mv < 2400), debounce := .idle, pfwLow := low, vdd := mv } := rfl

theorem Device.initial_atRest (fl : Flags) : ({ Device.initial with flags := fl } : Device).AtRest :=
  ⟨rfl, rfl, rfl, (fun _ h => nomatch h), (fun _ h => nomatch h), (fun _ h => nomatch h)⟩

/-- Mount's first census read is granted in the step of the reset (log entry 2). -/
theorem Device.beginMount_settled (g : Configuration) :
    Device.initial.beginMount.settle { cfg := g, warning := false } = State.reset.dev := by
  refine (Device.settle_oneMount _ _ (.read 0 0 3) rfl ⟨?_, rfl⟩ ⟨rfl, rfl, rfl, rfl, rfl⟩).trans rfl
  exact Device.wakeReclaim_of_noWait _ _ fun _ h => nomatch h

/-- The blocks at the end of the step of a reset. -/
theorem resetDevice_settled (g : Configuration) (warning : Bool) :
    (resetDevice warning).settle { cfg := g, warning := warning } =
      if warning = true then { Device.initial with flags := { powerWarn := true } } else State.reset.dev := by
  cases warning with
  | false => exact Device.beginMount_settled g
  | true => exact Device.settle_atRest _ _ (Device.initial_atRest _)

theorem State.resetTo_eq (s : State) (cut : CutShort) (low : Bool) (mv : Nat) :
    s.resetTo cut low mv =
      { State.reset with
        pending := s.pending
        flash := cutErase (cutProgram s.flash s.dev.fc.op cut.line) s.dev.fc.erase cut.erase
        power := resetPower low mv
        rstLow := s.rstLow
        dev := if (resetPower low mv).warning = true then { Device.initial with flags := { powerWarn := true } } else State.reset.dev } :=
  State.engines_eq _ _ (resetDevice_settled {} (resetPower low mv).warning)

theorem exec_powerOnReset (s : State) (cut : CutShort) (low : Bool) (mv : Nat) :
    exec (.powerOnReset cut low mv) s = .next (s.resetTo cut low mv) := rfl

theorem cutProgram_noProgram (f : Flash) (op : Option (Requester × Request)) (read : LineRead)
    (h : ∀ who b line data, op ≠ some (who, .program b line data)) : cutProgram f op read = f := by
  unfold cutProgram
  split
  · rename_i who b line data
    exact absurd rfl (h who b line data)
  · rfl

/-- Settles O54: every reset is `State.resetTo`, and its blocks come to rest in the same step. -/
theorem resetKeepsFlashAndMounts : Obligations.ResetKeepsFlashAndMounts := by
  refine ⟨fun s cut low mv warning hw => ?powerOn, fun s cut mv between => ⟨fun h => ⟨?falls, ?rises⟩, fun h => ?pfw⟩,
    fun s n cut => ⟨fun h => ?short, fun hl hn => ?pulse, rfl, fun hl => ?up, fun hl => ?noUp⟩, fun s cut he hop => ?nothing⟩
  case powerOn =>
    subst hw
    rw [exec_powerOnReset, State.resetTo_eq, resetPower_eq]
  case falls => exact congrArg _ (s.levels_brownOut _ _ _ _ h)
  case rises => exact congrArg _ (s.levels_brownOut _ _ _ _ h)
  case pfw => exact congrArg _ (s.levels_brownOut _ _ _ _ (.inl h))
  case short =>
    refine congrArg Host.Outcome.next (if_neg ?_)
    rintro ⟨hl, hn⟩
    exact h.elim (fun h => absurd hl (by simp [h])) (fun h => absurd hn (Nat.not_le_of_lt h))
  case pulse => exact congrArg Host.Outcome.next (if_pos ⟨hl, hn⟩)
  case up => exact congrArg Host.Outcome.next (if_pos hl)
  case noUp => exact congrArg Host.Outcome.next (if_neg (by simp [hl]))
  case nothing =>
    rw [he, cutProgram_noProgram _ _ _ hop]
    rfl

/-! ## The events at which the array changes (R1, R2, R9, R16, R20, R21) -/

/-- A data byte acts in a write frame at its address; anywhere else it reaches the port alone (R191). -/
theorem State.windowWrite_cases (s : State) (a : Addr) (act : State → State) :
    s.windowWrite a act = act s.byteTaken ∨ ∃ port, s.windowWrite a act = { s with port := port } := by
  unfold State.windowWrite
  split
  · split
    · exact .inl rfl
    · exact .inr ⟨_, rfl⟩
  · exact .inr ⟨_, rfl⟩
  · exact .inr ⟨_, rfl⟩

theorem State.windowWrite_flash (s : State) (a : Addr) (act : State → State) (h : ∀ u, (act u).flash = u.flash) :
    (s.windowWrite a act).flash = s.flash := by
  rcases s.windowWrite_cases a act with he | ⟨port, he⟩ <;> rw [he]
  exact h s.byteTaken

theorem State.go_flash (s : State) (code : Option CommandCode) : (s.go code).flash = s.flash := by
  unfold State.go
  split
  · exact State.windowWrite_flash s _ _ fun _ => rfl
  · rfl

theorem State.storeRegister_flash (a : Addr) (v : Byte) (s : State) : (s.storeRegister a v).flash = s.flash := by
  unfold State.storeRegister
  repeat' split
  all_goals rfl

theorem State.tickDebounce_flash (s : State) : s.tickDebounce.flash = s.flash := by
  unfold State.tickDebounce
  repeat' split
  all_goals rfl

theorem State.abandonedFlash_noErase (s : State) (remains : EraseRemains) (h : s.dev.fc.erase = none) :
    s.abandonedFlash remains = s.flash := by
  unfold State.abandonedFlash
  rw [h]

/-- Judging the sources changes the array only where the entry to WARNING abandons an erase. -/
theorem State.judgePower_flash (s : State) (entry : WarningEntry) (h : (s.judgePower entry).flash ≠ s.flash) :
    s.dev.fc.erase ≠ none ∧ s.power.warning = false ∧ (s.judgePower entry).power.warning = true := by
  cases ha : powerAsserted s.cfg s.power with
  | false => exact absurd (by rw [State.judgePower_quiet _ _ ha]) h
  | true =>
    cases hw : s.power.warning with
    | true => exact absurd (by rw [State.judgePower_again _ _ ha hw]) h
    | false =>
      rw [State.judgePower_enters _ _ ha hw] at h ⊢
      exact ⟨fun he => h (s.abandonedFlash_noErase _ he), rfl, rfl⟩

/-- New levels of the sources change the array only by a reset or where the entry to WARNING abandons an erase. -/
theorem State.levels_flash (s : State) (low : Bool) (mv : Nat) (cut : CutShort) (between : Bool)
    (h : (s.levels low mv cut between).flash ≠ s.flash) :
    (mv < 1600 ∨ s.power.vdd < 1600) ∨
      s.dev.fc.erase ≠ none ∧ s.power.warning = false ∧ (s.levels low mv cut between).power.warning = true := by
  by_cases hv : mv < 1600 ∨ s.power.vdd < 1600
  · exact .inl hv
  · obtain ⟨hm, hs⟩ := not_or.mp hv
    rw [s.levels_judged _ _ _ _ (Nat.le_of_not_lt hm) (Nat.le_of_not_lt hs)] at h ⊢
    exact .inr (State.judgePower_flash _ _ h)

/-- A configuration byte changes the array only where a new supply threshold makes the condition WARNING. -/
theorem State.configure_flash (s : State) (a : Addr) (v : Byte) (entry : WarningEntry) (h : (s.configure a v entry).flash ≠ s.flash) :
    a = 0x46 ∧ s.dev.fc.erase ≠ none ∧ s.power.warning = false ∧ (s.configure a v entry).power.warning = true := by
  unfold State.configure at h ⊢
  by_cases ha : a = 0x46
  · rw [if_pos ha] at h ⊢
    exact ⟨ha, State.judgePower_flash _ _ h⟩
  · exact absurd (by rw [if_neg ha]) h

/-- The same, as the byte arrives in a write frame. -/
theorem State.windowWrite_configure_flash (s : State) (a : Addr) (v : Byte) (entry : WarningEntry)
    (h : (s.windowWrite a (State.configure a v entry)).flash ≠ s.flash) :
    a = 0x46 ∧ s.dev.fc.erase ≠ none ∧ s.power.warning = false ∧ (s.windowWrite a (State.configure a v entry)).power.warning = true := by
  rcases s.windowWrite_cases a (State.configure a v entry) with he | ⟨port, he⟩
  · rw [he] at h ⊢
    exact s.byteTaken.configure_flash a v entry h
  · exact absurd (by rw [he]) h

/-- Settles O27: for every command that is no flash outcome, decay, reset or entry to WARNING the array is the same before and after. -/
theorem flashChangesOnlyByItsEvents : Obligations.FlashChangesOnlyByItsEvents := by
  intro i s t h hne
  cases i
  case lineProgramOutcome result => exact .inl ⟨result, rfl⟩
  case bankEraseOutcome remains => exact .inr (.inl ⟨remains, rfl⟩)
  case payloadDecay b line index bytes => exact .inr (.inr (.inl ⟨b, line, index, bytes, rfl⟩))
  case powerOnReset => exact .inr (.inr (.inr (.inl trivial)))
  case pinReset pin cut =>
    obtain rfl := Host.Outcome.next.inj h
    refine .inr (.inr (.inr (.inl ?_)))
    cases pin with
    | pulse n =>
      by_cases hn : s.rstLow = false ∧ Config.resetPulse ≤ n
      · exact hn
      · exact absurd (by simp only [if_neg hn]) hne
    | low => exact absurd rfl hne
    | rises =>
      by_cases hl : s.rstLow = true
      · exact hl
      · exact absurd (by simp only [if_neg hl]) hne
  case powerWarning source cut =>
    obtain rfl := Host.Outcome.next.inj h
    refine .inr (.inr (.inr ?_))
    cases source with
    | pfw between =>
      rcases s.levels_flash _ _ _ _ hne with hv | ⟨he, hw, ht⟩
      · exact .inl (.inl (hv.elim id id))
      · exact .inr ⟨he, hw, ht, .inl ⟨_, _, rfl⟩⟩
    | supply mv between =>
      rcases s.levels_flash _ _ _ _ hne with hv | ⟨he, hw, ht⟩
      · exact .inl (hv.elim (fun hm => .inr ⟨mv, between, rfl, hm⟩) .inl)
      · exact .inr ⟨he, hw, ht, .inl ⟨_, _, rfl⟩⟩
  case powerWarningDeasserted supply =>
    obtain rfl := Host.Outcome.next.inj h
    refine .inr (.inr (.inr ?_))
    rcases s.levels_flash _ _ _ _ hne with hv | ⟨he, hw, ht⟩
    · exact .inl hv.symm
    · exact .inr ⟨he, hw, ht, .inr (.inl ⟨_, rfl⟩)⟩
  case configurationWrite a v entry =>
    obtain rfl := Host.Outcome.next.inj h
    by_cases hc : Addr.isConfiguration a = true
    · rw [if_pos hc] at hne ⊢
      obtain ⟨rfl, he, hw, ht⟩ := s.windowWrite_configure_flash _ _ _ hne
      exact .inr (.inr (.inr (.inr ⟨he, hw, ht, .inr (.inr ⟨v, entry, rfl⟩)⟩)))
    · exact absurd (by rw [if_neg hc]) hne
  all_goals
    obtain rfl := Host.Outcome.next.inj h
    refine absurd ?_ hne
  case read | write | delete | add | list | openGroup | commitGroup | dropGroup | reclaim | format | raiseLock | codeNamesNoCommand =>
    exact State.go_flash s _
  case pop | bufferDataWrite | notificationFlagsClear | enableMaskWrite => exact State.windowWrite_flash s _ _ fun _ => rfl
  case portReset v => exact State.windowWrite_flash s _ _ fun u => by split <;> rfl
  case registerWrite a v =>
    split
    · rfl
    · exact State.windowWrite_flash s _ _ fun u => State.storeRegister_flash a v u
  case timebaseTick => exact State.tickDebounce_flash _
  case frame | frameEnd | bufferDataRead | takeCommand | groupExpiry | recovery | multiLineReadOutcome | reclaimTakeUpWork =>
    repeat' split
    all_goals rfl

end Sys2Proof.Machine
end

section
/-! The census of mount (R19, R36, R63, R151): the current generation, the class of a bank, its epoch and erase count, and a mount of an
array that has no current generation. -/
namespace Sys2Proof.Machine
open Sys2Proof

/-! ## The current generation (R19) -/

theorem CensusRow.generation_eq_some (r : CensusRow) (g : Nat) : r.generation = some g ↔ ∃ c z, r.header = .bankHeader g c z := by
  unfold CensusRow.generation
  cases r.header <;> simp

theorem CensusRow.generation_eq_none (r : CensusRow) : r.generation = none ↔ ∀ g c z, r.header ≠ .bankHeader g c z := by
  unfold CensusRow.generation
  cases r.header <;> simp

/-- The current generation is the greatest of the generations read. -/
theorem currentGeneration_eq_max? (rows : List CensusRow) : currentGeneration rows = (rows.filterMap CensusRow.generation).max? := by
  unfold currentGeneration
  split <;> simp [*, List.max?]

theorem currentGeneration_eq_none (rows : List CensusRow) :
    currentGeneration rows = none ↔ ∀ r ∈ rows, ∀ g c z, r.header ≠ .bankHeader g c z := by
  rw [currentGeneration_eq_max?, List.max?_eq_none_iff, List.filterMap_eq_nil_iff]
  simp only [CensusRow.generation_eq_none]

theorem currentGeneration_eq_some (rows : List CensusRow) (g : Nat) :
    currentGeneration rows = some g ↔
      (∃ r ∈ rows, ∃ c z, r.header = .bankHeader g c z) ∧ ∀ r ∈ rows, ∀ g' c z, r.header = .bankHeader g' c z → g' ≤ g := by
  rw [currentGeneration_eq_max?, List.max?_eq_some_iff]
  simp only [List.mem_filterMap, CensusRow.generation_eq_some]
  refine and_congr_right fun _ => ⟨fun h r hr g' c z hg => h g' ⟨r, hr, c, z, hg⟩, fun h g' hg => ?_⟩
  obtain ⟨r, hr, c, z, hg⟩ := hg
  exact h r hr g' c z hg

/-! ## The class of a bank (R19, R36, R63) -/

/-- A bank whose header line passes its check is never BLANK, and opened or FREE in the current generation alone. -/
theorem CensusRow.classify_headed {r : CensusRow} {g c : Nat} {z : Byte} (h : r.header = .bankHeader g c z) (current : Option Nat) :
    r.classify current ≠ .blank ∧
    (r.classify current = .opened ↔ current = some g ∧ r.retire = Line.erased ∧ ∃ e z, r.openLine = .openLine e z) ∧
    (r.classify current = .free ↔ current = some g ∧ r.retire = Line.erased ∧ r.openLine = Line.erased) := by
  unfold CensusRow.classify
  rw [h]
  by_cases hr : r.retire = Line.erased
  · by_cases hg : current = some g
    · cases ho : r.openLine
      case raw bytes =>
        by_cases hb : bytes = erasedBytes <;> simp [hr, hg, Line.isErased, Line.erased, hb]
      all_goals simp [hr, hg, Line.isErased, Line.erased]
    · simp [hr, hg]
  · simp [hr, (Line.isErased_eq_false _).mpr hr]

/-- A bank whose header line passes no check is BLANK when all of it reads erased, and RETIRED otherwise. -/
theorem CensusRow.classify_headless {r : CensusRow} (h : ∀ g c z, r.header ≠ .bankHeader g c z) (current : Option Nat) :
    r.classify current = if r.header = Line.erased ∧ r.restErased = true then .blank else .retired := by
  unfold CensusRow.classify
  split
  · rename_i g c z hh
    exact absurd hh (h g c z)
  · simp [Line.isErased]

/-- A bank's header passes its check or it does not. -/
theorem CensusRow.headed_or_headless (r : CensusRow) :
    (∃ g c z, r.header = .bankHeader g c z) ∨ ∀ g c z, r.header ≠ .bankHeader g c z := by
  cases r.header <;> simp

theorem CensusRow.classify_blank_iff (current : Option Nat) (r : CensusRow) :
    r.classify current = .blank ↔ r.header = Line.erased ∧ r.restErased = true := by
  rcases r.headed_or_headless with ⟨g, c, z, h⟩ | h
  · simp [(CensusRow.classify_headed h current).1, h, Line.erased]
  · rw [CensusRow.classify_headless h]
    split <;> simp [*]

theorem CensusRow.classify_opened_iff (current : Option Nat) (r : CensusRow) :
    r.classify current = .opened ↔
      (∃ g c z, r.header = .bankHeader g c z ∧ current = some g) ∧ r.retire = Line.erased ∧ ∃ e z, r.openLine = .openLine e z := by
  rcases r.headed_or_headless with ⟨g, c, z, h⟩ | h
  · simp [(CensusRow.classify_headed h current).2.1, h]
  · rw [CensusRow.classify_headless h]
    simp only [h, false_and, exists_const, iff_false]
    split <;> simp

theorem CensusRow.classify_free_iff (current : Option Nat) (r : CensusRow) :
    r.classify current = .free ↔
      (∃ g c z, r.header = .bankHeader g c z ∧ current = some g) ∧ r.retire = Line.erased ∧ r.openLine = Line.erased := by
  rcases r.headed_or_headless with ⟨g, c, z, h⟩ | h
  · simp [(CensusRow.classify_headed h current).2.2, h]
  · rw [CensusRow.classify_headless h]
    simp only [h, false_and, exists_const, iff_false]
    split <;> simp

theorem CensusRow.epoch_eq_some (current : Option Nat) (r : CensusRow) (e : Nat) :
    r.epoch current = some e ↔ (∃ g c z, r.header = .bankHeader g c z ∧ current = some g) ∧ ∃ z, r.openLine = .openLine e z := by
  have hg : (r.generation.isSome ∧ r.generation = current) ↔ ∃ g c z, r.header = .bankHeader g c z ∧ current = some g := by
    constructor
    · rintro ⟨hs, rfl⟩
      obtain ⟨g, hg⟩ := Option.isSome_iff_exists.mp hs
      obtain ⟨c, z, hh⟩ := (r.generation_eq_some g).mp hg
      exact ⟨g, c, z, hh, hg⟩
    · rintro ⟨g, c, z, hh, rfl⟩
      have := (r.generation_eq_some g).mpr ⟨c, z, hh⟩
      simp [this]
  rw [← hg]
  unfold CensusRow.epoch
  cases r.openLine <;> simp [and_comm]

theorem CensusRow.eraseCount_headed {r : CensusRow} {g c : Nat} {z : Byte} (h : r.header = .bankHeader g c z) :
    r.eraseCount = some c := by
  unfold CensusRow.eraseCount
  rw [h]

/-- Without a header that passes, the erase count is the retire line's, if that line passes (R63). -/
theorem CensusRow.eraseCount_headless {r : CensusRow} (h : ∀ g c z, r.header ≠ .bankHeader g c z) :
    (∀ c z, r.retire = .retireLine c z → r.eraseCount = some c) ∧
    ((∀ c z, r.retire ≠ .retireLine c z) → r.eraseCount = none) := by
  unfold CensusRow.eraseCount
  split
  · rename_i g c z hh
    exact absurd hh (h g _ z)
  · rename_i c z hr _
    exact ⟨fun c' z' he => congrArg some (Line.retireLine.inj (hr.symm.trans he)).1, fun hn => absurd hr (hn c z)⟩
  · rename_i hn
    exact ⟨fun c z hr => absurd hr (hn c z), fun _ => rfl⟩

/-! ## A mount without a current generation (R151, R159) -/

/-- The entries that mount gives the banks when no journal counts. -/
theorem mountBanks_noJournal (rows : List CensusRow) (x : BankId) :
    (mountBanks rows [] [] [] [] []).get x = otherEntry (currentGeneration rows) false (censusRow rows x) := by
  have hx : (mountBanks rows [] [] [] [] []).get x = (mountBanks rows [] [] [] [] [])[x.val] := rfl
  rw [hx, mountBanks, Vector.getElem_ofFn]
  rfl

/-- A bank without a header of its own is BLANK or RETIRED, its epoch unknown (R36, R63). -/
theorem otherEntry_headless {r : CensusRow} (h : ∀ g c z, r.header ≠ .bankHeader g c z) :
    otherEntry none false r =
      { state := if r.header = Line.erased ∧ r.restErased = true then .blank else .retired
        epoch := none, eraseCount := if r.header = Line.erased ∧ r.restErased = true then none else r.eraseCount
        used := 0, dead := 0, tagged := 0, suspect := false } := by
  have he : r.epoch none = none := by
    cases he : r.epoch none with
    | none => rfl
    | some e => obtain ⟨⟨g, c, z, _, hg⟩, _⟩ := (r.epoch_eq_some none e).mp he; cases hg
  unfold otherEntry
  rw [CensusRow.classify_headless h]
  by_cases hb : r.header = Line.erased ∧ r.restErased = true
  · simp [hb, BankEntry.initial]
  · simp [hb, BankEntry.initial, he]

/-- The last bank's census of an array without a current generation ends mount (R151, R159). -/
theorem Device.censusDone_blank (d : Device) (rows : List CensusRow) (hl : rows.length = 32) (hg : currentGeneration rows = none) :
    d.censusDone rows =
      { d with
        banks := mountBanks rows [] [] [] [] [], nextSeq := 1, nextEpoch := 1, generation := none, store := .blank, mountOutcome := .blank
        reclaim := { d.reclaim with
          eraseList := allBanks.filter fun x => ((mountBanks rows [] [] [] [] []).get x).state = .retired }
        banksHanded := (allBanks.filter fun x => ((mountBanks rows [] [] [] [] []).get x).state = .retired).length
        flags := { d.flags with mounted := true }, mount := .idle } := by
  unfold Device.censusDone
  rw [if_neg (by simp [hl, Config.bankCount]), if_pos (by simp [hg])]
  simp [Device.finishBlank, Device.handOff, Device.banksIn, Device.bank, Config.counterLimit]
  exact ⟨rfl, rfl⟩

/-- The census read of a bank whose header line reads programmed gives the bank's row. -/
theorem Device.mountRead_census (d : Device) (f : Flash) (b : BankId) (rows : List CensusRow) (row : CensusRow)
    (hm : d.mount = .census rows)
    (hrow : row = { header := f.line b 0, openLine := f.line b 1, retire := f.line b 2, restErased := false })
    (hh : row.header ≠ Line.erased) : d.mountRead (f.lines b 0 3) = d.censusDone (rows ++ [row]) := by
  subst hrow
  have hlines : f.lines b 0 3 = [f.line b 0, f.line b 1, f.line b 2] := rfl
  unfold Device.mountRead
  rw [hm, hlines]
  exact if_neg (by simpa [Line.isErased_iff] using hh)

/-- MULTI_LINE_READ_OUTCOME while a read is in progress (R9). -/
theorem exec_multiLineReadOutcome {s : State} {who : Requester} {b : BankId} {first count : Nat}
    (h : s.dev.fc.op = some (who, .read b first count)) :
    exec .multiLineReadOutcome s = .next (s.engines fun d => d.opDone.readLines s.ctx who (s.flash.lines b first count)) := by
  show execMultiLineReadOutcome s = _
  unfold execMultiLineReadOutcome
  rw [h]

/-- Settles O46: the rows of R19, and the hand-off of an array that carries no header. -/
theorem censusClassifiesBanks : Obligations.CensusClassifiesBanks := by
  refine ⟨fun rows => ⟨currentGeneration_eq_none rows, currentGeneration_eq_some rows⟩,
    fun current r => ⟨r.classify_blank_iff current, r.classify_opened_iff current, r.classify_free_iff current, r.epoch_eq_some current,
      fun g c z => CensusRow.eraseCount_headed, CensusRow.eraseCount_headless⟩,
    fun s rows row b hs hm hl hf hrow hh hg => ?_⟩
  obtain ⟨hop, herase, hcommand, hreclaim, hmount, _⟩ := hf
  have hlen : (rows ++ [row]).length = 32 := by simp [hl]
  have hread : s.dev.opDone.readLines s.ctx .mount (s.flash.lines b 0 3) = s.dev.opDone.censusDone (rows ++ [row]) :=
    Device.mountRead_census s.dev.opDone s.flash b rows row hm hrow hh
  rw [Device.censusDone_blank _ _ hlen hg] at hread
  have hrest : (s.dev.opDone.readLines s.ctx .mount (s.flash.lines b 0 3)).AtRest := by
    rw [hread]
    exact ⟨hcommand, hreclaim, hmount, hs.command, hs.writer, fun e he => by cases herase.symm.trans he⟩
  refine ⟨_, (exec_multiLineReadOutcome hop).trans (congrArg _ (State.engines_eq _ _ (Device.settle_atRest _ _ hrest))), ?_,
    fun x y hy => ?_⟩
  · rw [hread]
    rfl
  · have hrow : censusRow (rows ++ [row]) x = y := by
      rw [censusRow, List.getD_eq_getElem?_getD, hy]
      rfl
    have hy : ∀ g c z, y.header ≠ .bankHeader g c z := (currentGeneration_eq_none _).mp hg y (List.mem_of_getElem? hy)
    rw [hread]
    exact (mountBanks_noJournal _ x).trans (by rw [hg, hrow, otherEntry_headless hy])

end Sys2Proof.Machine
end

section
/-! Taking a command in its turn (R74, R82, R87, R111): what the Command Engine takes, that its checks are those the statements name, and
how the commands that read or place a record begin. And how an executing command ends (R79, R85). -/
namespace Sys2Proof.Machine
open Sys2Proof

/-! ## What is taken -/

theorem State.ctx_normal {s : State} (h : s.power.warning = false) : s.ctx = { cfg := s.cfg, warning := false } := by
  rw [State.ctx, h]

/-- With the engine IDLE no group is COMMITTING, so a command joins the group whenever there is one (R111). -/
theorem Device.takenAsMember_eq_joins {d : Device} (p : Posted) (hx : d.ex = none) (hg : d.groupLaw) :
    d.takenAsMember p.code = d.joins p := by
  unfold Device.takenAsMember Device.joins
  cases h : d.group with
  | none => rfl
  | some g =>
    cases hs : g.state with
    | opened => simp [hs]
    | committing =>
      have := (hg g h).1 hs
      rw [hx] at this
      cases this

theorem State.taken_eq_headExecuting {s : State} (p : Posted) (hx : s.dev.ex = none) (hg : s.dev.groupLaw) :
    s.dev.taken { cfg := s.cfg, warning := false } p = s.headExecuting p := by
  unfold Device.taken
  rw [Device.takenAsMember_eq_joins p hx hg]
  rfl

theorem Device.generalChecks_pass {d : Device} {c : Ctx} {code : CommandCode} (hw : c.warning = false)
    (h : d.store = .ready ∨ (d.store = .degraded ∧ code.readOnlyRefused = false) ∨ (d.store = .blank ∧ code = .format)) :
    firstRefusal (d.generalChecks c code) = none := by
  rcases h with h | ⟨h, hc⟩ | ⟨h, hc⟩ <;> simp [Device.generalChecks, firstRefusal, *]

theorem Device.groupTaken_other (d : Device) {p : Posted} (h : p.code ≠ .commitGroup) : d.groupTaken p = d.group := by
  unfold Device.groupTaken
  split
  · exact absurd (by assumption) h
  · rfl

theorem Device.groupTaken_commitGroup (d : Device) {p : Posted} (h : p.code = .commitGroup) :
    d.groupTaken p = d.group.map fun g => { g with state := .committing, deadline := none } := by
  unfold Device.groupTaken
  rw [h]
  cases d.group <;> rfl

/-- In its turn the head of the queue is taken, a COMMIT_GROUP with its group COMMITTING (R74, R115). -/
theorem State.Turn.takeHead {s : State} {p : Posted} {rest : List Posted} (h : s.Turn p rest) :
    s.dev.takeHead { cfg := s.cfg, warning := false } = s.headTaken p rest := by
  obtain ⟨hx, hq, hruns, _, _, hg⟩ := h
  have hm : s.dev.store ≠ .mounting := by rcases hruns with h | ⟨h, _⟩ | ⟨h, _⟩ <;> simp [h]
  rw [Device.takeHead_head _ _ hx hq hm, State.taken_eq_headExecuting p hx hg, Device.generalChecks_pass rfl hruns]
  unfold State.headTaken Device.closeGroup
  dsimp only
  by_cases hc : p.code = .commitGroup
  · rw [if_pos hc, Device.groupTaken_commitGroup _ hc]
    rfl
  · rw [if_neg hc, Device.groupTaken_other _ hc]

theorem State.headTaken_other {s : State} {p : Posted} (rest : List Posted) (h : p.code ≠ .commitGroup) :
    s.headTaken p rest = { s.dev with queue := rest, ex := some (s.headExecuting p) } := by
  rw [State.headTaken, Device.groupTaken_other _ h]

/-! ## The checks as the statements name them (R87, R88, R90, R93, R94) -/

theorem Device.keyView_eq_seen {d : Device} {m : Bool} (k : Key) (h : m = d.group.isSome) : d.keyView m k = d.seen k := by
  subst h
  unfold Device.keyView Device.seen
  cases hg : d.group with
  | none =>
    have : d.member k = none := by simp [Device.member, hg]
    rw [this]
    cases d.entry k <;> rfl
  | some g =>
    simp only [Option.isSome_some, if_true]
    cases d.member k with
    | some m => rfl
    | none => cases d.entry k <;> rfl

theorem Device.groupFull_eq_seventeenth {d : Device} {m : Bool} (k : Key) (h : m = d.group.isSome) :
    d.groupFull m k = d.seventeenth k := by
  subst h
  unfold Device.groupFull Device.seventeenth
  cases d.group
  · rfl
  · simp
    rfl

theorem Device.firstRefusal_readChecks (d : Device) (q : Descriptor) : firstRefusal (d.readChecks q) = d.readRefusal q := by
  unfold Device.readChecks Device.readRefusal badKey
  cases d.entry q.key <;> simp [firstRefusal] <;> rfl

theorem Device.firstRefusal_writeChecks {d : Device} {x : Executing} (h : x.member = d.group.isSome) :
    firstRefusal (d.writeChecks x) = d.writeRefusal x.desc := by
  unfold Device.writeChecks Device.writeRefusal badKey
  dsimp only
  rw [Device.keyView_eq_seen _ h, Device.groupFull_eq_seventeenth _ h]
  cases d.seen x.desc.key <;>
    simp [firstRefusal, existingWriteChecks, Device.newWriteChecks, Device.directoryFull] <;> rfl

theorem Device.firstRefusal_deleteChecks {d : Device} {x : Executing} (h : x.member = d.group.isSome) :
    firstRefusal (d.deleteChecks x) = d.deleteRefusal x.desc := by
  unfold Device.deleteChecks Device.deleteRefusal badKey
  dsimp only
  rw [Device.keyView_eq_seen _ h, Device.groupFull_eq_seventeenth _ h]
  cases d.seen x.desc.key <;> simp [firstRefusal]

theorem Device.firstRefusal_addChecks {d : Device} {x : Executing} (h : x.member = d.group.isSome) :
    firstRefusal (d.addChecks x) = d.addRefusal x.desc := by
  unfold Device.addChecks Device.addRefusal badKey
  dsimp only
  rw [Device.keyView_eq_seen _ h, Device.groupFull_eq_seventeenth _ h]
  cases d.seen x.desc.key
  · simp [firstRefusal, Device.directoryFull]
    rfl
  · simp [firstRefusal]

theorem Device.firstRefusal_raiseLockChecks (d : Device) (q : Descriptor) :
    firstRefusal (d.raiseLockChecks q) = d.raiseLockRefusal q := by
  unfold Device.raiseLockChecks Device.raiseLockRefusal
  by_cases h : 2 < q.argument.toNat <;> simp [firstRefusal, h]

theorem Device.firstRefusal_formatChecks (d : Device) :
    firstRefusal d.formatChecks = if d.level = .final ∨ d.generation = some 0xFFFFFFFF then some .locked else none := by
  unfold Device.formatChecks
  by_cases h : d.level = .final
  · simp [firstRefusal, h]
  · simp [firstRefusal, h]
    rfl

/-! ## The first step of a command that places a record (R92, R93, R95, R115, R172) -/

theorem Device.memberGid_eq_groupId {d : Device} {x : Executing} (h : x.member = d.group.isSome) : d.memberGid x = d.groupId := by
  unfold Device.memberGid Device.openGid Device.groupId
  rw [h]
  cases d.group <;> rfl

theorem Device.writeClass_eq_recordClass (d : Device) (q : Descriptor) :
    writeClass (d.seen q.key) (classField q.cls) = d.recordClass q := by
  unfold writeClass Device.recordClass
  cases d.seen q.key <;> cases classField q.cls <;> rfl

theorem Device.startRead_reads {d : Device} {x : Executing} {entry : DirEntry} {loc : Location} (hr : d.readRefusal x.desc = none)
    (he : d.entry x.desc.key = some entry) (hl : entry.loc = some loc) :
    d.startRead x = (d.setStage (.reading loc)).request .command (.read loc.bank loc.line (spanOf entry.length)) := by
  unfold Device.startRead
  rw [Device.firstRefusal_readChecks, hr]
  simp only [he, hl, Option.bind_some, Option.map_some, recordRead]

theorem Device.startWrite_places {d : Device} {x : Executing} (c : Ctx) (payload : List Byte) (hm : x.member = d.group.isSome)
    (hr : d.writeRefusal x.desc = none) :
    d.startWrite c x payload =
      d.commandPlace c (Writer.fresh
        { key := x.desc.key, kind := .data, cls := d.recordClass x.desc, payload := payload, gid := d.groupId }) := by
  unfold Device.startWrite
  rw [Device.firstRefusal_writeChecks hm, hr]
  unfold Device.writeRecord
  rw [Device.keyView_eq_seen _ hm, Device.writeClass_eq_recordClass, Device.memberGid_eq_groupId hm]

theorem Device.startDelete_places {d : Device} {x : Executing} {v : KeyView} (c : Ctx) (hm : x.member = d.group.isSome)
    (hr : d.deleteRefusal x.desc = none) (hv : d.seen x.desc.key = some v) :
    d.startDelete c x =
      d.commandPlace c (Writer.fresh
        { key := x.desc.key, kind := .tombstone, cls := v.cls, payload := [], gid := d.groupId }) := by
  unfold Device.startDelete
  rw [Device.firstRefusal_deleteChecks hm, hr]
  unfold Device.deleteRecord
  rw [Device.keyView_eq_seen _ hm, hv, Device.memberGid_eq_groupId hm]
  rfl

theorem Device.startAdd_places {d : Device} {x : Executing} (c : Ctx) (hm : x.member = d.group.isSome)
    (hr : d.addRefusal x.desc = none) (hv : d.seen x.desc.key = none) :
    d.startAdd c x =
      d.commandPlace c (Writer.fresh
        { key := x.desc.key, kind := .data, cls := .counter, payload := bytesOf 8 x.desc.argument.toNat, gid := d.groupId }) := by
  unfold Device.startAdd
  rw [Device.firstRefusal_addChecks hm, hr, Device.keyView_eq_seen _ hm, hv]
  unfold counterRecord
  rw [Device.memberGid_eq_groupId hm]
  rfl

theorem Device.startCommitGroup_places {d : Device} {g : GroupContext} (c : Ctx) (hg : d.group = some g) (hm : g.members ≠ []) :
    d.startCommitGroup c = d.commandPlace c (Writer.fresh (commitRecord g.id g.members.length)) := by
  unfold Device.startCommitGroup
  rw [hg]
  exact if_neg (by simpa using hm)

theorem Device.startRaiseLock_places {d : Device} {x : Executing} (c : Ctx) (hr : d.raiseLockRefusal x.desc = none)
    (hn : d.repairing = false) :
    d.startRaiseLock c x = d.commandPlace c (Writer.fresh (lockRecord x.desc.argument.toNat)) := by
  unfold Device.startRaiseLock
  rw [Device.firstRefusal_raiseLockChecks, hr]
  exact if_neg (by simp [hn])

/-- A command that its checks let pass and that has a record to program places it. -/
theorem State.headTaken_places {s : State} {p : Posted} (rest : List Posted) {record : RecordSpec} (c : Ctx)
    (hr : s.dev.refusalFor p = none) (hrec : s.dev.recordFor p = some record) :
    (s.headTaken p rest).makeStep c = (s.headTaken p rest).commandPlace c (Writer.fresh record) := by
  obtain ⟨code, q⟩ := p
  rw [Device.makeStep_taken c _ (x := s.headExecuting ⟨code, q⟩) rfl rfl]
  have hm (hj : code.joinsGroup = true) : (s.headExecuting ⟨code, q⟩).member = s.dev.group.isSome := by
    show (code.joinsGroup && s.dev.group.isSome) = _
    rw [hj, Bool.true_and]
  cases code
  case write =>
    rw [State.headTaken_other rest (by simp), ← Option.some.inj hrec]
    exact Device.startWrite_places c _ (hm rfl) hr
  case delete =>
    rw [State.headTaken_other rest (by simp)]
    cases hv : s.dev.seen q.key with
    | none => simp [Device.recordFor, hv] at hrec
    | some v =>
      simp only [Device.recordFor, hv, Option.some.injEq] at hrec
      subst hrec
      exact Device.startDelete_places c (hm rfl) hr hv
  case add =>
    rw [State.headTaken_other rest (by simp)]
    cases hv : s.dev.seen q.key with
    | some v => simp [Device.recordFor, hv] at hrec
    | none =>
      simp only [Device.recordFor, hv, Option.some.injEq] at hrec
      subst hrec
      exact Device.startAdd_places c (hm rfl) hr hv
  case commitGroup =>
    cases hg : s.dev.group with
    | none => simp [Device.recordFor, hg] at hrec
    | some g =>
      by_cases he : g.members = []
      · simp [Device.recordFor, hg, he] at hrec
      · simp only [Device.recordFor, hg, if_neg he, Option.some.injEq] at hrec
        subst hrec
        refine Device.startCommitGroup_places c (g := { g with state := .committing, deadline := none }) ?_ he
        show s.dev.groupTaken _ = _
        rw [Device.groupTaken_commitGroup _ rfl, hg]
        rfl
  case raiseLock =>
    rw [State.headTaken_other rest (by simp)]
    cases hn : s.dev.repairing with
    | true => simp [Device.recordFor, hn] at hrec
    | false =>
      simp only [Device.recordFor, hn, Bool.false_eq_true, if_false, Option.some.injEq] at hrec
      subst hrec
      exact Device.startRaiseLock_places c hr hn
  case read | list | openGroup | dropGroup | reclaim | format => cases hrec

/-- A READ that its checks let pass asks for the lines of its key's record (R89). -/
theorem State.headTaken_reads {s : State} {p : Posted} (rest : List Posted) {entry : DirEntry} {loc : Location} (c : Ctx)
    (hc : p.code = .read) (hr : s.dev.refusalFor p = none) (he : s.dev.entry p.desc.key = some entry) (hl : entry.loc = some loc) :
    (s.headTaken p rest).makeStep c =
      ((s.headTaken p rest).setStage (.reading loc)).request .command (.read loc.bank loc.line (spanOf entry.length)) := by
  obtain ⟨code, q⟩ := p
  subst hc
  rw [Device.makeStep_taken c _ (x := s.headExecuting ⟨.read, q⟩) rfl rfl, State.headTaken_other rest (by simp)]
  exact Device.startRead_reads hr he hl

/-! ## How an executing command ends (R74, R79, R85) -/

theorem Device.releaseBuffer_frame (d : Device) (code : CommandCode) (field : Byte) :
    ∃ buffers, d.releaseBuffer code field = { d with buffers := buffers } := by
  unfold Device.releaseBuffer
  split
  · split
    · exact ⟨_, rfl⟩
    · exact ⟨d.buffers, rfl⟩
  · exact ⟨d.buffers, rfl⟩

/-- The end of a command reaches the engine, the buffer it named and the FIFO. -/
theorem Device.executingEnded_frame (d : Device) (x : Executing) (status : Status) (result : Nat) :
    ∃ fifo buffers, d.executingEnded x status result = { d with ex := none, fifo := fifo, buffers := buffers } := by
  unfold Device.executingEnded
  split
  · exact ⟨d.fifo, d.buffers, rfl⟩
  · obtain ⟨buffers, h⟩ := Device.releaseBuffer_frame { d with ex := none } x.code x.desc.buffer
    rw [h]
    exact ⟨_, buffers, rfl⟩

/-- A command that is no member and no COMMIT_GROUP leaves the group alone at its end. -/
theorem Device.endCommand_eq {d : Device} {x : Executing} (status : Status) (result : Nat) (hx : d.ex = some x)
    (hc : x.code ≠ .commitGroup) (hm : x.member = false) : d.endCommand status result = d.executingEnded x status result := by
  unfold Device.endCommand Device.executingEnded
  rw [hx]
  cases d.group <;> simp [hc, hm]

theorem Device.supersede_frame (d : Device) (e : DirEntry) : ∃ banks, d.supersede e = { d with banks := banks } := by
  unfold Device.supersede
  split
  · exact ⟨d.banks, rfl⟩
  · exact ⟨_, rfl⟩
  · exact ⟨d.banks, rfl⟩

theorem Device.dropSpentTombstone_frame (d : Device) (k : Key) :
    ∃ dir banks, d.dropSpentTombstone k = { d with dir := dir, banks := banks } := by
  unfold Device.dropSpentTombstone
  repeat' split
  all_goals exact ⟨_, _, rfl⟩

/-- A commit outside a group changes the Directory and the counts of banks. -/
theorem Device.commitEntry_frame (d : Device) (c : Committed) :
    ∃ dir banks, d.commitEntry c = { d with dir := dir, banks := banks } := by
  unfold Device.commitEntry
  dsimp only
  split
  · rename_i e _
    obtain ⟨banks, hb⟩ := d.supersede_frame e
    rw [hb]
    exact Device.dropSpentTombstone_frame _ _
  · exact Device.dropSpentTombstone_frame _ _

end Sys2Proof.Machine
end

section
/-! The Flash Controller (R10 to R15): which waiting request the arbiter grants, and what a grant, a suspension and the end of a command's
line leave at the controller. -/
namespace Sys2Proof.Machine
open Sys2Proof

/-! ## Which request can be granted (R10, R11, R13) -/

theorem Device.grantable_free {d : Device} (who : Requester) (r : Request) (ho : d.fc.op = none) (he : d.fc.erase = none) :
    d.grantable who r = true := by
  simp [Device.grantable, ho, he]

theorem Device.grantable_beside_read {d : Device} {e : EraseOp} (who : Requester) (b : BankId) (first count : Nat)
    (ho : d.fc.op = none) (he : d.fc.erase = some e) : d.grantable who (.read b first count) = true ↔ b ≠ e.bank := by
  simp [Device.grantable, ho, he]

theorem Device.grantable_beside_program {d : Device} {e : EraseOp} (b : BankId) (line : Nat) (data : Line)
    (ho : d.fc.op = none) (he : d.fc.erase = some e) :
    d.grantable .command (.program b line data) = true ↔ e.suspended = true ∨ d.fc.decided = some true := by
  simp [Device.grantable, ho, he]

/-! ## Which request is granted next (R13, R14, R15) -/

/-- The Command Engine's request goes ahead, unless the Reclaim Engine waits too and has been passed over sixteen times. -/
theorem Device.nextGrant_command {d : Device} {r : Request} (hc : d.fc.waitCommand = some r) (hg : d.grantable .command r = true)
    (h : d.fc.waitReclaim = none ∨ d.fc.fairness < 16) : d.nextGrant = some (.command, r) := by
  unfold Device.nextGrant
  rw [hc]
  simp only [Option.filter_some, hg, if_true]
  rcases h with h | h
  · rw [h]
    rfl
  · split
    · rename_i r' q hr' _
      exact (if_neg (Nat.not_le_of_lt h)).trans (by rw [Option.some.inj hr'])
    · rename_i r' hr' _
      rw [Option.some.inj hr']
    · rename_i h _
      cases h
    · rename_i h _
      cases h

/-- After sixteen grants ahead of it the Reclaim Engine's request is granted (R15). -/
theorem Device.nextGrant_reclaimTurn {d : Device} {r q : Request} (hc : d.fc.waitCommand = some r) (hr : d.fc.waitReclaim = some q)
    (hgc : d.grantable .command r = true) (hgr : d.grantable .reclaim q = true) (h : 16 ≤ d.fc.fairness) :
    d.nextGrant = some (.reclaim, q) := by
  unfold Device.nextGrant
  rw [hc, hr]
  simp only [Option.filter_some, hgc, hgr, if_true]
  exact if_pos h

theorem Device.nextGrant_ungrantable {d : Device} {r : Request} (hc : d.fc.waitCommand = some r) (hg : d.grantable .command r ≠ true)
    (hr : d.fc.waitReclaim = none) (hm : d.fc.waitMount = none) : d.nextGrant = none := by
  unfold Device.nextGrant
  simp [hc, hr, hm, Option.filter_some, hg]

/-! ## A grant -/

theorem Device.noteFormatGrant_noFormat {d : Device} (who : Requester) (h : ∀ x, d.ex = some x → x.format = none) :
    d.noteFormatGrant who = d := by
  have hmap : (d.ex.map fun x => { x with format := x.format.map fun f => { f with granted := true } }) = d.ex := by
    cases hx : d.ex with
    | none => rfl
    | some x => rw [Option.map_some, h x hx, Option.map_none, ← h x hx]
  unfold Device.noteFormatGrant
  rw [hmap]
  exact ite_self d

/-- A grant reaches the Flash Controller alone, where no FORMAT notes it. -/
theorem Device.grantRequest_noFormat {d : Device} (who : Requester) (r : Request) (h : ∀ x, d.ex = some x → x.format = none) :
    d.grantRequest who r = { d with fc := d.fc.grant who r } := Device.noteFormatGrant_noFormat who h

theorem Device.decideSuspension_frame (c : Ctx) (d : Device) :
    ∃ decided, d.decideSuspension c = { d with fc := { d.fc with decided := decided } } := by
  unfold Device.decideSuspension
  split
  · split
    · exact ⟨d.fc.decided, rfl⟩
    · exact ⟨_, rfl⟩
  · exact ⟨d.fc.decided, rfl⟩

/-- The grants of a step reach the Flash Controller alone, where no FORMAT notes them. -/
theorem Device.grantAll_frame (c : Ctx) (n : Nat) (d : Device) (h : ∀ x, d.ex = some x → x.format = none) :
    ∃ fc, Device.grantAll c n d = { d with fc := fc } := by
  induction n generalizing d with
  | zero => exact ⟨d.fc, rfl⟩
  | succ n ih =>
    obtain ⟨decided, hd⟩ := d.decideSuspension_frame c
    have hx : ∀ x, (d.decideSuspension c).ex = some x → x.format = none := by
      rw [hd]
      exact h
    unfold Device.grantAll
    split
    · rename_i who r _
      obtain ⟨fc, hfc⟩ := ih ((d.decideSuspension c).grantRequest who r) (by rw [Device.grantRequest_noFormat who r hx]; exact hx)
      exact ⟨fc, by rw [hfc, Device.grantRequest_noFormat who r hx, hd]⟩
    · exact ⟨_, hd⟩

/-- One round of the arbiter that grants. -/
theorem Device.grantAll_grants {c : Ctx} {d : Device} {who : Requester} {r : Request} (n : Nat)
    (h : (d.decideSuspension c).nextGrant = some (who, r)) :
    Device.grantAll c (n + 1) d = Device.grantAll c n ((d.decideSuspension c).grantRequest who r) := by
  rw [Device.grantAll, h]

/-- The last round: an operation is in progress, and R11 has nothing to decide. -/
theorem Device.grantAll_busy {c : Ctx} {d : Device} (n : Nat) (ho : d.fc.op ≠ none)
    (h : d.fc.waitCommand = none ∨ d.fc.erase = none) : Device.grantAll c n d = d :=
  Device.grantAll_of_none c n d (Device.decideSuspension_of_none c d h) (Device.nextGrant_of_busy d ho)

/-- In NORMAL, with no engine to wake, the end of a step is the arbiter's. -/
theorem Device.settle_arbitrates {c : Ctx} {d : Device} (hw : c.warning = false) (hk : d.NoWake c) :
    d.settle c = Device.grantAll c 3 d.resumeErase := by
  unfold Device.settle Device.arbitrate
  rw [Device.refuseWaiting_of_normal c d hw, hk.reclaim, hk.command, Device.refuseWaiting_of_normal c d hw, if_neg (by simp [hw])]

theorem Device.grantRequest_fc (d : Device) (who : Requester) (r : Request) : (d.grantRequest who r).fc = d.fc.grant who r :=
  Device.noteFormatGrant_fc _ _

theorem Device.noWake_of_steady {d : Device} (c : Ctx) (h : d.Steady) : d.NoWake c := by
  refine ⟨Device.wakeReclaim_of_noWait c d h.writer, ?_⟩
  cases hx : d.ex with
  | none => exact Device.wakeCommand_of_idle c d hx
  | some x => exact Device.wakeCommand_of_steady c d hx (h.command x hx)

/-! ## A request of a command beside an erase (R10, R11, R12) -/

/-- An erase is in progress alone at the Flash Controller, and the Command Engine's request has come to it. -/
structure FlashController.BesideErase (fc : FlashController) (e : EraseOp) (q : Request) : Prop where
  op : fc.op = none
  erase : fc.erase = some e
  command : fc.waitCommand = some q
  reclaim : fc.waitReclaim = none
  mount : fc.waitMount = none
  decided : fc.decided = none

theorem Device.resumeErase_running {d : Device} {e : EraseOp} (he : d.fc.erase = some e) (hs : e.suspended = false) :
    d.resumeErase = d := by
  have h : ({ e with suspended := false } : EraseOp) = e := by rw [← hs]
  unfold Device.resumeErase
  rw [he]
  split
  · rfl
  · rename_i e' he' _ _
    rw [← Option.some.inj he', h, ← he]
  · rfl

/-- A further program that the Command Engine presents keeps the erase SUSPENDED (R12). -/
theorem Device.resumeErase_program {d : Device} {b : BankId} {line : Nat} {data : Line}
    (h : d.fc.waitCommand = some (.program b line data)) : d.resumeErase = d := by
  unfold Device.resumeErase
  rw [h]
  cases d.fc.erase <;> cases d.fc.op <;> rfl

/-- R11 decides for a program that meets a RUNNING erase. -/
theorem Device.decideSuspension_meets {c : Ctx} {d : Device} {e : EraseOp} {b : BankId} {line : Nat} {data : Line}
    (h : d.fc.BesideErase e (.program b line data)) (hs : e.suspended = false) :
    d.decideSuspension c = { d with fc := { d.fc with decided := some (c.cfg.suspendEnable && Decidable.decide (e.count < 8)) } } := by
  unfold Device.decideSuspension
  rw [h.command, h.erase, h.decided]
  exact if_neg (by simp [hs])

/-- One grant makes up the end of the step: the operation granted keeps the controller busy. -/
theorem Device.settle_grantsOne {c : Ctx} {d : Device} {who : Requester} {r : Request} {fc : FlashController} (hw : c.warning = false)
    (hk : d.NoWake c) (hres : d.resumeErase = d) (hg : (d.decideSuspension c).nextGrant = some (who, r))
    (hfc : (d.decideSuspension c).fc.grant who r = fc) (ho : fc.op ≠ none) (hc : fc.waitCommand = none ∨ fc.erase = none) :
    d.settle c = (d.decideSuspension c).grantRequest who r ∧ (d.settle c).fc = fc := by
  have hafter : ((d.decideSuspension c).grantRequest who r).fc = fc := (Device.grantRequest_fc _ _ _).trans hfc
  have hsettle : d.settle c = (d.decideSuspension c).grantRequest who r := by
    rw [Device.settle_arbitrates hw hk, hres, Device.grantAll_grants 2 hg]
    exact Device.grantAll_busy 2 (by rw [hafter]; exact ho) (by rw [hafter]; exact hc)
  exact ⟨hsettle, by rw [hsettle, hafter]⟩

/-- A program that a RUNNING erase is suspended for is granted, the count of suspensions rising by one. -/
theorem Device.settle_suspends {c : Ctx} {d : Device} {e : EraseOp} {b : BankId} {line : Nat} {data : Line} (hw : c.warning = false)
    (hk : d.NoWake c) (h : d.fc.BesideErase e (.program b line data)) (hs : e.suspended = false)
    (ha : c.cfg.suspendEnable = true ∧ e.count < 8) :
    (d.settle c).fc = { d.fc with
      op := some (.command, .program b line data), erase := some { e with suspended := true, count := e.count + 1 }
      waitCommand := none, fairness := 0 } := by
  have hd := Device.decideSuspension_meets (c := c) h hs
  refine (Device.settle_grantsOne hw hk (Device.resumeErase_running h.erase hs) (who := .command)
    (r := .program b line data) ?_ ?_ (by simp) (.inl rfl)).2
  · rw [hd]
    refine Device.nextGrant_command h.command ?_ (.inl h.reclaim)
    exact (Device.grantable_beside_program (e := e) b line data (by exact h.op) (by exact h.erase)).mpr (.inr (by simp [ha]))
  · rw [hd]
    simp [FlashController.grant, FlashController.unwait, FlashController.fairnessAfter, EraseOp.interrupted, h.reclaim, h.erase,
      h.decided, hs]

/-- A program that a RUNNING erase is not suspended for waits. -/
theorem Device.settle_programWaits {c : Ctx} {d : Device} {e : EraseOp} {b : BankId} {line : Nat} {data : Line} (hw : c.warning = false)
    (hk : d.NoWake c) (h : d.fc.BesideErase e (.program b line data)) (hs : e.suspended = false)
    (ha : c.cfg.suspendEnable = false ∨ 8 ≤ e.count) :
    (d.settle c).fc = { d.fc with decided := some false } := by
  have hf : (c.cfg.suspendEnable && Decidable.decide (e.count < 8)) = false := by
    rcases ha with ha | ha
    · simp [ha]
    · simp [Nat.not_lt.mpr ha]
  have hd : d.decideSuspension c = { d with fc := { d.fc with decided := some false } } := by
    rw [Device.decideSuspension_meets h hs, hf]
  have hg : (d.decideSuspension c).nextGrant = none := by
    rw [hd]
    refine Device.nextGrant_ungrantable h.command ?_ h.reclaim h.mount
    intro hgr
    have := (Device.grantable_beside_program (e := e) b line data (by exact h.op) (by exact h.erase)).mp hgr
    simp [hs] at this
  rw [Device.settle_arbitrates hw hk, Device.resumeErase_running h.erase hs, Device.grantAll, hg, hd]

/-- A read of another bank is performed beside a RUNNING erase (R10). -/
theorem Device.settle_readBeside {c : Ctx} {d : Device} {e : EraseOp} {b : BankId} {first count : Nat} (hw : c.warning = false)
    (hk : d.NoWake c) (h : d.fc.BesideErase e (.read b first count)) (hs : e.suspended = false) (hb : b ≠ e.bank) :
    (d.settle c).fc = { d.fc with op := some (.command, .read b first count), waitCommand := none, fairness := 0 } := by
  have hd : d.decideSuspension c = d := by
    unfold Device.decideSuspension
    rw [h.command]
  refine (Device.settle_grantsOne hw hk (Device.resumeErase_running h.erase hs) (who := .command)
    (r := .read b first count) ?_ ?_ (by simp) (.inl rfl)).2
  · rw [hd]
    exact Device.nextGrant_command h.command ((Device.grantable_beside_read _ b first count h.op h.erase).mpr hb) (.inl h.reclaim)
  · rw [hd]
    simp [FlashController.grant, FlashController.unwait, FlashController.fairnessAfter, h.reclaim, h.decided]

/-- A read of the bank under erase waits (R10). -/
theorem Device.settle_readWaits {c : Ctx} {d : Device} {e : EraseOp} {b : BankId} {first count : Nat} (hw : c.warning = false)
    (hk : d.NoWake c) (h : d.fc.BesideErase e (.read b first count)) (hs : e.suspended = false) (hb : b = e.bank) :
    d.settle c = d := by
  have hd : d.decideSuspension c = d := by
    unfold Device.decideSuspension
    rw [h.command]
  rw [Device.settle_arbitrates hw hk, Device.resumeErase_running h.erase hs]
  refine Device.grantAll_of_none c 3 d hd (Device.nextGrant_ungrantable h.command ?_ h.reclaim h.mount)
  exact fun hgr => (Device.grantable_beside_read _ b first count h.op h.erase).mp hgr hb

/-- The next line of a record whose erase is SUSPENDED is granted, the erase as it was (R12). -/
theorem Device.settle_nextSuspended {c : Ctx} {d : Device} {e : EraseOp} {b : BankId} {line : Nat} {data : Line} (hw : c.warning = false)
    (hk : d.NoWake c) (h : d.fc.BesideErase e (.program b line data)) (hs : e.suspended = true) :
    (d.settle c).fc = { d.fc with op := some (.command, .program b line data), waitCommand := none, fairness := 0 } := by
  have hd : d.decideSuspension c = d := by
    unfold Device.decideSuspension
    rw [h.command, h.erase, h.decided]
    exact if_pos hs
  refine (Device.settle_grantsOne hw hk (Device.resumeErase_program h.command) (who := .command)
    (r := .program b line data) ?_ ?_ (by simp) (.inl rfl)).2
  · rw [hd]
    exact Device.nextGrant_command h.command ((Device.grantable_beside_program b line data h.op h.erase).mpr (.inl hs)) (.inl h.reclaim)
  · rw [hd]
    simp [FlashController.grant, FlashController.unwait, FlashController.fairnessAfter, EraseOp.interrupted, h.reclaim, h.erase,
      h.decided, hs]

/-- With nothing more requested a SUSPENDED erase is RUNNING again (R12). -/
theorem Device.settle_resumes {c : Ctx} {d : Device} {e : EraseOp} (hw : c.warning = false) (hk : d.NoWake c) (ho : d.fc.op = none)
    (he : d.fc.erase = some e) (hc : d.fc.waitCommand = none) (hr : d.fc.waitReclaim = none) (hm : d.fc.waitMount = none) :
    d.settle c = { d with fc := { d.fc with erase := some { e with suspended := false } } } := by
  have hres : d.resumeErase = { d with fc := { d.fc with erase := some { e with suspended := false } } } := by
    unfold Device.resumeErase
    rw [he, ho, hc]
  rw [Device.settle_arbitrates hw hk, hres]
  exact Device.grantAll_of_none c 3 _ (Device.decideSuspension_of_none c _ (.inl hc)) (Device.nextGrant_of_none _ hc hr hm)

/-! ## A command's record (R98, R99, R104) -/

theorem Device.fitting_of_fitsIn {d : Device} {b : BankId} {span : Nat} (h : d.fitsIn b span) : d.fitting span = some b := by
  obtain ⟨ha, hs⟩ := h
  have hs : d.appendAt b + span ≤ Config.linesPerBank := hs
  simp [Device.fitting, ha, hs]

/-- Placement in the ACTIVE bank: the span is reserved there, and the header line requested (R98, R104 case 1). -/
theorem Device.commandPlace_fits {c : Ctx} {d : Device} {b : BankId} {record : RecordSpec} (hw : c.warning = false)
    (hq : d.nextSeq ≤ 0xFFFFFF00) (hf : d.fitsIn b record.span) :
    d.commandPlace c (Writer.fresh record) =
      (({ d.reserveLines b record.span with nextSeq := d.nextSeq + 1 }.setStage (.writing
        (writerAt record (.programming { bank := b, line := d.appendAt b, seq := d.nextSeq, at_ := 0 }))))).request .command
        (.program b (d.appendAt b) (record.line d.nextSeq 0)) := by
  have hs : d.sequenceLeft = true := decide_eq_true hq
  have hfit : d.fitting (Writer.fresh record).record.span = some b := Device.fitting_of_fitsIn hf
  unfold Device.commandPlace
  rw [if_neg (by simp [hw]), if_neg (by simp [hs]), hfit]
  exact if_pos hs

/-- From a line on, the passed-over lines lead to the first that is not (R27, R99). -/
theorem RecordSpec.nextLine_eq (r : RecordSpec) (fuel i : Nat) {n : Nat} (hi : i ≤ n) (hf : n ≤ i + fuel)
    (hk : ∀ k, i ≤ k → k < n → r.skips k = true) (hn : r.skips n = false) : r.nextLine fuel i = n := by
  induction fuel generalizing i with
  | zero => exact Nat.le_antisymm hi hf
  | succ fuel ih =>
    unfold RecordSpec.nextLine
    rcases Nat.eq_or_lt_of_le hi with rfl | hlt
    · rw [if_neg (by simp [hn])]
    · rw [if_pos (hk i (Nat.le_refl i) hlt)]
      exact ih (i + 1) hlt (by omega) fun k hk' => hk k (by omega)

theorem RecordSpec.lineAfter_eq (r : RecordSpec) {i n : Nat} (hi : i < n) (hs : n < r.span)
    (hk : ∀ k, i < k → k < n → r.skips k = true) (hn : r.skips n = false) : r.lineAfter i = n := by
  rw [r.span_eq] at hs
  exact r.nextLine_eq _ _ hi (by omega) (fun k h => hk k h) hn

/-- A verified line of the command's record that is not its last: the next one is requested (R99). -/
theorem Device.commandLine_next {c : Ctx} {d : Device} {x : Executing} {w : Writer} {r : Reservation} {n : Nat}
    (hf : d.formatProgress = none) (hl : r.at_ + 1 ≠ w.record.span) (hn : w.record.lineAfter r.at_ = n) :
    d.commandLine c x w r .ok =
      (d.setStage (.writing { w with stage := .programming { r with at_ := n } })).request .command
        (.program r.bank (r.line + n) (w.record.line r.seq n)) := by
  subst hn
  unfold Device.commandLine lineVerdict
  rw [if_neg (by simp [hf])]
  simp only [if_neg hl]
  rfl

/-- The last line of the command's record verified: the record commits (R99). -/
theorem Device.commandLine_last {c : Ctx} {d : Device} {x : Executing} {w : Writer} {r : Reservation}
    (hf : d.formatProgress = none) (hl : r.at_ + 1 = w.record.span) : d.commandLine c x w r .ok = d.commandCommit x w r := by
  unfold Device.commandLine lineVerdict
  rw [if_neg (by simp [hf])]
  simp only [if_pos hl]
  rfl

/-- The line in progress verifies: the array holds it, and its command goes on. -/
theorem State.LineInProgress.exec_asIntended {s : State} {x : Executing} {w : Writer} {r : Reservation} (h : s.LineInProgress x w r) :
    exec (.lineProgramOutcome .asIntended) s =
      .next { s with
        flash := s.flash.setLine r.bank (r.line + r.at_) (w.record.line r.seq r.at_)
        dev := (s.dev.opDone.commandLine s.ctx x w r .ok).settle s.ctx } := by
  have hprog : s.dev.opDone.programmed s.ctx .command .ok = s.dev.opDone.commandLine s.ctx x w r .ok := by
    unfold Device.programmed Device.commandProgrammed
    simp only [Device.opDone_ex, h.command, h.stage, h.reserved]
  rw [exec_lineProgramOutcome _ h.op, h.erased, programReads_erased, programOutcome_asIntended _ rfl]
  exact congrArg _ (State.engines_eq _ _ (congrArg (Device.settle s.ctx) hprog))

theorem State.LineInProgress.formatProgress {s : State} {x : Executing} {w : Writer} {r : Reservation} (h : s.LineInProgress x w r) :
    s.dev.opDone.formatProgress = none := by
  show s.dev.ex.bind _ = none
  rw [h.command]
  exact h.noFormat

/-- The device in which the next line of the command's record is requested. -/
theorem State.LineInProgress.next {s : State} {x : Executing} {w : Writer} {r : Reservation} {n : Nat} (h : s.LineInProgress x w r)
    (hn : r.at_ < n) (hs : n < w.record.span) (hk : ∀ k, r.at_ < k → k < n → w.record.skips k = true) (hl : w.record.skips n = false) :
    s.dev.opDone.commandLine s.ctx x w r .ok =
      { s.dev with
        ex := some { x with stage := .writing { w with stage := .programming { r with at_ := n } } }
        fc := { s.dev.fc with op := none, waitCommand := some (.program r.bank (r.line + n) (w.record.line r.seq n)) } } := by
  rw [Device.commandLine_next h.formatProgress (by omega) (w.record.lineAfter_eq hn hs hk hl)]
  unfold Device.setStage Device.request
  simp only [Device.opDone_ex, h.command, Option.map_some]
  rfl

/-- A WRITE outside a group commits: the Directory, the counts of banks, and the command's end. -/
theorem Device.commandCommit_write {d : Device} {x : Executing} (w : Writer) (r : Reservation) (hx : d.ex = some x)
    (hc : x.code = .write) (hm : x.member = false) :
    ∃ dir banks fifo buffers,
      d.commandCommit x w r = { d with dir := dir, banks := banks, ex := none, fifo := fifo, buffers := buffers } := by
  obtain ⟨dir, banks, hcommit⟩ := d.commitEntry_frame (committedRecord w r)
  have hex : (d.commitEntry (committedRecord w r)).ex = some x := by rw [hcommit, ← hx]
  obtain ⟨fifo, buffers, hend⟩ := (d.commitEntry (committedRecord w r)).executingEnded_frame x .ok 0
  refine ⟨dir, banks, fifo, buffers, ?_⟩
  unfold Device.commandCommit Device.commitUserRecord
  rw [hc, if_neg (by simp [hm])]
  dsimp only
  rw [Device.endCommand_eq _ _ hex (by simp [hc]) hm, hend, hcommit]

/-! ## What TAKE_COMMAND makes of the head of the queue -/

/-- TAKE_COMMAND in its turn: the command's first step, then the end of the step. -/
theorem State.Turn.exec_takeCommand {s : State} {p : Posted} {rest : List Posted} (h : s.Turn p rest) :
    exec .takeCommand s =
      .next { s with dev := ((s.headTaken p rest).makeStep { cfg := s.cfg, warning := false }).settle { cfg := s.cfg, warning := false } } := by
  refine congrArg Host.Outcome.next (State.engines_eq _ _ ?_)
  rw [State.ctx_normal h.normal]
  unfold Device.takeCommand
  rw [h.takeHead]

/-- The head command's record is to be programmed in the ACTIVE bank: what the engines and the controller then hold. -/
theorem State.Turn.requestsHeader {s : State} {p : Posted} {rest : List Posted} {record : RecordSpec} {b : BankId} (h : s.Turn p rest)
    (hr : s.dev.refusalFor p = none) (hrec : s.dev.recordFor p = some record) (hf : s.dev.fitsIn b record.span)
    (hq : s.dev.nextSeq ≤ 0xFFFFFF00) :
    ((s.headTaken p rest).makeStep { cfg := s.cfg, warning := false }).Steady ∧
    ((s.headTaken p rest).makeStep { cfg := s.cfg, warning := false }).fc =
      { s.dev.fc with waitCommand := some (.program b (3 + (s.dev.bank b).used) (record.line s.dev.nextSeq 0)) } := by
  rw [State.headTaken_places rest _ hr hrec, Device.commandPlace_fits (d := s.headTaken p rest) rfl hq hf]
  exact ⟨⟨fun x hx => by cases hx; rfl, h.writer⟩, rfl⟩

/-- The same for a READ of a record. -/
theorem State.Turn.requestsRead {s : State} {p : Posted} {rest : List Posted} {entry : DirEntry} {loc : Location} (h : s.Turn p rest)
    (hc : p.code = .read) (hr : s.dev.refusalFor p = none) (he : s.dev.entry p.desc.key = some entry) (hl : entry.loc = some loc) :
    ((s.headTaken p rest).makeStep { cfg := s.cfg, warning := false }).Steady ∧
    ((s.headTaken p rest).makeStep { cfg := s.cfg, warning := false }).fc =
      { s.dev.fc with waitCommand := some (.read loc.bank loc.line (spanOf entry.length)) } := by
  rw [State.headTaken_reads rest _ hc hr he hl]
  exact ⟨⟨fun x hx => by cases hx; rfl, h.writer⟩, rfl⟩

/-- Settles O38: the arbiter's answer to each request that meets an erase. -/
theorem erasesSuspended : Obligations.ErasesSuspended := by
  refine ⟨fun s p rest e ht hr ho he hs hc hrc hm hd =>
      ⟨fun record b q hrec hf hq hreq => ?program, fun entry loc q hcode hent hloc hreq => ?read⟩,
    fun s x w r e h hw he hs hc hrc hm hd => ⟨_, h.exec_asIntended, fun n hn hsp hk hl => ?next, fun hlast hcode hmem => ?last⟩⟩
  case program =>
    subst hreq
    obtain ⟨hsteady, hfc⟩ := ht.requestsHeader hr hrec hf hq
    have hbeside : ((s.headTaken p rest).makeStep { cfg := s.cfg, warning := false }).fc.BesideErase e
        (.program b (3 + (s.dev.bank b).used) (record.line s.dev.nextSeq 0)) := by
      rw [hfc]
      exact ⟨ho, he, rfl, hrc, hm, hd⟩
    refine ⟨_, ht.exec_takeCommand, fun ha => ?_, fun ha => ?_⟩
    · rw [Device.settle_suspends rfl (Device.noWake_of_steady _ hsteady) hbeside hs ha, hfc, ← hc]
    · rw [Device.settle_programWaits rfl (Device.noWake_of_steady _ hsteady) hbeside hs ha, hfc]
  case read =>
    subst hreq
    obtain ⟨hsteady, hfc⟩ := ht.requestsRead hcode hr hent hloc
    have hbeside : ((s.headTaken p rest).makeStep { cfg := s.cfg, warning := false }).fc.BesideErase e
        (.read loc.bank loc.line (spanOf entry.length)) := by
      rw [hfc]
      exact ⟨ho, he, rfl, hrc, hm, hd⟩
    refine ⟨_, ht.exec_takeCommand, fun hb => ?_, fun hb => ?_⟩
    · rw [Device.settle_readBeside rfl (Device.noWake_of_steady _ hsteady) hbeside hs hb, hfc, ← hc]
      rfl
    · rw [Device.settle_readWaits rfl (Device.noWake_of_steady _ hsteady) hbeside hs hb, hfc]
      rfl
  case next =>
    have hbeside : (s.dev.opDone.commandLine s.ctx x w r .ok).fc.BesideErase e (.program r.bank (r.line + n) (w.record.line r.seq n)) := by
      rw [h.next hn hsp hk hl]
      exact ⟨rfl, he, rfl, hrc, hm, hd⟩
    have hsteady : (s.dev.opDone.commandLine s.ctx x w r .ok).Steady := by
      rw [h.next hn hsp hk hl]
      exact ⟨fun y hy => by cases hy; rfl, h.writer⟩
    refine (Device.settle_nextSuspended hw (Device.noWake_of_steady _ hsteady) hbeside hs).trans ?_
    rw [h.next hn hsp hk hl, ← hc]
  case last =>
    obtain ⟨dir, banks, fifo, buffers, hcommit⟩ := s.dev.opDone.commandCommit_write w r h.command hcode hmem
    have hfc : (s.dev.opDone.commandCommit x w r).fc = { s.dev.fc with op := none } := by rw [hcommit]; rfl
    have hsteady : (s.dev.opDone.commandCommit x w r).Steady := by
      rw [hcommit]
      exact ⟨fun _ hy => (Option.some_ne_none _ hy.symm).elim, h.writer⟩
    rw [Device.commandLine_last h.formatProgress hlast, Device.settle_resumes (e := e) hw (Device.noWake_of_steady _ hsteady)]
    all_goals rw [hfc]
    all_goals assumption

/-! ## The order of grants (R13, R14, R15) -/

/-- With no erase in progress and no FORMAT executing, the end of a step in NORMAL reaches the Flash Controller alone. -/
theorem Device.settle_frame {c : Ctx} {d : Device} (hw : c.warning = false) (hk : d.NoWake c) (he : d.fc.erase = none)
    (hx : ∀ x, d.ex = some x → x.format = none) : d.settle c = { d with fc := (d.settle c).fc } := by
  rw [Device.settle_arbitrates hw hk, Device.resumeErase_of_noErase d he]
  obtain ⟨fc, h⟩ := Device.grantAll_frame c 3 d hx
  rw [h]

/-- Both engines' requests wait at a controller without an erase: the Command Engine's is granted, and passes the other over. -/
theorem Device.settle_commandFirst {c : Ctx} {d : Device} {r q : Request} (hw : c.warning = false) (hk : d.NoWake c)
    (ho : d.fc.op = none) (he : d.fc.erase = none) (hc : d.fc.waitCommand = some r) (hr : d.fc.waitReclaim = some q)
    (hn : ∀ b, r ≠ .erase b) (hf : d.fc.fairness < 16) :
    (d.settle c).fc =
      { d.fc with op := some (.command, r), waitCommand := none, decided := none, fairness := d.fc.fairness + 1 } := by
  have hd := Device.decideSuspension_of_none c d (.inr he)
  refine (Device.settle_grantsOne hw hk (Device.resumeErase_of_noErase d he) (who := .command) (r := r) ?_ ?_ (by simp) (.inl rfl)).2
  · rw [hd]
    exact Device.nextGrant_command hc (Device.grantable_free _ _ ho he) (.inr hf)
  · rw [hd]
    cases r with
    | erase b => exact absurd rfl (hn b)
    | read => simp [FlashController.grant, FlashController.unwait, FlashController.fairnessAfter, hr]
    | program => simp [FlashController.grant, FlashController.unwait, FlashController.fairnessAfter, hr, he]

/-- With the count at 16 the Reclaim Engine's is granted, the other waits, and the count is 0. -/
theorem Device.settle_reclaimFirst {c : Ctx} {d : Device} {r q : Request} (hw : c.warning = false) (hk : d.NoWake c)
    (ho : d.fc.op = none) (he : d.fc.erase = none) (hc : d.fc.waitCommand = some r) (hr : d.fc.waitReclaim = some q)
    (hn : ∀ b, q ≠ .erase b) (hf : 16 ≤ d.fc.fairness) :
    (d.settle c).fc = { d.fc with op := some (.reclaim, q), waitReclaim := none, fairness := 0 } := by
  have hd := Device.decideSuspension_of_none c d (.inr he)
  refine (Device.settle_grantsOne hw hk (Device.resumeErase_of_noErase d he) (who := .reclaim) (r := q) ?_ ?_
    ?_ (.inr ?_)).2
  · rw [hd]
    exact Device.nextGrant_reclaimTurn hc hr (Device.grantable_free _ _ ho he) (Device.grantable_free _ _ ho he) hf
  · rw [hd]
    cases q with
    | erase b => exact absurd rfl (hn b)
    | read => simp [FlashController.grant, FlashController.unwait, FlashController.fairnessAfter]
    | program => simp [FlashController.grant, FlashController.unwait, FlashController.fairnessAfter, he]
  · exact Option.some_ne_none _
  · exact he

/-- The Reclaim Engine's erase that verifies is followed by the request for the bank's header (R131). -/
theorem Device.erased_verified {c : Ctx} {d : Device} {b : BankId} (hj : d.reclaim.job = .erase b) :
    d.eraseOver.erased c .reclaim true =
      { d with
        reclaim := { d.reclaim with job := .eraseHeader b (d.nextEraseCount b) }
        fc := { d.fc with erase := none, decided := none, waitReclaim := some (.program b 0 (d.headerLine b)) } } := by
  unfold Device.erased Device.reclaimErased
  rw [Device.eraseOver_reclaim, hj]
  rfl

/-- Settles O39: one grant at the end of the step, with both engines' requests waiting. -/
theorem grantOrderAndFairness : Obligations.GrantOrderAndFairness := by
  refine ⟨fun s x w r n q next h hw he hc hrc hm hd hn hs hk hl hnext => ?lines,
    fun s b e q generation hst hw hj he hreq hb hs ho hc hrc hm hq hf hg hlt => ?erase⟩
  case lines =>
    subst hnext
    have hk : (s.dev.opDone.commandLine s.ctx x w r .ok).NoWake s.ctx := by
      rw [h.next hn hs hk hl]
      exact Device.noWake_of_steady _ ⟨fun y hy => by cases hy; rfl, h.writer⟩
    rw [h.exec_asIntended]
    rw [h.next hn hs ‹_› hl] at hk ⊢
    have hframe := Device.settle_frame hw hk he fun y hy => by cases hy; exact h.noFormat
    refine ⟨_, congrArg (fun d : Device => Host.Outcome.next
      { s with flash := s.flash.setLine r.bank (r.line + r.at_) (w.record.line r.seq r.at_), dev := d }) hframe,
      fun hlt => ?_, fun hge hne => ?_⟩
    · refine (Device.settle_commandFirst hw hk rfl he rfl hrc (by simp) hlt).trans ?_
      simp [hc, hd]
    · exact Device.settle_reclaimFirst hw hk rfl he rfl hrc hne hge
  case erase =>
    subst hb
    have hdev := Device.erased_verified (c := s.ctx) hj
    have hk : (s.dev.eraseOver.erased s.ctx .reclaim true).NoWake s.ctx := by
      rw [hdev]
      exact Device.noWake_of_steady _ ⟨hst.command, fun _ hy => nomatch hy⟩
    rw [exec_bankEraseOutcome [] he hs, Flash.bankErased_eraseBank_nil, hreq]
    refine ⟨_, rfl, ?_⟩
    show ((s.dev.eraseOver.erased s.ctx .reclaim true).settle s.ctx).fc = _
    have hfirst := Device.settle_commandFirst hw hk (q := .program e.bank 0 (s.dev.headerLine e.bank)) (r := q)
    rw [hdev] at hfirst ⊢
    refine (hfirst ho rfl hc rfl hq hlt).trans ?_
    rw [Device.headerLine, hg]
    rfl

end Sys2Proof.Machine
end

section
/-! The entry to WARNING (R16, R182, R184): what each of its parts does to the device, and FORMAT under the warning (R167). -/
namespace Sys2Proof.Machine
open Sys2Proof

/-! ## The parts of the entry -/

/-- PFW# goes LOW in NORMAL: the entry, at the end of its step. -/
theorem exec_powerWarning_entered {s : State} {between : Bool} {d : Device} (cut : CutShort) (hv : 1600 ≤ s.power.vdd)
    (hn : s.power.warning = false)
    (h : ((if between then Device.warnBetween s.cfg else Device.warn) s.dev).settle { cfg := s.cfg, warning := true } = d) :
    exec (.powerWarning (.pfw between) cut) s = .next (s.pfwLow cut d) := by
  rw [exec_powerWarning_pfw s between cut hv]
  refine congrArg Host.Outcome.next ((State.judgePower_enters { s with power := { s.power with pfwLow := true } } _ ?_ hn).trans ?_)
  · exact powerAsserted_pfwLow _ _ rfl
  exact State.engines_eq (s.pfwLow cut s.dev) _ h

/-- The device once the entry has set POWER_WARN and cleared the fairness count. -/
def Device.warnNoted (d : Device) : Device :=
  { d with flags := { d.flags with powerWarn := true }, fc := { d.fc with fairness := 0 } }

theorem Device.warn_eq (d : Device) : d.warn = d.warnNoted.endOpenGroup.abandonErase.warnCommand := rfl

theorem Device.endOpenGroup_noGroup {d : Device} (h : d.group = none) : d.endOpenGroup = d := by
  simp only [Device.endOpenGroup, h]

/-- Without a member command executing the entry ends an OPEN group (R122). -/
theorem Device.endOpenGroup_noMember {d : Device} (h : d.memberExecuting = false) : d.endOpenGroup = d.groupWarned := by
  unfold Device.endOpenGroup Device.groupWarned
  cases d.group with
  | none => rfl
  | some g => cases hs : g.state <;> simp [h, hs]

theorem Device.abandonErase_none {d : Device} (h : d.fc.erase = none) : d.abandonErase = d := by
  simp only [Device.abandonErase, h]

theorem Device.abandonErase_command {d : Device} {e : EraseOp} (h : d.fc.erase = some e) (hr : e.requester = .command) :
    d.abandonErase = Device.commandPowerEnd { d with fc := { d.fc with erase := none, decided := none } } := by
  simp only [Device.abandonErase, h, hr]

theorem Device.warnCommand_idle {d : Device} (h : d.ex = none) : d.warnCommand = d := by
  simp only [Device.warnCommand, h]

theorem Device.warnCommand_checking {d : Device} {x : Executing} {t : Taken} (h : d.ex = some x) (hs : x.stage = .checking t) :
    d.warnCommand = d := by
  simp only [Device.warnCommand, h, hs]

theorem Device.warnCommand_formatWait {d : Device} {x : Executing} (h : d.ex = some x) (hs : x.stage = .formatWait) :
    d.warnCommand = d.formatPowerEnd := by
  simp only [Device.warnCommand, h, hs]

/-- Where a command executes there is none to take: the entry between a taking and its step is the plain entry, if it ends the command. -/
theorem Device.warnBetween_executing {d : Device} {x : Executing} (g : Configuration) (h : d.ex = some x) (he : d.warn.ex = none) :
    d.warnBetween g = d.warn := by
  have ht : d.takeHead { cfg := g, warning := false } = d := by simp only [Device.takeHead, h]
  unfold Device.warnBetween
  rw [ht]
  simp only [Device.makeStep, he]

/-- The end of a group without commit reaches the counts of banks and the moved-member list (R118). -/
theorem Device.endGroup_frame (d : Device) :
    ∃ banks moved, d.endGroup = { d with group := none, banks := banks, reclaim := { d.reclaim with moved := moved } } := by
  have horphan (e : Device) (m : MemberEntry) : ∃ banks, e.orphanMember m = { e with banks := banks } := by
    unfold Device.orphanMember
    split
    · exact ⟨e.banks, rfl⟩
    · exact ⟨_, rfl⟩
    · exact ⟨e.banks, rfl⟩
  have hfold (l : List MemberEntry) (e : Device) : ∃ banks, l.foldl Device.orphanMember e = { e with banks := banks } := by
    induction l generalizing e with
    | nil => exact ⟨e.banks, rfl⟩
    | cons m l ih =>
      obtain ⟨banks, hb⟩ := horphan e m
      obtain ⟨banks', hb'⟩ := ih (e.orphanMember m)
      exact ⟨banks', by rw [List.foldl_cons, hb', hb]⟩
  unfold Device.endGroup
  split
  · rename_i h
    exact ⟨d.banks, d.reclaim.moved, by rw [← h]⟩
  · rename_i g _
    obtain ⟨banks, hb⟩ := hfold g.members d
    exact ⟨banks, [], by rw [hb]⟩

theorem Device.groupWarned_frame (d : Device) :
    ∃ group banks moved, d.groupWarned = { d with group := group, banks := banks, reclaim := { d.reclaim with moved := moved } } := by
  unfold Device.groupWarned
  split
  · split
    · exact ⟨none, d.endGroup_frame⟩
    · exact ⟨d.group, d.banks, d.reclaim.moved, rfl⟩
  · exact ⟨d.group, d.banks, d.reclaim.moved, rfl⟩

theorem Device.reclaimAbandon_frame (d : Device) (w : Writer) :
    ∃ banks mark, d.reclaimAbandon w = { d with banks := banks, openMark := mark } := by
  unfold Device.reclaimAbandon
  split
  · exact ⟨d.banks, none, rfl⟩
  · exact ⟨_, d.openMark, rfl⟩
  · exact ⟨d.banks, d.openMark, rfl⟩
  · exact ⟨d.banks, d.openMark, rfl⟩

/-- The Reclaim Engine's work refused by the power condition (R147, R184): its job is over, a request it holds stays held. -/
theorem Device.reclaimRefused_frame (d : Device) :
    ∃ banks mark r, d.reclaimRefused = { d with banks := banks, openMark := mark, reclaim := r } ∧ r.request = d.reclaim.request ∧
      (r.job = .idle ∨ ∃ cause, r.job = .halted cause) := by
  unfold Device.reclaimRefused
  split
  case h_1 h => exact ⟨d.banks, d.openMark, d.reclaim, rfl, rfl, .inl h⟩
  case h_11 h => exact ⟨d.banks, d.openMark, d.reclaim, rfl, rfl, .inr ⟨_, h⟩⟩
  case h_2 => exact ⟨_, d.openMark, _, rfl, rfl, .inl rfl⟩
  case h_3 => exact ⟨_, d.openMark, _, rfl, rfl, .inl rfl⟩
  case h_5 w _ =>
    obtain ⟨banks, mark, h⟩ := d.reclaimAbandon_frame w
    rw [h]
    exact ⟨banks, mark, _, rfl, rfl, .inl rfl⟩
  case h_6 w _ =>
    obtain ⟨banks, mark, h⟩ := d.reclaimAbandon_frame w
    rw [h]
    exact ⟨banks, mark, _, rfl, rfl, .inl rfl⟩
  case h_9 c _ =>
    obtain ⟨banks, mark, h⟩ := d.reclaimAbandon_frame c.writer
    rw [h]
    exact ⟨banks, mark, _, rfl, rfl, .inl rfl⟩
  all_goals exact ⟨d.banks, d.openMark, _, rfl, rfl, .inl rfl⟩

theorem Device.reclaimRefused_steady (d : Device) : d.reclaimRefused.reclaim.steady := by
  obtain ⟨banks, mark, r, h, _, hj⟩ := d.reclaimRefused_frame
  intro w hw
  rw [h] at hw
  obtain hj | ⟨cause, hj⟩ := hj <;> (rw [hj] at hw; cases hw)

/-- An erase that is not the Command Engine's, abandoned (R16): the executing command is left. -/
theorem Device.abandonErase_frame {d : Device} (h : ∀ e, d.fc.erase = some e → e.requester ≠ .command)
    (hd : d.fc.erase = none → d.fc.decided = none) :
    ∃ banks mark r, d.abandonErase =
        { d with banks := banks, openMark := mark, reclaim := r, fc := { d.fc with erase := none, decided := none } } ∧
      r.request = d.reclaim.request ∧ (d.reclaim.steady → r.steady) := by
  unfold Device.abandonErase
  split
  · rename_i he
    refine ⟨d.banks, d.openMark, d.reclaim, ?_, rfl, id⟩
    rw [← hd he]
    simp only [← he]
  · rename_i e he
    split
    · obtain ⟨banks, mark, r, hf, hq, _⟩ :=
        Device.reclaimRefused_frame { d with fc := { d.fc with erase := none, decided := none } }
      have hs := Device.reclaimRefused_steady { d with fc := { d.fc with erase := none, decided := none } }
      rw [hf] at hs ⊢
      exact ⟨banks, mark, r, rfl, hq, fun _ => hs⟩
    · rename_i hr
      exact absurd hr (h e he)
    · exact ⟨d.banks, d.openMark, d.reclaim, rfl, rfl, id⟩

/-! ## FORMAT ended by the power condition (R167) -/

/-- FORMAT withdrawn: the store as it was before, or DEGRADED by the causes it hid and those that arose. -/
theorem Device.formatWithdrawn_eq (d : Device) (f : FormatProgress) {causes : Causes} (h : causes = f.priorCauses.union d.causes) :
    d.formatWithdrawn f =
      { d with
        causes := causes
        store := if causes.any then StoreState.degraded else f.prior
        flags := { d.flags with degraded := d.flags.degraded || causes.any || Decidable.decide (f.prior = StoreState.degraded) }
        reclaim := if d.reclaim.job = ReclaimJob.halted .format then { d.reclaim with job := .idle } else d.reclaim } := by
  unfold Device.formatWithdrawn
  rw [← h]
  cases hc : causes.any <;> simp [hc]

theorem Device.formatPowerEnd_ungranted {d : Device} {x : Executing} {f : FormatProgress} (hx : d.ex = some x) (hc : x.code = .format)
    (hm : x.member = false) (hf : x.format = some f) (hg : f.granted = false) :
    d.formatPowerEnd = (d.formatWithdrawn f).executingEnded x .powerAbort 0 := by
  have hp : d.formatProgress = some f := by simp only [Device.formatProgress, hx, Option.bind_some, hf]
  simp only [Device.formatPowerEnd, hp, hg, Bool.false_eq_true, if_false]
  exact Device.endCommand_eq _ _ hx (by simp [hc]) hm

theorem Device.formatPowerEnd_granted {d : Device} {x : Executing} {f : FormatProgress} (hx : d.ex = some x) (hc : x.code = .format)
    (hm : x.member = false) (hf : x.format = some f) (hg : f.granted = true) :
    d.formatPowerEnd = d.resetTables.executingEnded x .powerAbort 0 := by
  have hp : d.formatProgress = some f := by simp only [Device.formatProgress, hx, Option.bind_some, hf]
  simp only [Device.formatPowerEnd, hp, hg, if_true]
  exact Device.endCommand_eq _ _ hx (by simp [hc]) hm

theorem Device.commandPowerEnd_format {d : Device} {x : Executing} {f : FormatProgress} (hx : d.ex = some x) (hf : x.format = some f) :
    d.commandPowerEnd = d.formatPowerEnd := by
  have hp : d.formatProgress = some f := by simp only [Device.formatProgress, hx, Option.bind_some, hf]
  simp only [Device.commandPowerEnd, hp, Option.isSome_some, if_true]

theorem Device.executingEnded_ex (d : Device) (x : Executing) (status : Status) (result : Nat) :
    (d.executingEnded x status result).ex = none := by
  obtain ⟨fifo, buffers, h⟩ := d.executingEnded_frame x status result
  rw [h]

/-- A command's end where nothing waits leaves a device at rest. -/
theorem Device.executingEnded_atRest {d : Device} {x : Executing} {status : Status} {result : Nat} (hc : d.fc.waitCommand = none)
    (hr : d.fc.waitReclaim = none) (hm : d.fc.waitMount = none) (he : d.fc.erase = none) (hw : d.reclaim.steady) :
    (d.executingEnded x status result).AtRest := by
  obtain ⟨fifo, buffers, h⟩ := d.executingEnded_frame x status result
  rw [h]
  exact ⟨hc, hr, hm, fun _ hx => (nomatch hx), hw, fun e h => by cases he.symm.trans h⟩

/-- An engine halted for FORMAT that is IDLE again holds no place. -/
theorem Reclaim.steady_ifIdle {r : Reclaim} (h : r.steady) :
    (if r.job = .halted .format then { r with job := .idle } else r : Reclaim).steady := by
  split
  · exact fun _ hw => nomatch hw
  · exact h

theorem Causes.union_empty (c : Causes) : c.union {} = c := by
  simp [Causes.union]

/-- A FORMAT between its taking and its step at the entry, that passes its checks (log entry 40). -/
theorem Device.startFormat_warned {c : Ctx} {d : Device} {x : Executing} (hw : c.warning = true) (hx : d.ex = some x)
    (hc : x.code = .format) (hm : x.member = false) (hr : firstRefusal d.formatChecks = none) :
    d.startFormat c =
      { d with
        store := if d.causes.any then StoreState.degraded else d.store
        flags := { d.flags with degraded := d.flags.degraded || d.causes.any || Decidable.decide (d.store = StoreState.degraded) }
        reclaim := if d.reclaim.job = ReclaimJob.halted .format then { d.reclaim with job := .idle } else d.reclaim
      }.executingEnded x .powerAbort 0 := by
  let f : FormatProgress := { prior := d.store, priorCauses := d.causes, granted := false, committed := false, todo := [] }
  have hy : d.formatTaken.ex = some { x with stage := .formatWait, format := some f } := by
    simp only [Device.formatTaken, hx, Option.map_some, f]
  unfold Device.startFormat
  rw [hr]
  simp only [hw, if_true]
  rw [Device.formatPowerEnd_ungranted hy hc hm rfl rfl,
    Device.formatWithdrawn_eq d.formatTaken f (causes := d.causes) (Causes.union_empty d.causes).symm]
  rfl

/-- The entry where it ends FORMAT: the end of the step changes nothing further. -/
theorem exec_powerWarning_ended {s : State} {x : Executing} {d : Device} {between : Bool} (cut : CutShort) (hv : 1600 ≤ s.power.vdd)
    (hn : s.power.warning = false) (hx : s.dev.ex = some x) (hw : s.dev.warn = d) (hd : d.ex = none) (hr : d.AtRest) :
    exec (.powerWarning (.pfw between) cut) s = .next (s.pfwLow cut d) := by
  refine exec_powerWarning_entered cut hv hn ?_
  have h : (if between then Device.warnBetween s.cfg else Device.warn) s.dev = d := by
    cases between with
    | true => exact (Device.warnBetween_executing s.cfg hx (by rw [hw]; exact hd)).trans hw
    | false => exact hw
  rw [h]
  exact Device.settle_atRest _ _ hr

/-- FORMAT waiting for the Reclaim Engine to stop, at the entry. -/
theorem Device.warn_formatWait {d : Device} {x : Executing} {f : FormatProgress} (hx : d.ex = some x) (hc : x.code = .format)
    (hm : x.member = false) (hf : x.format = some f) (hs : x.stage = .formatWait) (hg : f.granted = false) (hg' : d.group = none)
    (he : d.fc.erase = none) :
    d.warn =
      (d.warnNoted.formatWithdrawn f).executingEnded x .powerAbort 0 := by
  have h1 : d.warnNoted.endOpenGroup = d.warnNoted := Device.endOpenGroup_noGroup hg'
  have h2 : d.warnNoted.abandonErase = d.warnNoted := Device.abandonErase_none he
  have hx' : d.warnNoted.ex = some x := hx
  rw [Device.warn_eq, h1, h2, Device.warnCommand_formatWait hx' hs, Device.formatPowerEnd_ungranted hx' hc hm hf hg]

/-- FORMAT with its erase in progress, at the entry. -/
theorem Device.warn_formatErase {d : Device} {x : Executing} {f : FormatProgress} {e : EraseOp} (hx : d.ex = some x)
    (hc : x.code = .format) (hm : x.member = false) (hf : x.format = some f) (hg : f.granted = true) (hg' : d.group = none)
    (he : d.fc.erase = some e) (hr : e.requester = .command) :
    d.warn =
      { d.resetTables with
        flags := { d.flags with powerWarn := true }
        fc := { d.fc with erase := none, decided := none, fairness := 0 } }.executingEnded x .powerAbort 0 := by
  have h1 : d.warnNoted.endOpenGroup = d.warnNoted := Device.endOpenGroup_noGroup hg'
  have h2 := Device.abandonErase_command (d := d.warnNoted) he hr
  have hx' : ({ d.warnNoted with fc := { d.warnNoted.fc with erase := none, decided := none } } : Device).ex = some x := hx
  rw [Device.warn_eq, h1, h2, Device.commandPowerEnd_format hx' hf, Device.formatPowerEnd_granted hx' hc hm hf hg]
  exact Device.warnCommand_idle (Device.executingEnded_ex _ _ _ _)

/-- FORMAT's header program, ended under WARNING. -/
theorem Device.programmed_formatHeader {c : Ctx} {d : Device} {x : Executing} {f : FormatProgress} {b : BankId} {again : Bool}
    {count : Nat} (o : ProgramOutcome) (hw : c.warning = true) (hx : d.ex = some x) (hc : x.code = .format) (hm : x.member = false)
    (hf : x.format = some f) (hg : f.granted = true) (hs : x.stage = .formatHeader b again count) :
    d.programmed c .command o = d.resetTables.executingEnded x .powerAbort 0 := by
  simp only [Device.programmed, Device.commandProgrammed, hx, hs, hf, Device.formatHeadered, hw, if_true]
  exact Device.formatPowerEnd_granted hx hc hm hf hg

theorem Reclaim.steady_initial : ({} : Reclaim).steady := fun _ hw => nomatch hw

theorem Device.joins_format (d : Device) {p : Posted} (h : p.code = .format) : d.joins p = false := by
  simp only [Device.joins, h, CommandCode.joinsGroup, Bool.false_and]

/-- At an entry between the taking of FORMAT and its step the power condition's parts leave the command in place. -/
theorem State.MeetsWarning.warn_format {s : State} {p : Posted} {rest : List Posted} (h : s.MeetsWarning p rest) (hc : p.code = .format) :
    (s.headTaken p rest).warn = (s.headTaken p rest).underWarning (s.headExecuting p) ∧
      ((s.headTaken p rest).underWarning (s.headExecuting p)).ex = some (s.headExecuting p) ∧
      ((s.headTaken p rest).underWarning (s.headExecuting p)).fc =
        { s.dev.fc with erase := none, decided := none, fairness := 0 } ∧
      ((s.headTaken p rest).underWarning (s.headExecuting p)).reclaim.steady := by
  have hm : (s.headExecuting p).member = false := s.dev.joins_format hc
  let e := (s.headTaken p rest).warnNoted
  have hu : (s.headTaken p rest).underWarning (s.headExecuting p) = e.groupWarned.abandonErase := by
    simp only [Device.underWarning, hm, Bool.false_eq_true, if_false]
    rfl
  have hgw : e.endOpenGroup = e.groupWarned := Device.endOpenGroup_noMember hm
  obtain ⟨group, banks, moved, hge⟩ := e.groupWarned_frame
  obtain ⟨banks', mark, r, ha, _, hs⟩ :=
    e.groupWarned.abandonErase_frame (by rw [hge]; exact h.erase) (by rw [hge]; exact fun _ => h.undecided)
  have hex : e.groupWarned.abandonErase.ex = some (s.headExecuting p) := by rw [ha, hge]; rfl
  rw [hu]
  have hfc : e.groupWarned.fc = e.fc := by rw [hge]
  refine ⟨?_, hex,
    (congrArg Device.fc ha).trans (congrArg (fun fc : FlashController => { fc with erase := none, decided := none }) hfc), ?_⟩
  · show e.endOpenGroup.abandonErase.warnCommand = _
    rw [hgw]
    exact Device.warnCommand_checking hex rfl
  · rw [ha]
    refine hs ?_
    rw [hge]
    exact h.rest.writer

/-- Settles O25: each position of FORMAT at the entry, and its header program's end under WARNING. -/
theorem formatUnderWarning : Obligations.FormatUnderWarning := by
  refine ⟨fun s p rest cut x d h hc hx hd hr => ?between, fun s x f between cut causes hx hc hm hf hs hg hfree hw hg' hn hv hca => ?waits,
    fun s x f b again e between cut h he hr hb ho hwc hwr hwm hg hv => ?erases,
    fun s x f b again count generation result hx hc hm hf hg hs ha hw hg' hp => ?heads⟩
  case between =>
    obtain ⟨hwarn, hex, hfc, hst⟩ := h.warn_format hc
    rw [← hx, ← hd] at hwarn
    rw [← hx, ← hd] at hex hfc hst
    have hr' : firstRefusal d.formatChecks = none := by
      rw [Device.firstRefusal_formatChecks]
      simpa only [Device.refusalFor, hc] using hr
    have hxc : x.code = .format := by rw [hx]; exact hc
    have hxm : x.member = false := by rw [hx]; exact s.dev.joins_format hc
    refine exec_powerWarning_entered cut h.supply h.turn.normal ?_
    have ht : x.stage = (s.headExecuting p).stage := by rw [hx]
    have hstep : s.dev.warnBetween s.cfg = d.startFormat { cfg := s.cfg, warning := true } := by
      unfold Device.warnBetween
      rw [h.turn.takeHead, hwarn, Device.makeStep_taken _ d hex ht]
      simp only [Device.startCommand, hxc]
    simp only [if_true]
    rw [hstep, Device.startFormat_warned rfl hex hxc hxm hr']
    refine Device.settle_atRest _ _ (Device.executingEnded_atRest ?_ ?_ ?_ ?_ (Reclaim.steady_ifIdle hst)) <;> rw [hfc]
    · exact h.rest.command
    · exact h.rest.reclaim
    · exact h.rest.mount
  case waits =>
    have hwarn := Device.warn_formatWait hx hc hm hf hs hg hg' hfree.erase
    rw [Device.formatWithdrawn_eq s.dev.warnNoted f hca] at hwarn
    refine ⟨_, exec_powerWarning_ended cut hv hn hx hwarn (Device.executingEnded_ex _ _ _ _) ?_, rfl, ?_, rfl⟩
    · exact Device.executingEnded_atRest hfree.command hfree.reclaim hfree.mount hfree.erase (Reclaim.steady_ifIdle hw)
    · exact s.abandonedFlash_noErase cut.erase hfree.erase
  case erases =>
    have hwarn := Device.warn_formatErase h.command h.code h.noMember h.progress h.granted hg he hr
    refine ⟨_, exec_powerWarning_ended cut hv h.normal h.command hwarn (Device.executingEnded_ex _ _ _ _) ?_, rfl, ?_, rfl⟩
    · exact Device.executingEnded_atRest hwc hwr hwm rfl Reclaim.steady_initial
    · rw [← hb]
      simp only [State.pfwLow, State.abandonedFlash, he]
  case heads =>
    have hend := fun o => Device.programmed_formatHeader (c := s.ctx) (d := s.dev.opDone) o hp hx hc hm hf hg hs
    refine ⟨_, (exec_lineProgramOutcome result ha.op).trans (congrArg _ (State.engines_eq _ _ ?_)), rfl, ?_⟩
    · dsimp only
      rw [hend]
      exact Device.settle_atRest _ _ (Device.executingEnded_atRest ha.command ha.reclaim ha.mount ha.erase Reclaim.steady_initial)
    · rintro hl rfl
      dsimp only
      rw [Flash.line_setLine_same, hl, programReads_erased]
      rfl

end Sys2Proof.Machine
end

section
/-! What the engines' acts leave of a device under the power warning (R16, R182, R184): the queue, the operations in progress, and that
nothing begins. One lemma for each operation that the step of an entry to WARNING can run. -/
namespace Sys2Proof.Machine
open Sys2Proof

/-! ## Two relations between the device before and after an act -/

/-- The group's end is bound to the executing command: it ends with that command, a member command or its COMMIT_GROUP (R117, R122). -/
def Device.GroupBound (d : Device) : Prop :=
  ∀ g, d.group = some g → ∃ x, d.ex = some x ∧
    ((x.member = true ∧ g.endsWithMember = true) ∨ (x.code = .commitGroup ∧ g.state = .committing))

/-- A command at this stage waits for nothing that the end of a step could give it, but for an open line in progress. -/
def Stage.unwaiting (st : Stage) (format : Option FormatProgress) : Prop :=
  (∀ w, st = .writing w → w.stage ≠ .waitSpace) ∧ st ≠ .repairWait ∧ (st = .formatWait → format = none)

/-- No command waits for space, for a lock repair or, as FORMAT, for the Reclaim Engine to stop. -/
def Device.Unwaiting (d : Device) : Prop := ∀ x, d.ex = some x → x.stage.unwaiting x.format

/-- An act without a flash request: queue and Flash Controller are left; an IDLE engine stays IDLE, no group begins, one whose end is bound
to the executing command ends with it, and no command begins to wait. -/
structure Device.Quiet (d d' : Device) : Prop where
  queue : d'.queue = d.queue
  fc : d'.fc = d.fc
  idle : d.ex = none → d'.ex = none
  noGroup : d.group = none → d'.group = none
  bound : d.GroupBound → d'.GroupBound
  noWait : d.Unwaiting → d'.Unwaiting

/-- The same of an act that may leave a request waiting: the operations in progress and the fairness count are left. -/
structure Device.Acts (d d' : Device) : Prop where
  queue : d'.queue = d.queue
  op : d'.fc.op = d.fc.op
  erase : d'.fc.erase = d.fc.erase
  fairness : d'.fc.fairness = d.fc.fairness
  idle : d.ex = none → d'.ex = none
  noGroup : d.group = none → d'.group = none
  bound : d.GroupBound → d'.GroupBound
  noWait : d.Unwaiting → d'.Unwaiting

theorem Device.Quiet.refl (d : Device) : d.Quiet d := ⟨rfl, rfl, id, id, id, id⟩

theorem Device.Quiet.trans {d e f : Device} (h : d.Quiet e) (k : e.Quiet f) : d.Quiet f :=
  ⟨k.queue.trans h.queue, k.fc.trans h.fc, k.idle ∘ h.idle, k.noGroup ∘ h.noGroup, k.bound ∘ h.bound, k.noWait ∘ h.noWait⟩

theorem Device.Acts.trans {d e f : Device} (h : d.Acts e) (k : e.Acts f) : d.Acts f :=
  ⟨k.queue.trans h.queue, k.op.trans h.op, k.erase.trans h.erase, k.fairness.trans h.fairness, k.idle ∘ h.idle, k.noGroup ∘ h.noGroup,
    k.bound ∘ h.bound, k.noWait ∘ h.noWait⟩

theorem Device.Quiet.acts {d e : Device} (h : d.Quiet e) : d.Acts e :=
  ⟨h.queue, congrArg FlashController.op h.fc, congrArg FlashController.erase h.fc, congrArg FlashController.fairness h.fc, h.idle,
    h.noGroup, h.bound, h.noWait⟩

theorem Device.Acts.refl (d : Device) : d.Acts d := (Device.Quiet.refl d).acts

theorem Device.groupBound_of_none {d : Device} (h : d.group = none) : d.GroupBound := fun g hg => by rw [h] at hg; cases hg

theorem Device.unwaiting_of {d : Device} {x : Executing} (hx : d.ex = some x) (h : x.stage.unwaiting x.format) : d.Unwaiting :=
  fun y hy => by
    obtain rfl : x = y := Option.some.inj (hx.symm.trans hy)
    exact h

theorem Device.unwaiting_of_idle {d : Device} (h : d.ex = none) : d.Unwaiting := fun x hx => by rw [h] at hx; cases hx

/-- With the engine IDLE a group whose end is bound to its command has ended. -/
theorem Device.GroupBound.none_of_idle {d : Device} (h : d.GroupBound) (hx : d.ex = none) : d.group = none := by
  cases hg : d.group with
  | none => rfl
  | some g =>
    obtain ⟨x, hs, _⟩ := h g hg
    rw [hx] at hs
    cases hs

/-- A device that waits for nothing is not WAITING_SPACE. -/
theorem Device.Unwaiting.phase {d : Device} (h : d.Unwaiting) : d.commandPhase ≠ .waitingSpace := by
  unfold Device.commandPhase
  split
  · exact nofun
  · rename_i x hx
    split
    · rename_i w hw
      split
      · rename_i hs
        exact absurd hs ((h x hx).1 w hw)
      · exact nofun
    · exact nofun

/-- An act that reaches neither the queue, the Flash Controller, the Command Engine nor the group. -/
theorem Device.Quiet.of_frame {d d' : Device} (hq : d'.queue = d.queue) (hf : d'.fc = d.fc) (hx : d'.ex = d.ex)
    (hg : d'.group = d.group) : d.Quiet d' :=
  ⟨hq, hf, hx.trans, hg.trans, fun h g k => by rw [hx]; exact h g (hg ▸ k), fun h x k => h x (hx ▸ k)⟩

/-- The same where the act waits with a request. -/
theorem Device.Acts.of_frame {d d' : Device} (hq : d'.queue = d.queue) (ho : d'.fc.op = d.fc.op) (he : d'.fc.erase = d.fc.erase)
    (hf : d'.fc.fairness = d.fc.fairness) (hx : d'.ex = d.ex) (hg : d'.group = d.group) : d.Acts d' :=
  ⟨hq, ho, he, hf, hx.trans, hg.trans, fun h g k => by rw [hx]; exact h g (hg ▸ k), fun h x k => h x (hx ▸ k)⟩

/-- An act that reaches neither the queue, the Flash Controller nor the Command Engine, and leaves no group. -/
theorem Device.Quiet.of_noGroup {d d' : Device} (hq : d'.queue = d.queue) (hf : d'.fc = d.fc) (hx : d'.ex = d.ex)
    (hg : d'.group = none) : d.Quiet d' :=
  ⟨hq, hf, hx.trans, fun _ => hg, fun _ => Device.groupBound_of_none hg, fun h x k => h x (hx ▸ k)⟩

/-- A new stage of the executing command at which it waits for nothing. -/
theorem Device.setStage_quiet (d : Device) {st : Stage} (h : ∀ f, st.unwaiting f) : d.Quiet (d.setStage st) := by
  refine ⟨rfl, rfl, fun hx => by simp [Device.setStage, hx], id, fun hb g hg => ?_, fun _ y hy => ?_⟩
  · obtain ⟨x, hx, ho⟩ := hb g hg
    exact ⟨{ x with stage := st }, by simp [Device.setStage, hx], ho⟩
  · obtain ⟨x, _, rfl⟩ := Option.map_eq_some_iff.mp hy
    exact h _

/-! ## Groups and ends of commands -/

/-- The end of a group without commit, as the executing member command's or at its deadline. -/
theorem Device.memberEnded_frame (d : Device) :
    ∃ group banks moved flags,
      d.memberEnded = { d with group := group, banks := banks, flags := flags, reclaim := { d.reclaim with moved := moved } } ∧
      (group = none ∨ group = d.group) ∧ ((∀ g, d.group = some g → g.endsWithMember = true) → group = none) := by
  obtain ⟨banks, moved, h⟩ := d.endGroup_frame
  unfold Device.memberEnded
  split
  · rename_i hg
    exact ⟨d.group, d.banks, d.reclaim.moved, d.flags, rfl, .inr rfl, fun _ => hg⟩
  · rename_i g hg
    split
    · exact ⟨none, banks, moved, d.flags, h, .inl rfl, fun _ => rfl⟩
    · rename_i hn
      split
      · exact ⟨none, banks, moved, _, by rw [Device.expireGroup, h], .inl rfl, fun _ => rfl⟩
      · exact ⟨d.group, d.banks, d.reclaim.moved, d.flags, rfl, .inr rfl, fun k => absurd (k g hg) hn⟩

/-- A COMMIT_GROUP that ends without commit ends its COMMITTING group (R117). -/
def Device.commitEnded (d : Device) (x : Executing) : Device :=
  match d.group with
  | some g => if x.code = .commitGroup ∧ g.state = .committing then d.endGroup else d
  | none => d

theorem Device.commitEnded_frame (d : Device) (x : Executing) :
    ∃ group banks moved, d.commitEnded x = { d with group := group, banks := banks, reclaim := { d.reclaim with moved := moved } } ∧
      (group = none ∨ group = d.group) ∧
      ((∀ g, d.group = some g → x.code = .commitGroup ∧ g.state = .committing) → group = none) := by
  obtain ⟨banks, moved, h⟩ := d.endGroup_frame
  unfold Device.commitEnded
  split
  · rename_i g hg
    split
    · exact ⟨none, banks, moved, h, .inl rfl, fun _ => rfl⟩
    · rename_i hn
      exact ⟨d.group, d.banks, d.reclaim.moved, rfl, .inr rfl, fun k => absurd (k g hg) hn⟩
  · rename_i hg
    exact ⟨d.group, d.banks, d.reclaim.moved, rfl, .inr rfl, fun _ => hg⟩

/-- What an ended command's group loses with it. -/
def Device.groupEnded (d : Device) (x : Executing) : Device :=
  if x.member then (d.commitEnded x).memberEnded else d.commitEnded x

theorem Device.groupEnded_frame (d : Device) (x : Executing) :
    ∃ group banks moved flags,
      d.groupEnded x = { d with group := group, banks := banks, flags := flags, reclaim := { d.reclaim with moved := moved } } ∧
      (group = none ∨ group = d.group) ∧
      ((∀ g, d.group = some g → (x.member = true ∧ g.endsWithMember = true) ∨ (x.code = .commitGroup ∧ g.state = .committing)) →
        group = none) := by
  obtain ⟨group, banks, moved, h, hs, hc⟩ := d.commitEnded_frame x
  unfold Device.groupEnded
  split
  · obtain ⟨group', banks', moved', flags, h', hn', hm⟩ := (d.commitEnded x).memberEnded_frame
    rw [h] at h' hn' hm
    refine ⟨group', banks', moved', flags, by rw [h, h'], hn'.elim .inl (fun k => hs.imp k.trans k.trans), fun k => ?_⟩
    cases group with
    | none => exact hn'.elim id id
    | some g =>
      have hg : d.group = some g := (hs.resolve_left nofun).symm
      refine hm fun g' hg' => ?_
      obtain rfl : g = g' := Option.some.inj hg'
      obtain ⟨_, ho⟩ | ho := k g hg
      · exact ho
      · cases hc fun g' hg' => by cases hg.symm.trans hg'; exact ho
  · rename_i hm
    exact ⟨group, banks, moved, d.flags, h, hs, fun k => hc fun g hg => (k g hg).resolve_left fun o => hm o.1⟩

/-- What the end of the executing command reaches: its group, the counts of banks and the moved-member list with that, its buffer and
the FIFO. -/
theorem Device.endCommand_frame (d : Device) (status : Status) (result : Nat) :
    ∃ group banks moved flags fifo buffers,
      d.endCommand status result =
        { d with
          ex := none, group := group, banks := banks, flags := flags, fifo := fifo, buffers := buffers
          reclaim := { d.reclaim with moved := moved } } ∧
      (group = none ∨ group = d.group) ∧ (d.GroupBound → group = none) := by
  cases hx : d.ex with
  | none =>
    refine ⟨d.group, d.banks, d.reclaim.moved, d.flags, d.fifo, d.buffers, ?_, .inr rfl, fun h => h.none_of_idle hx⟩
    simp only [Device.endCommand, hx]
    rw [← hx]
  | some x =>
    obtain ⟨group, banks, moved, flags, h, hn, hb⟩ := Device.groupEnded_frame { d with ex := none } x
    have he : d.endCommand status result =
        if x.detached then Device.groupEnded { d with ex := none } x
        else ((Device.groupEnded { d with ex := none } x).releaseBuffer x.code x.desc.buffer).placeCompletion x.desc.tag status result := by
      simp only [Device.endCommand, hx]
      rfl
    have hb' : d.GroupBound → group = none := fun k => hb fun g hg => by
      obtain ⟨y, hy, ho⟩ := k g hg
      obtain rfl : x = y := Option.some.inj (hx.symm.trans hy)
      exact ho
    rw [he]
    split
    · exact ⟨group, banks, moved, flags, d.fifo, d.buffers, h, hn, hb'⟩
    · obtain ⟨buffers, hr⟩ := (Device.groupEnded { d with ex := none } x).releaseBuffer_frame x.code x.desc.buffer
      exact ⟨group, banks, moved, flags, _, buffers, by rw [hr, h]; rfl, hn, hb'⟩

theorem Device.endCommand_quiet (d : Device) (status : Status) (result : Nat) : d.Quiet (d.endCommand status result) := by
  obtain ⟨group, banks, moved, flags, fifo, buffers, h, hn, hb⟩ := d.endCommand_frame status result
  rw [h]
  exact ⟨rfl, rfl, fun _ => rfl, fun k => hn.elim id fun e => e.trans k, fun k => Device.groupBound_of_none (hb k),
    fun _ => Device.unwaiting_of_idle rfl⟩

/-- An act and the end of the executing command after it. -/
theorem Device.Quiet.endCommand {d e : Device} (h : d.Quiet e) (status : Status) (result : Nat) :
    d.Quiet (e.endCommand status result) :=
  h.trans (e.endCommand_quiet status result)

theorem Device.endCommand_group (d : Device) (status : Status) (result : Nat) :
    (d.endCommand status result).group = none ∨ (d.endCommand status result).group = d.group := by
  obtain ⟨group, banks, moved, flags, fifo, buffers, h, hs, _⟩ := d.endCommand_frame status result
  rw [h]
  exact hs

theorem Device.endCommand_ex (d : Device) (status : Status) (result : Nat) : (d.endCommand status result).ex = none := by
  obtain ⟨group, banks, moved, flags, fifo, buffers, h, _⟩ := d.endCommand_frame status result
  rw [h]

theorem Device.degrade_quiet (d : Device) (c : Cause) : d.Quiet (d.degrade c) := by
  have h : d.Quiet { d with causes := d.causes.add c } := .of_frame rfl rfl rfl rfl
  unfold Device.degrade
  refine h.trans ?_
  dsimp only
  split
  · split
    · refine .endCommand ?_ _ _
      exact .of_frame rfl rfl rfl rfl
    · exact .of_frame rfl rfl rfl rfl
  · exact .refl _

theorem Device.formatPowerEnd_quiet (d : Device) : d.Quiet d.formatPowerEnd := by
  unfold Device.formatPowerEnd
  split
  · exact .refl d
  · rename_i f _
    split
    · refine .endCommand ?_ _ _
      exact .of_noGroup rfl rfl rfl rfl
    · refine .endCommand ?_ _ _
      exact .of_frame rfl rfl rfl rfl

/-- FORMAT ends, wherever it waits or works. -/
theorem Device.formatPowerEnd_ex {d : Device} (h : d.formatProgress.isSome = true) : d.formatPowerEnd.ex = none := by
  obtain ⟨f, hf⟩ := Option.isSome_iff_exists.mp h
  unfold Device.formatPowerEnd
  rw [hf]
  dsimp only
  split
  · exact Device.endCommand_ex _ _ _
  · exact Device.endCommand_ex _ _ _

theorem Device.commandPowerEnd_quiet (d : Device) : d.Quiet d.commandPowerEnd := by
  unfold Device.commandPowerEnd
  split
  · exact d.formatPowerEnd_quiet
  · exact d.endCommand_quiet _ _

theorem Device.commandPowerEnd_ex (d : Device) : d.commandPowerEnd.ex = none := by
  unfold Device.commandPowerEnd
  split
  · rename_i h
    exact Device.formatPowerEnd_ex h
  · exact d.endCommand_ex _ _

/-! ## The Reclaim Engine's acts -/

theorem Device.reclaimRefused_quiet (d : Device) : d.Quiet d.reclaimRefused := by
  obtain ⟨banks, mark, r, h, _⟩ := d.reclaimRefused_frame
  rw [h]
  exact .of_frame rfl rfl rfl rfl

theorem Device.answerReclaim_quiet (d : Device) (status : Status) (result : Nat) : d.Quiet (d.answerReclaim status result) := by
  unfold Device.answerReclaim
  split
  · dsimp only
    split
    · refine .endCommand ?_ _ _
      exact .of_frame rfl rfl rfl rfl
    · exact .of_frame rfl rfl rfl rfl
  · exact .refl d

/-- An act and the report of a cause of DEGRADED after it. -/
theorem Device.Quiet.degrade {d e : Device} (h : d.Quiet e) (c : Cause) : d.Quiet (e.degrade c) := h.trans (e.degrade_quiet c)

theorem Device.reclaimHalt_quiet (c : Ctx) (d : Device) : d.Quiet (d.reclaimHalt c) := by
  have h : d.Quiet ((d.setJob (.halted .fault)).degrade .reclaim) := by
    refine .degrade ?_ _
    exact .of_frame rfl rfl rfl rfl
  unfold Device.reclaimHalt
  dsimp only
  split
  · exact h.trans (Device.answerReclaim_quiet _ _ _)
  · exact h.trans (Device.answerReclaim_quiet _ _ _)

theorem Device.reclaimCannot_quiet (c : Ctx) (d : Device) : d.Quiet (d.reclaimCannot c) := by
  unfold Device.reclaimCannot
  split
  · exact d.reclaimHalt_quiet c
  · refine .degrade ?_ _
    exact .of_frame rfl rfl rfl rfl
  · exact .of_frame rfl rfl rfl rfl
  · exact .refl d

theorem Device.reclaimOutOfSequences_quiet (d : Device) : d.Quiet d.reclaimOutOfSequences := by
  unfold Device.reclaimOutOfSequences
  refine .degrade ?_ _
  split
  · exact .of_frame rfl rfl rfl rfl
  · exact .of_frame rfl rfl rfl rfl
  · exact .refl d

theorem Device.reclaimReserve_acts (d : Device) (w : Writer) (b : BankId) : d.Acts (d.reclaimReserve w b) := by
  unfold Device.reclaimReserve
  split
  · dsimp only
    unfold Device.reserve
    dsimp only
    split
    · exact .of_frame rfl rfl rfl rfl rfl rfl
    · exact .of_frame rfl rfl rfl rfl rfl rfl
  · exact d.reclaimOutOfSequences_quiet.acts

theorem Device.reclaimOpen_acts (c : Ctx) (d : Device) (w : Writer) (b : BankId) : d.Acts (d.reclaimOpen c w b) := by
  unfold Device.reclaimOpen
  split
  · exact .of_frame rfl rfl rfl rfl rfl rfl
  · refine Device.Quiet.acts (.trans ?_ (Device.reclaimCannot_quiet _ _))
    refine Device.Quiet.degrade ?_ _
    exact .of_frame rfl rfl rfl rfl

theorem Device.reclaimPlace_acts (c : Ctx) (d : Device) (w : Writer) : d.Acts (d.reclaimPlace c w) := by
  unfold Device.reclaimPlace
  split
  · exact d.reclaimOutOfSequences_quiet.acts
  · split
    · exact d.reclaimReserve_acts w _
    · split
      · exact .of_frame rfl rfl rfl rfl rfl rfl
      · split
        · exact d.reclaimOpen_acts c w _
        · exact (d.reclaimCannot_quiet c).acts

theorem Device.wakeReclaim_acts (c : Ctx) (d : Device) : d.Acts (d.wakeReclaim c) := by
  unfold Device.wakeReclaim
  split
  · split
    · split
      · exact d.reclaimPlace_acts c _
      · exact .refl d
    · exact .refl d
  · exact .refl d

/-! ## The end of a step under WARNING -/

theorem Device.commandRefused_quiet (d : Device) : d.Quiet d.commandRefused := by
  unfold Device.commandRefused
  split
  · exact .refl d
  · split
    · split
      · refine .trans ?_ (Device.commandPowerEnd_quiet _)
        exact .of_frame rfl rfl rfl rfl
      · refine .trans ?_ (Device.commandPowerEnd_quiet _)
        exact .of_frame rfl rfl rfl rfl
      · exact d.commandPowerEnd_quiet
      · exact d.commandPowerEnd_quiet
    · exact d.commandPowerEnd_quiet

/-- The command whose waiting request is refused has ended. -/
theorem Device.commandRefused_ex (d : Device) : d.commandRefused.ex = none := by
  unfold Device.commandRefused
  split
  · assumption
  · split
    · split
      · exact Device.commandPowerEnd_ex _
      · exact Device.commandPowerEnd_ex _
      · exact d.commandPowerEnd_ex
      · exact d.commandPowerEnd_ex
    · exact d.commandPowerEnd_ex

/-- The command's waiting request refused, if it has one. -/
def Device.refuseCommand (d : Device) : Device :=
  if d.fc.waitCommand.isSome then ({ d with fc := d.fc.unwait .command }).commandRefused else d

/-- The Reclaim Engine's waiting request refused, if it has one. -/
def Device.refuseReclaim (d : Device) : Device :=
  if d.fc.waitReclaim.isSome then ({ d with fc := d.fc.unwait .reclaim }).reclaimRefused else d

/-- The Mount Engine's waiting request refused, if it has one. -/
def Device.refuseMount (d : Device) : Device :=
  if d.fc.waitMount.isSome then ({ d with fc := d.fc.unwait .mount }).stopMount else d

theorem Device.refuseWaiting_eq {c : Ctx} (d : Device) (hw : c.warning = true) :
    d.refuseWaiting c = d.refuseCommand.refuseReclaim.refuseMount := by
  unfold Device.refuseWaiting
  rw [if_pos hw]
  rfl

theorem Device.refuseCommand_acts (d : Device) : d.Acts d.refuseCommand := by
  unfold Device.refuseCommand
  split
  · refine .trans ?_ (Device.commandRefused_quiet _).acts
    exact .of_frame rfl rfl rfl rfl rfl rfl
  · exact .refl d

theorem Device.refuseReclaim_acts (d : Device) : d.Acts d.refuseReclaim := by
  unfold Device.refuseReclaim
  split
  · refine .trans ?_ (Device.reclaimRefused_quiet _).acts
    exact .of_frame rfl rfl rfl rfl rfl rfl
  · exact .refl d

theorem Device.refuseMount_acts (d : Device) : d.Acts d.refuseMount := by
  unfold Device.refuseMount
  split
  · exact .of_frame rfl rfl rfl rfl rfl rfl
  · exact .refl d

theorem Device.refuseWaiting_acts {c : Ctx} (d : Device) (hw : c.warning = true) : d.Acts (d.refuseWaiting c) := by
  rw [d.refuseWaiting_eq hw]
  exact d.refuseCommand_acts.trans ((Device.refuseReclaim_acts _).trans (Device.refuseMount_acts _))

theorem Device.refuseCommand_waits (d : Device) :
    d.refuseCommand.fc.waitCommand = none ∧ (d.fc.waitCommand.isSome = true → d.refuseCommand.ex = none) := by
  unfold Device.refuseCommand
  split
  · rw [(Device.commandRefused_quiet _).fc]
    exact ⟨rfl, fun _ => Device.commandRefused_ex _⟩
  · rename_i h
    exact ⟨Option.not_isSome_iff_eq_none.mp h, fun k => absurd k h⟩

theorem Device.refuseReclaim_waits (d : Device) :
    d.refuseReclaim.fc.waitReclaim = none ∧ d.refuseReclaim.fc.waitCommand = d.fc.waitCommand := by
  unfold Device.refuseReclaim
  split
  · rw [(Device.reclaimRefused_quiet _).fc]
    exact ⟨rfl, rfl⟩
  · rename_i h
    exact ⟨Option.not_isSome_iff_eq_none.mp h, rfl⟩

theorem Device.refuseMount_waits (d : Device) :
    d.refuseMount.fc.waitMount = none ∧ d.refuseMount.fc.waitReclaim = d.fc.waitReclaim ∧
      d.refuseMount.fc.waitCommand = d.fc.waitCommand := by
  unfold Device.refuseMount
  split
  · exact ⟨rfl, rfl, rfl⟩
  · rename_i h
    exact ⟨Option.not_isSome_iff_eq_none.mp h, rfl, rfl⟩

/-- No request waits where the waiting ones were refused (R16). -/
theorem Device.refuseWaiting_waits {c : Ctx} (d : Device) (hw : c.warning = true) :
    (d.refuseWaiting c).fc.waitCommand = none ∧ (d.refuseWaiting c).fc.waitReclaim = none ∧ (d.refuseWaiting c).fc.waitMount = none := by
  rw [d.refuseWaiting_eq hw]
  obtain ⟨hm, hmr, hmc⟩ := d.refuseCommand.refuseReclaim.refuseMount_waits
  obtain ⟨hr, hrc⟩ := d.refuseCommand.refuseReclaim_waits
  exact ⟨hmc.trans (hrc.trans d.refuseCommand_waits.1), hmr.trans hr, hm⟩

/-- Under WARNING a place ends the command that asks for it (R182). -/
theorem Device.commandPlace_warned {c : Ctx} (d : Device) (w : Writer) (hw : c.warning = true) :
    d.commandPlace c w = d.commandPowerEnd := by
  unfold Device.commandPlace
  rw [if_pos hw]

/-- The end of a step wakes only a command that waits for an open line: under WARNING that ends it. -/
theorem Device.wakeCommand_quiet {c : Ctx} {d : Device} (hw : c.warning = true) (h : d.Unwaiting) : d.Quiet (d.wakeCommand c) := by
  unfold Device.wakeCommand
  split
  · exact .refl d
  · rename_i x hx
    obtain ⟨hspace, hrepair, hformat⟩ := h x hx
    split
    · rename_i w hs
      split
      · split
        · rw [d.commandPlace_warned w hw]
          exact d.commandPowerEnd_quiet
        · exact .refl d
      · rename_i hws
        exact absurd hws (hspace w hs)
      · exact .refl d
    · rename_i hs
      exact absurd hs hrepair
    · rename_i hs
      rw [hformat hs]
      exact .refl d
    · exact .refl d

theorem Device.settle_warned {c : Ctx} (d : Device) (hw : c.warning = true) :
    d.settle c = (((d.refuseWaiting c).wakeReclaim c).wakeCommand c).refuseWaiting c := by
  unfold Device.settle Device.arbitrate
  rw [if_pos hw]

/-- The end of a step under WARNING, of a device where no command waits. -/
theorem Device.settle_acts {c : Ctx} {d : Device} (hw : c.warning = true) (h : d.Unwaiting) : d.Acts (d.settle c) := by
  rw [d.settle_warned hw]
  have h1 : d.Acts ((d.refuseWaiting c).wakeReclaim c) := (d.refuseWaiting_acts hw).trans (Device.wakeReclaim_acts c _)
  exact h1.trans ((Device.wakeCommand_quiet hw (h1.noWait h)).acts.trans (Device.refuseWaiting_acts _ hw))

/-- A command with a waiting request has ended at the end of the step (R16, R184). -/
theorem Device.settle_over {c : Ctx} {d : Device} (hw : c.warning = true)
    (ho : d.ex = none ∨ d.fc.waitCommand.isSome = true) : (d.settle c).ex = none := by
  have h0 : (d.refuseWaiting c).ex = none := by
    obtain hx | hs := ho
    · exact (d.refuseWaiting_acts hw).idle hx
    · rw [d.refuseWaiting_eq hw]
      exact (Device.refuseMount_acts _).idle ((Device.refuseReclaim_acts _).idle (d.refuseCommand_waits.2 hs))
  rw [d.settle_warned hw, Device.wakeCommand_of_idle _ _ ((Device.wakeReclaim_acts c _).idle h0)]
  exact (Device.refuseWaiting_acts _ hw).idle ((Device.wakeReclaim_acts c _).idle h0)

/-! ## The step of a taken command under WARNING (log entry 40) -/

/-- What the step of a taken command does under WARNING: the command has ended, or its first request waits. -/
structure Device.Steps (d d' : Device) : Prop where
  acts : d.Acts d'
  atEnd : d'.ex = none ∨ d'.fc.waitCommand.isSome = true

theorem Device.Steps.ended {d e : Device} (h : d.Quiet e) (status : Status) (result : Nat) : d.Steps (e.endCommand status result) :=
  ⟨(h.endCommand status result).acts, .inl (e.endCommand_ex status result)⟩

theorem Device.commandPlace_steps {c : Ctx} (d : Device) (w : Writer) (hw : c.warning = true) : d.Steps (d.commandPlace c w) := by
  rw [d.commandPlace_warned w hw]
  exact ⟨d.commandPowerEnd_quiet.acts, .inl d.commandPowerEnd_ex⟩

theorem Device.requestsRead_steps (d : Device) (loc : Location) (r : Request) :
    d.Steps ((d.setStage (.reading loc)).request .command r) := by
  have h : d.Quiet (d.setStage (.reading loc)) := d.setStage_quiet fun _ => ⟨nofun, nofun, nofun⟩
  refine ⟨h.acts.trans ?_, .inr rfl⟩
  exact .of_frame rfl rfl rfl rfl rfl rfl

theorem Device.startRead_steps (d : Device) (x : Executing) : d.Steps (d.startRead x) := by
  unfold Device.startRead
  split
  · exact .ended (.refl d) _ _
  · split
    · exact d.requestsRead_steps _ _
    · exact .ended (.refl d) _ _

theorem Device.startWrite_steps {c : Ctx} (d : Device) (x : Executing) (payload : List Byte) (hw : c.warning = true) :
    d.Steps (d.startWrite c x payload) := by
  unfold Device.startWrite
  split
  · exact .ended (.refl d) _ _
  · exact d.commandPlace_steps _ hw

theorem Device.startDelete_steps {c : Ctx} (d : Device) (x : Executing) (hw : c.warning = true) : d.Steps (d.startDelete c x) := by
  unfold Device.startDelete
  split
  · exact .ended (.refl d) _ _
  · exact d.commandPlace_steps _ hw

theorem Device.startAdd_steps {c : Ctx} (d : Device) (x : Executing) (hw : c.warning = true) : d.Steps (d.startAdd c x) := by
  unfold Device.startAdd
  split
  · exact .ended (.refl d) _ _
  · split
    · exact d.requestsRead_steps _ _
    · exact d.commandPlace_steps _ hw

theorem Device.startList_steps (d : Device) (x : Executing) : d.Steps (d.startList x) := by
  refine .ended ?_ _ _
  unfold Device.output
  split
  · exact .refl d
  · split
    · exact .refl d
    · split
      · exact .of_frame rfl rfl rfl rfl
      · exact .refl d

theorem Device.startOpenGroup_steps {c : Ctx} (d : Device) (x : Executing) (timeout : Nat) (hw : c.warning = true) :
    d.Steps (d.startOpenGroup c x timeout) := by
  unfold Device.startOpenGroup
  split
  · exact .ended (.refl d) _ _
  · split
    · exact .ended (d.degrade_quiet _) _ _
    · refine .ended ?_ _ _
      exact .of_frame rfl rfl rfl rfl

theorem Device.startCommitGroup_steps {c : Ctx} (d : Device) (hw : c.warning = true) : d.Steps (d.startCommitGroup c) := by
  unfold Device.startCommitGroup
  split
  · exact .ended (.refl d) _ _
  · split
    · refine .ended ?_ _ _
      exact .of_noGroup rfl rfl rfl rfl
    · exact d.commandPlace_steps _ hw

theorem Device.endGroup_quiet (d : Device) : d.Quiet d.endGroup := by
  obtain ⟨banks, moved, h⟩ := d.endGroup_frame
  rw [h]
  exact .of_noGroup rfl rfl rfl rfl

theorem Device.startDropGroup_steps (d : Device) : d.Steps d.startDropGroup := by
  unfold Device.startDropGroup
  split
  · exact .ended (.refl d) _ _
  · exact .ended d.endGroup_quiet _ _

theorem Device.startReclaim_steps {c : Ctx} (d : Device) (x : Executing) (hw : c.warning = true) : d.Steps (d.startReclaim c x) := by
  unfold Device.startReclaim
  split
  · exact .ended (.refl d) _ _
  · split
    · exact .ended (.refl d) _ _
    · exact .ended (.refl d) _ _

theorem Device.startRaiseLock_steps {c : Ctx} (d : Device) (x : Executing) (hw : c.warning = true) : d.Steps (d.startRaiseLock c x) := by
  unfold Device.startRaiseLock
  split
  · exact .ended (.refl d) _ _
  · split
    · exact .ended (.refl d) _ _
    · exact d.commandPlace_steps _ hw

/-- FORMAT's taking sets its progress, and the power condition ends it in the same step. -/
theorem Device.startFormat_steps {c : Ctx} {d : Device} {x : Executing} (hx : d.ex = some x) (hw : c.warning = true) :
    d.Steps (d.startFormat c) := by
  have hp : d.formatTaken.formatProgress.isSome = true := by simp [Device.formatProgress, Device.formatTaken, hx]
  have hn := Device.formatPowerEnd_ex hp
  have hq := d.formatTaken.formatPowerEnd_quiet
  unfold Device.startFormat
  split
  · exact .ended (.refl d) _ _
  · rw [if_pos hw]
    refine ⟨Device.Quiet.acts ⟨hq.queue, hq.fc, fun _ => hn, hq.noGroup, fun hb => hq.bound fun g hg => ?_, fun _ =>
      Device.unwaiting_of_idle hn⟩, .inl hn⟩
    obtain ⟨y, hy, ho⟩ := hb g hg
    exact ⟨_, congrArg (Option.map _) hy, ho⟩

theorem Device.startCommand_steps {c : Ctx} {d : Device} {x : Executing} (t : Taken) (hx : d.ex = some x) (hw : c.warning = true) :
    d.Steps (d.startCommand c x t) := by
  unfold Device.startCommand
  split
  · exact d.startRead_steps x
  · exact d.startWrite_steps x _ hw
  · exact d.startDelete_steps x hw
  · exact d.startAdd_steps x hw
  · exact d.startList_steps x
  · exact d.startOpenGroup_steps x _ hw
  · exact d.startCommitGroup_steps hw
  · exact d.startDropGroup_steps
  · exact d.startReclaim_steps x hw
  · exact Device.startFormat_steps hx hw
  · exact d.startRaiseLock_steps x hw

theorem Device.makeStep_acts {c : Ctx} (d : Device) (hw : c.warning = true) : d.Acts (d.makeStep c) := by
  unfold Device.makeStep
  split
  · exact .refl d
  · rename_i x hx
    split
    · exact (Device.startCommand_steps _ hx hw).acts
    · exact .refl d

/-- A command taken and not yet under way is over once it made its step under WARNING, or its request waits. -/
theorem Device.makeStep_over {c : Ctx} {d : Device} (hw : c.warning = true) (h : ∀ x, d.ex = some x → ∃ t, x.stage = .checking t) :
    (d.makeStep c).ex = none ∨ (d.makeStep c).fc.waitCommand.isSome = true := by
  cases hx : d.ex with
  | none =>
    rw [Device.makeStep_steady c d fun x hy => by cases hx.symm.trans hy]
    exact .inl hx
  | some x =>
    obtain ⟨t, ht⟩ := h x hx
    rw [Device.makeStep_taken c d hx ht]
    exact (Device.startCommand_steps t hx hw).atEnd

/-! ## The parts of the entry to WARNING -/

/-- The end of an OPEN group at the entry leaves the Command Engine (R122). -/
theorem Device.endOpenGroup_frame (d : Device) :
    ∃ group banks moved, d.endOpenGroup = { d with group := group, banks := banks, reclaim := { d.reclaim with moved := moved } } := by
  obtain ⟨banks, moved, h⟩ := d.endGroup_frame
  unfold Device.endOpenGroup
  split
  · exact ⟨d.group, d.banks, d.reclaim.moved, rfl⟩
  · split
    · exact ⟨d.group, d.banks, d.reclaim.moved, rfl⟩
    · split
      · exact ⟨_, d.banks, d.reclaim.moved, rfl⟩
      · exact ⟨none, banks, moved, h⟩

theorem Device.endOpenGroup_queue (d : Device) : d.endOpenGroup.queue = d.queue := by
  obtain ⟨group, banks, moved, h⟩ := d.endOpenGroup_frame
  rw [h]

theorem Device.endOpenGroup_fc (d : Device) : d.endOpenGroup.fc = d.fc := by
  obtain ⟨group, banks, moved, h⟩ := d.endOpenGroup_frame
  rw [h]

theorem Device.endOpenGroup_ex (d : Device) : d.endOpenGroup.ex = d.ex := by
  obtain ⟨group, banks, moved, h⟩ := d.endOpenGroup_frame
  rw [h]

theorem Device.endOpenGroup_request (d : Device) : d.endOpenGroup.reclaim.request = d.reclaim.request := by
  obtain ⟨group, banks, moved, h⟩ := d.endOpenGroup_frame
  rw [h]

theorem Device.endOpenGroup_retireAnswers (d : Device) : d.endOpenGroup.retireAnswers = d.retireAnswers := by
  obtain ⟨group, banks, moved, h⟩ := d.endOpenGroup_frame
  simp only [h, Device.retireAnswers]

/-- The entry abandons an erase (R16): the rest of the Flash Controller is left. -/
theorem Device.abandonErase_fc (d : Device) :
    d.abandonErase.fc.op = d.fc.op ∧ d.abandonErase.fc.erase = none ∧ d.abandonErase.fc.fairness = d.fc.fairness := by
  unfold Device.abandonErase
  split
  · rename_i h
    exact ⟨rfl, h, rfl⟩
  · dsimp only
    split
    · rw [(Device.reclaimRefused_quiet _).fc]
      exact ⟨rfl, rfl, rfl⟩
    · rw [(Device.commandPowerEnd_quiet _).fc]
      exact ⟨rfl, rfl, rfl⟩
    · exact ⟨rfl, rfl, rfl⟩

theorem Device.abandonErase_quiet (d : Device) : Device.Quiet { d with fc := d.abandonErase.fc } d.abandonErase := by
  unfold Device.abandonErase
  split
  · exact .refl d
  · dsimp only
    split
    · rw [(Device.reclaimRefused_quiet _).fc]
      exact Device.reclaimRefused_quiet _
    · rw [(Device.commandPowerEnd_quiet _).fc]
      exact Device.commandPowerEnd_quiet _
    · exact .refl _

/-- The executing command ends with its abandoned erase, or stays, with the request that the Reclaim Engine holds for it; no retire line
comes to answer that. -/
theorem Device.abandonErase_held (d : Device) :
    d.abandonErase.ex = none ∨
      (d.abandonErase.ex = d.ex ∧ d.abandonErase.reclaim.request = d.reclaim.request ∧
        (d.retireAnswers = false → d.abandonErase.retireAnswers = false)) := by
  unfold Device.abandonErase
  split
  · exact .inr ⟨rfl, rfl, id⟩
  · dsimp only
    split
    · obtain ⟨banks, mark, r, h, hq, hj⟩ := Device.reclaimRefused_frame { d with fc := { d.fc with erase := none, decided := none } }
      rw [h]
      refine .inr ⟨rfl, hq, fun _ => ?_⟩
      obtain hj | ⟨cause, hj⟩ := hj <;> simp [Device.retireAnswers, hj]
    · exact .inl (Device.commandPowerEnd_ex _)
    · exact .inr ⟨rfl, rfl, id⟩

/-- No command waits for its turn or for space after the entry (R182, R184). -/
theorem Device.warnCommand_unwaiting (d : Device) : d.warnCommand.Unwaiting := by
  unfold Device.warnCommand
  split
  · rename_i h
    exact Device.unwaiting_of_idle h
  · rename_i x hx
    split
    · rename_i w hs
      split
      · exact Device.unwaiting_of_idle d.commandPowerEnd_ex
      · rename_i hn
        refine Device.unwaiting_of hx ?_
        rw [hs]
        exact ⟨fun v hv => by cases hv; exact hn, nofun, nofun⟩
    · rename_i hs
      have h : d.Unwaiting := Device.unwaiting_of hx (by rw [hs]; exact ⟨nofun, nofun, nofun⟩)
      split
      · exact h
      · exact (d.answerReclaim_quiet _ _).noWait h
    · exact Device.unwaiting_of_idle d.commandPowerEnd_ex
    · rename_i hs
      cases hf : x.format with
      | none => exact d.formatPowerEnd_quiet.noWait (Device.unwaiting_of hx (by rw [hs]; exact ⟨nofun, nofun, fun _ => hf⟩))
      | some f => exact Device.unwaiting_of_idle (Device.formatPowerEnd_ex (by simp [Device.formatProgress, hx, hf]))
    · rename_i hwriting _ hrepair hformat
      exact Device.unwaiting_of hx ⟨fun w h => absurd h (hwriting w), hrepair, fun h => absurd h hformat⟩

theorem Device.warnCommand_quiet (d : Device) : d.Quiet d.warnCommand := by
  unfold Device.warnCommand
  split
  · exact .refl d
  · split
    · split
      · exact d.commandPowerEnd_quiet
      · exact .refl d
    · split
      · exact .refl d
      · exact d.answerReclaim_quiet _ _
    · exact d.commandPowerEnd_quiet
    · exact d.formatPowerEnd_quiet
    · exact .refl d

theorem Device.warn_fc (d : Device) : d.warn.fc.op = d.fc.op ∧ d.warn.fc.erase = none ∧ d.warn.fc.fairness = 0 := by
  have hfc : d.warnNoted.endOpenGroup.fc = d.warnNoted.fc := d.warnNoted.endOpenGroup_fc
  obtain ⟨ho, he, hf⟩ := d.warnNoted.endOpenGroup.abandonErase_fc
  rw [hfc] at ho hf
  rw [Device.warn_eq, (Device.warnCommand_quiet _).fc]
  exact ⟨ho, he, hf⟩

/-- The entry once it has dealt with the group. -/
theorem Device.warn_quiet (d : Device) : ∃ fc, Device.Quiet { d.warnNoted.endOpenGroup with fc := fc } d.warn :=
  ⟨_, (Device.abandonErase_quiet _).trans (Device.warnCommand_quiet _)⟩

theorem Device.warn_queue (d : Device) : d.warn.queue = d.queue := by
  obtain ⟨fc, hq⟩ := d.warn_quiet
  exact hq.queue.trans d.warnNoted.endOpenGroup_queue

/-- The command that executes at the entry, where it comes to the Command Engine: ended with its erase, or as it was. -/
theorem Device.warn_held (d : Device) :
    let a := d.warnNoted.endOpenGroup.abandonErase
    a.ex = none ∨ (a.ex = d.ex ∧ a.reclaim.request = d.reclaim.request ∧ (d.retireAnswers = false → a.retireAnswers = false)) := by
  have hx : d.warnNoted.endOpenGroup.ex = d.ex := d.warnNoted.endOpenGroup_ex
  have hr : d.warnNoted.endOpenGroup.reclaim.request = d.reclaim.request := d.warnNoted.endOpenGroup_request
  have ha : d.warnNoted.endOpenGroup.retireAnswers = d.retireAnswers := d.warnNoted.endOpenGroup_retireAnswers
  obtain hn | ⟨hx', hr', ha'⟩ := d.warnNoted.endOpenGroup.abandonErase_held
  · exact .inl hn
  · exact .inr ⟨hx'.trans hx, hr'.trans hr, fun k => ha' (ha.trans k)⟩

/-- A command that waits for a lock repair ends at the entry (R182). -/
theorem Device.warn_repairWait {d : Device} {x : Executing} (hx : d.ex = some x) (hs : x.stage = .repairWait) : d.warn.ex = none := by
  rw [Device.warn_eq]
  obtain hn | ⟨ha, _⟩ := d.warn_held
  · exact (Device.warnCommand_quiet _).idle hn
  · simp only [Device.warnCommand, ha.trans hx, hs]
    exact Device.commandPowerEnd_ex _

/-- So does one that holds a RECLAIM request which no retire line in progress answers (log entry 19). -/
theorem Device.warn_reclaimHeld {d : Device} {x : Executing} (hx : d.ex = some x) (hs : x.stage = .reclaimHeld)
    (hr : d.reclaim.request ≠ none) (hn : d.retireAnswers = false) : d.warn.ex = none := by
  obtain ⟨n, hq⟩ := Option.ne_none_iff_exists'.mp hr
  rw [Device.warn_eq]
  obtain ho | ⟨ha, hrq, hra⟩ := d.warn_held
  · exact (Device.warnCommand_quiet _).idle ho
  · simp only [Device.warnCommand, Device.answerReclaim, ha.trans hx, hs, hra hn, hrq.trans hq, Bool.false_eq_true, if_false]
    exact Device.endCommand_ex _ _ _

/-- A command taken and not yet under way meets no end at the entry itself. -/
theorem Device.warn_checking {d : Device} (h : ∀ x, d.ex = some x → ∃ t, x.stage = .checking t) :
    ∀ x, d.warn.ex = some x → ∃ t, x.stage = .checking t := by
  rw [Device.warn_eq]
  obtain hn | ⟨ha, _⟩ := d.warn_held
  · intro x hx
    cases ((Device.warnCommand_quiet _).idle hn).symm.trans hx
  · intro x hx
    cases hd : d.ex with
    | none => cases ((Device.warnCommand_quiet _).idle (ha.trans hd)).symm.trans hx
    | some y =>
      obtain ⟨t, ht⟩ := h y hd
      rw [Device.warnCommand_checking (ha.trans hd) ht, ha] at hx
      exact h x hx

/-! ## The step of the entry -/

/-- The device after the step of an entry: the entry itself or, between a command's taking and its step, taking, entry and step. -/
def Device.entered (g : Configuration) (between : Bool) (d : Device) : Device :=
  ((if between then Device.warnBetween g else Device.warn) d).settle { cfg := g, warning := true }

/-- The device that the entry meets. -/
def Device.headMet (g : Configuration) (between : Bool) (d : Device) : Device :=
  if between then d.takeHead { cfg := g, warning := false } else d

theorem Device.entered_settles (g : Configuration) (between : Bool) (d : Device) :
    ∃ e, d.entered g between = e.settle { cfg := g, warning := true } ∧ (d.headMet g between).warn.Acts e ∧
      (between = true → e = (d.headMet g between).warn.makeStep { cfg := g, warning := true }) := by
  cases between with
  | true => exact ⟨_, rfl, Device.makeStep_acts _ rfl, fun _ => rfl⟩
  | false => exact ⟨_, rfl, .refl _, nofun⟩

/-- What follows the entry in its step begins nothing. -/
theorem Device.entered_acts (g : Configuration) (between : Bool) (d : Device) :
    (d.headMet g between).warn.Acts (d.entered g between) := by
  obtain ⟨e, he, ha, _⟩ := d.entered_settles g between
  rw [he]
  exact ha.trans (Device.settle_acts rfl (ha.noWait (Device.warnCommand_unwaiting _)))

theorem Device.entered_unwaiting (g : Configuration) (between : Bool) (d : Device) : (d.entered g between).Unwaiting :=
  (d.entered_acts g between).noWait (Device.warnCommand_unwaiting _)

/-- No request waits after the step of an entry (R16). -/
theorem Device.entered_waits (g : Configuration) (between : Bool) (d : Device) :
    (d.entered g between).fc.waitCommand = none ∧ (d.entered g between).fc.waitReclaim = none ∧
      (d.entered g between).fc.waitMount = none := by
  obtain ⟨e, he, _⟩ := d.entered_settles g between
  rw [he, e.settle_warned rfl]
  exact Device.refuseWaiting_waits _ rfl

theorem Device.headMet_executing {d : Device} (g : Configuration) (between : Bool) (h : d.ex ≠ none) : d.headMet g between = d := by
  cases between with
  | true => exact Device.takeHead_none _ d (.inl h)
  | false => rfl

/-- Taking the head command leaves the Flash Controller. -/
theorem Device.takeHead_fc (c : Ctx) (d : Device) : (d.takeHead c).fc = d.fc := by
  unfold Device.takeHead
  split
  · split
    · rfl
    · dsimp only
      split
      · exact (Device.endCommand_quiet _ _ _).fc
      · unfold Device.closeGroup
        split
        · rfl
        · rfl
  · rfl

theorem Device.headMet_fc (g : Configuration) (between : Bool) (d : Device) : (d.headMet g between).fc = d.fc := by
  cases between with
  | true => exact d.takeHead_fc _
  | false => rfl

/-- The Flash Controller after the step of an entry (R16). -/
theorem Device.entered_fc (g : Configuration) (between : Bool) (d : Device) :
    (d.entered g between).fc.op = d.fc.op ∧ (d.entered g between).fc.erase = none ∧ (d.entered g between).fc.fairness = 0 := by
  have h := d.entered_acts g between
  obtain ⟨ho, he, hf⟩ := (d.headMet g between).warn_fc
  rw [d.headMet_fc] at ho
  exact ⟨h.op.trans ho, h.erase.trans he, h.fairness.trans hf⟩

/-- Each group that the entry meets is OPEN or has its COMMIT_GROUP under way (R115). -/
def Device.GroupMet (d : Device) : Prop :=
  ∀ k, d.group = some k → k.state = .opened ∨ (k.state = .committing ∧ ∃ x, d.ex = some x ∧ x.code = .commitGroup)

/-- The entry deals with every OPEN group: it ends, or its end is bound to the member command that executes (R122). -/
theorem Device.endOpenGroup_bound {d : Device} (h : d.GroupMet) : d.endOpenGroup.GroupBound := by
  unfold Device.endOpenGroup
  split
  · rename_i hg
    exact Device.groupBound_of_none hg
  · rename_i k hg
    split
    · rename_i hc
      obtain ho | ⟨_, x, hx, hxc⟩ := h k hg
      · cases hc.symm.trans ho
      · intro k' hk'
        obtain rfl : k = k' := Option.some.inj (hg.symm.trans hk')
        exact ⟨x, hx, .inr ⟨hxc, hc⟩⟩
    · split
      · rename_i hm
        intro k' hk'
        obtain ⟨_, _, rfl⟩ := Option.map_eq_some_iff.mp hk'
        obtain ⟨x, hx, hxm⟩ := (Option.any_eq_true _ _).mp hm
        exact ⟨x, hx, .inl ⟨hxm, rfl⟩⟩
      · exact Device.groupBound_of_none d.endGroup_group

/-- The head command of an IDLE engine, taken or refused: it is not yet under way, and an OPEN group is left OPEN but by its COMMIT_GROUP. -/
theorem Device.takeHead_idle (c : Ctx) {d : Device} (hx : d.ex = none) (hg : ∀ k, d.group = some k → k.state = .opened) :
    (∀ x, (d.takeHead c).ex = some x → ∃ t, x.stage = .checking t) ∧ (d.takeHead c).GroupMet := by
  have hd : (∀ x, d.ex = some x → ∃ t, x.stage = .checking t) ∧ d.GroupMet :=
    ⟨fun x h => absurd (hx.symm.trans h) nofun, fun k h => .inl (hg k h)⟩
  unfold Device.takeHead
  split
  · rename_i p rest _ _
    have htaken : ∀ x, some (d.taken c p) = some x → ∃ t, x.stage = .checking t := fun x h => ⟨d.takes c p, by
      rw [← Option.some.inj h, Device.taken]⟩
    split
    · exact hd
    · dsimp only
      split
      · refine ⟨fun x hx => absurd ((Device.endCommand_ex _ _ _).symm.trans hx) nofun, fun k hk => .inl (hg k ?_)⟩
        obtain hn | hs := Device.endCommand_group { d with queue := rest, ex := some (d.taken c p) } _ 0
        · cases hn.symm.trans hk
        · exact hs.symm.trans hk
      · unfold Device.closeGroup
        split
        · rename_i hc
          refine ⟨htaken, fun k hk => .inr ?_⟩
          obtain ⟨_, _, rfl⟩ := Option.map_eq_some_iff.mp hk
          exact ⟨rfl, _, rfl, hc⟩
        · exact ⟨htaken, fun k hk => .inl (hg k hk)⟩
  · exact hd

/-- Where the entry comes between the head command's taking and its step, the command has ended after it (log entry 40). -/
theorem Device.entered_idle (g : Configuration) {d : Device} (hx : ∀ x, (d.headMet g true).ex = some x → ∃ t, x.stage = .checking t) :
    (d.entered g true).ex = none := by
  obtain ⟨e, he, _, hb⟩ := d.entered_settles g true
  rw [he, hb rfl]
  exact Device.settle_over rfl (Device.makeStep_over rfl (Device.warn_checking hx))

/-- An OPEN group with no member command executing ends in the step of the entry (R122). -/
theorem Device.entered_noGroup (g : Configuration) (between : Bool) {d : Device} {k : GroupContext} (hg : d.group = some k)
    (hk : k.state = .opened) (hm : d.memberExecuting = false) : (d.entered g between).group = none := by
  have hall : ∀ k', d.group = some k' → k'.state = .opened := fun k' h => by cases hg.symm.trans h; exact hk
  have hacts := d.entered_acts g between
  obtain ⟨fc, hq⟩ := (d.headMet g between).warn_quiet
  have hsame (h : d.headMet g between = d) : (d.entered g between).group = none := by
    have hn : d.warnNoted.endOpenGroup.group = none := by
      have hw : d.warnNoted.endOpenGroup = d.warnNoted.groupWarned := Device.endOpenGroup_noMember hm
      have hgk : d.warnNoted.group = some k := hg
      simp only [hw, Device.groupWarned, hgk, hk, if_true]
      exact Device.endGroup_group _
    rw [h] at hq hacts
    exact hacts.noGroup (hq.noGroup hn)
  cases hx : d.ex with
  | some x => exact hsame (d.headMet_executing g between (by simp [hx]))
  | none =>
    cases between with
    | false => exact hsame rfl
    | true =>
      obtain ⟨hfresh, hmet⟩ := Device.takeHead_idle { cfg := g, warning := false } hx hall
      have hbound : (d.headMet g true).warnNoted.endOpenGroup.GroupBound := Device.endOpenGroup_bound hmet
      exact (hacts.bound (hq.bound hbound)).none_of_idle (Device.entered_idle g hfresh)

/-! ## The event -/

/-- The entry by a source that asserts: the change of the state. -/
theorem State.judgePower_entered {s : State} (entry : WarningEntry) (h : powerAsserted s.cfg s.power = true)
    (hw : s.power.warning = false) :
    s.judgePower entry =
      { s with
        flash := s.abandonedFlash entry.erase
        power := { s.power with warning := true, debounce := .idle }
        dev := s.dev.entered s.cfg entry.between } :=
  s.judgePower_enters entry h hw

/-- The levels of the sources after the event. -/
def levelsAfter (p : Power) : WarningSource → Power
  | .pfw _ => { p with pfwLow := true }
  | .supply mv _ => { p with vdd := mv }

theorem levelsAfter_same (source : WarningSource) (p : Power) :
    (levelsAfter p source).warning = p.warning ∧ (levelsAfter p source).debounce = p.debounce := by
  cases source with
  | pfw between => exact ⟨rfl, rfl⟩
  | supply mv between => exact ⟨rfl, rfl⟩

/-- The event while the supply stays at or above the brown-out level: the source's level recorded, and the sources judged. -/
theorem exec_powerWarning_judged {s : State} {source : WarningSource} (cut : CutShort)
    (h : ¬Instr.resets s (.powerWarning source cut)) :
    ∃ between, exec (.powerWarning source cut) s =
      .next (({ s with power := levelsAfter s.power source } : State).judgePower { erase := cut.erase, between := between }) := by
  have hv := Instr.vdd_of_not_resets h
  cases source with
  | pfw between => exact ⟨between, exec_powerWarning_pfw s between cut hv⟩
  | supply mv between => exact ⟨between, exec_powerWarning_supply s mv between cut hv (Instr.supply_of_not_resets h)⟩

/-- A command's turn meets no COMMITTING group: that has its COMMIT_GROUP executing (R115). -/
theorem State.Turn.group_opened {s : State} {p : Posted} {rest : List Posted} (h : s.Turn p rest) (k : GroupContext)
    (hk : s.dev.group = some k) : k.state = .opened := by
  cases hs : k.state with
  | opened => rfl
  | committing =>
    have hx := (h.groups k hk).1 hs
    rw [h.idle] at hx
    cases hx

/-- Settles O50: the entry's step through what each of its parts begins and ends. -/
theorem powerWarningEntered : Obligations.PowerWarningEntered := by
  refine ⟨fun s source cut power hr hp => ?judged, fun s t u mv between cut hw hv hm ha ht hu => ?sources,
    fun s t p rest cut h ht => ?between⟩
  case judged =>
    have hl : power = levelsAfter s.power source := by
      rw [hp]
      cases source with
      | pfw between => rfl
      | supply mv between => rfl
    obtain ⟨between, he⟩ := exec_powerWarning_judged cut hr
    obtain ⟨hw, hd⟩ := levelsAfter_same source s.power
    rw [← hl] at he hw hd
    rw [← hw, ← hd]
    refine ⟨fun ha => ?quiet, fun ha hn => ?again, fun ha hn => ?enters⟩
    case quiet => exact he.trans (congrArg _ (State.judgePower_quiet { s with power := power } _ ha))
    case again => exact he.trans (congrArg _ (State.judgePower_again { s with power := power } _ ha hn))
    case enters =>
      obtain ⟨hop, herase, hfair⟩ := s.dev.entered_fc s.cfg between
      obtain ⟨hwc, hwr, hwm⟩ := s.dev.entered_waits s.cfg between
      have hflag := State.enterWarning_powerWarn { s with power := power } { erase := cut.erase, between := between }
      have hends {x : Executing} (hx : s.dev.ex = some x) (hwarn : s.dev.warn.ex = none) : (s.dev.entered s.cfg between).ex = none := by
        have hacts := s.dev.entered_acts s.cfg between
        rw [s.dev.headMet_executing s.cfg between (by simp [hx])] at hacts
        exact hacts.idle hwarn
      refine ⟨_, he.trans (congrArg _ (State.judgePower_entered (s := { s with power := power }) _ ha hn)), rfl, rfl, rfl, hflag, herase,
        hwc, hwr, hwm, hfair, hop, rfl, ?_, (s.dev.entered_unwaiting s.cfg between).phase, ?_, ?_⟩
      · exact fun g hg ho hm => s.dev.entered_noGroup s.cfg between hg ho hm
      · exact fun x hx hs => hends hx (Device.warn_repairWait hx hs)
      · exact fun x hx hs hq hn => hends hx (Device.warn_reclaimHeld hx hs hq hn)
  case sources =>
    have ht' := (exec_powerWarning_supply s mv between cut hv hm).trans
      (congrArg _ (State.judgePower_entered (s := { s with power := { s.power with vdd := mv } }) _ ha hw))
    have hu' : exec (.powerWarning (.pfw between) cut) s = .next (s.pfwLow cut (s.dev.entered s.cfg between)) :=
      exec_powerWarning_entered cut hv hw rfl
    rw [ht] at ht'
    rw [hu] at hu'
    cases ht'
    cases hu'
    rfl
  case between =>
    have ht' : exec (.powerWarning (.pfw true) cut) s = .next (s.pfwLow cut (s.dev.entered s.cfg true)) :=
      exec_powerWarning_entered cut h.supply h.turn.normal rfl
    rw [ht] at ht'
    obtain rfl := Host.Outcome.next.inj ht'
    obtain ⟨hfresh, _⟩ := Device.takeHead_idle { cfg := s.cfg, warning := false } h.turn.idle h.turn.group_opened
    refine ⟨Device.entered_idle s.cfg hfresh, ?_⟩
    refine (s.dev.entered_acts s.cfg true).queue.trans ((Device.warn_queue _).trans ?_)
    exact congrArg Device.queue h.turn.takeHead

end Sys2Proof.Machine
end

section
/-! The Bank Table (section 3.4): what a bank's entry reads after a write, which banks are in a state, and the bank a choice takes (R102,
R135, R154). -/
namespace Sys2Proof.Machine
open Sys2Proof

/-! ## The entries -/

theorem Device.bank_setBank (d : Device) (b c : BankId) (e : BankEntry) : (d.setBank b e).bank c = if c = b then e else d.bank c := by
  show (d.banks.set b.val e b.isLt)[c.val] = if c = b then e else d.banks[c.val]
  rw [Vector.getElem_set]
  simp only [Fin.ext_iff, eq_comm]

@[simp] theorem Device.bank_setBank_same (d : Device) (b : BankId) (e : BankEntry) : (d.setBank b e).bank b = e := by
  rw [Device.bank_setBank, if_pos rfl]

theorem Device.bank_setBank_other (d : Device) {b c : BankId} (e : BankEntry) (h : c ≠ b) : (d.setBank b e).bank c = d.bank c := by
  rw [Device.bank_setBank, if_neg h]

/-- Bank Tables with the same entries are the same. -/
theorem Device.banks_ext {d e : Device} (h : ∀ b, d.bank b = e.bank b) : d.banks = e.banks :=
  Vector.ext fun i hi => h ⟨i, hi⟩

/-! ## The banks in a state -/

@[simp] theorem mem_allBanks (b : BankId) : b ∈ allBanks := List.mem_finRange b

theorem Device.mem_banksIn {d : Device} {b : BankId} {st : BankState} : b ∈ d.banksIn st ↔ (d.bank b).state = st := by
  simp [Device.banksIn]

theorem Device.banksIn_rising (d : Device) (st : BankState) : (d.banksIn st).Pairwise (· < ·) :=
  (List.pairwise_lt_finRange 32).filter _

theorem Device.banksIn_congr {d e : Device} {st : BankState} (h : ∀ b, (d.bank b).state = st ↔ (e.bank b).state = st) :
    d.banksIn st = e.banksIn st :=
  List.filter_congr fun b _ => decide_eq_decide.mpr (h b)

theorem Device.activeBank_state {d : Device} {b : BankId} (h : d.activeBank = some b) : (d.bank b).state = .active :=
  Device.mem_banksIn.mp (List.mem_of_head? h)

/-! ## The element a choice takes -/

variable {α : Type} {better : α → α → Bool}

/-- Nothing chosen means nothing offered. -/
theorem pick_eq_none {l : List α} : pick better l = none ↔ l = [] := by
  cases l with
  | nil => simp [pick]
  | cons x l =>
    unfold pick
    split
    · simp
    · split <;> simp

/-- An order in which `better` is strict and its negation transitive. -/
structure Ranks (better : α → α → Bool) : Prop where
  asymm : ∀ x y, better x y = true → better y x = false
  trans : ∀ x y z, better x y = false → better y z = false → better x z = false

/-- No element offered is better than the one chosen, and of equals it is the first. -/
theorem pick_first (h : Ranks better) {r : α → α → Prop} {l : List α} (hl : l.Pairwise r) {a : α}
    (ha : pick better l = some a) {x : α}
    (hx : x ∈ l) : better x a = false ∧ (x = a ∨ better a x = true ∨ r a x) := by
  induction l generalizing a with
  | nil => cases hx
  | cons y l ih =>
    obtain ⟨hy, hl⟩ := List.pairwise_cons.mp hl
    have hself (z : α) : better z z = false := by
      cases hz : better z z with
      | false => rfl
      | true => exact hz.symm.trans (h.asymm z z hz)
    unfold pick at ha
    split at ha
    · rename_i hn
      obtain rfl := pick_eq_none.mp hn
      obtain rfl := List.mem_singleton.mp hx
      obtain rfl := Option.some.inj ha
      exact ⟨hself _, .inl rfl⟩
    · rename_i z hz
      split at ha <;> obtain rfl := Option.some.inj ha
      · rename_i hb
        rcases List.mem_cons.mp hx with rfl | hx
        · exact ⟨h.asymm _ _ hb, .inr (.inl hb)⟩
        · exact ih hl hz hx
      · rename_i hb
        rcases List.mem_cons.mp hx with rfl | hx
        · exact ⟨hself _, .inl rfl⟩
        · exact ⟨h.trans _ _ _ (ih hl hz hx).1 (Bool.not_eq_true _ ▸ hb), .inr (.inr (hy x hx))⟩

/-- No element offered is better than the one chosen. -/
theorem pick_best (h : Ranks better) {l : List α} {a : α} (ha : pick better l = some a) {x : α} (hx : x ∈ l) : better x a = false :=
  (pick_first h (List.pairwise_of_forall fun _ _ => trivial) ha hx).1

/-- Choices by a count, the lowest first. -/
theorem ranks_lowest (f : α → Nat) : Ranks fun a b => Decidable.decide (f a < f b) where
  asymm x y h := by
    simp only [decide_eq_true_eq, decide_eq_false_iff_not] at *
    omega
  trans x y z h k := by
    simp only [decide_eq_false_iff_not] at *
    omega

/-- The FREE bank that is opened (R102). -/
theorem Device.freeToOpen_eq_some (d : Device) (b : BankId) :
    d.freeToOpen = some b ↔
      (d.bank b).state = .free ∧
        ∀ b', (d.bank b').state = .free →
          (d.bank b).wear < (d.bank b').wear ∨ ((d.bank b).wear = (d.bank b').wear ∧ b ≤ b') := by
  have hfirst {a b' : BankId} (ha : d.freeToOpen = some a) (hb : (d.bank b').state = .free) :
      (d.bank a).wear < (d.bank b').wear ∨ ((d.bank a).wear = (d.bank b').wear ∧ a ≤ b') := by
    obtain ⟨hle, hor⟩ := pick_first (ranks_lowest fun b => (d.bank b).wear) (d.banksIn_rising .free) ha (Device.mem_banksIn.mpr hb)
    simp only [decide_eq_false_iff_not, decide_eq_true_eq] at hle hor
    rcases hor with rfl | hlt | hlt
    · exact .inr ⟨rfl, Fin.le_refl _⟩
    · exact .inl hlt
    · exact (Nat.lt_or_eq_of_le (Nat.le_of_not_lt hle)).imp id fun he => ⟨he, Fin.le_of_lt hlt⟩
  refine ⟨fun h => ⟨Device.mem_banksIn.mp (pick_mem _ _ _ h), fun b' => hfirst h⟩, fun ⟨hfree, hb⟩ => ?_⟩
  cases ha : d.freeToOpen with
  | none =>
    have : b ∈ d.banksIn .free := Device.mem_banksIn.mpr hfree
    rw [pick_eq_none.mp ha] at this
    cases this
  | some a =>
    have h1 := hfirst ha hfree
    have h2 := hb a (Device.mem_banksIn.mp (pick_mem _ _ _ ha))
    have hab : a = b := by
      rcases h1 with h1 | ⟨_, h1⟩ <;> rcases h2 with h2 | ⟨_, h2⟩
      · omega
      · omega
      · omega
      · exact Fin.le_antisymm h1 h2
    rw [hab]

theorem Device.freeToOpen_congr {d e : Device} (hs : ∀ b, (d.bank b).state = .free ↔ (e.bank b).state = .free)
    (hw : ∀ b, (d.bank b).wear = (e.bank b).wear) : d.freeToOpen = e.freeToOpen := by
  refine Option.ext fun b => ?_
  rw [Device.freeToOpen_eq_some, Device.freeToOpen_eq_some]
  simp only [hs, hw]

theorem Device.freeCount_congr {d e : Device} (hs : ∀ b, (d.bank b).state = .free ↔ (e.bank b).state = .free) :
    d.freeCount = e.freeCount := congrArg List.length (Device.banksIn_congr hs)

end Sys2Proof.Machine
end

section
/-! Placing a record that fits no ACTIVE bank (R98, R101 to R104, R141): the wait for an open, the open, WAITING_SPACE, and the counters
exhausted; and the end of a step that grants the one request it leaves. -/
namespace Sys2Proof.Machine
open Sys2Proof

/-! ## The end of a step (R13) -/

/-- With nothing waiting and no engine to wake, the end of a step changes nothing. -/
theorem Device.settle_unchanged {c : Ctx} {d : Device} (hk : d.NoWake c) (hc : d.fc.waitCommand = none) (hr : d.fc.waitReclaim = none)
    (hm : d.fc.waitMount = none) (he : ∀ e, d.fc.erase = some e → e.suspended = true → d.fc.op ≠ none) : d.settle c = d := by
  have hres : d.resumeErase = d := by
    cases hx : d.fc.erase with
    | none => exact Device.resumeErase_of_noErase d hx
    | some e =>
      cases hs : e.suspended with
      | true => exact Device.resumeErase_of_busy d (he e hx hs)
      | false => exact Device.resumeErase_running hx hs
  unfold Device.settle Device.arbitrate
  rw [Device.refuseWaiting_of_none c d hc hr hm, hk.reclaim, hk.command, Device.refuseWaiting_of_none c d hc hr hm, hres,
    Device.grantAll_of_none c 3 d (Device.decideSuspension_of_none c d (.inl hc)) (Device.nextGrant_of_none d hc hr hm)]
  exact ite_self d

/-- A controller whose operation has ended, with nothing else in progress or waiting, is free. -/
theorem FlashController.Alone.free {fc : FlashController} {who : Requester} {r : Request} (h : fc.Alone who r) :
    ({ fc with op := none } : FlashController).Free := ⟨rfl, h.erase, h.command, h.reclaim, h.mount, h.decided⟩

theorem FlashController.Free.grant_command {fc : FlashController} (h : fc.Free) (r : Request) :
    ({ fc with waitCommand := some r } : FlashController).grant .command r = fc.granted .command r := by
  obtain ⟨hop, herase, hcommand, hreclaim, hmount, hdecided⟩ := h
  cases fc
  cases r <;> simp_all [FlashController.grant, FlashController.granted, FlashController.unwait, FlashController.fairnessAfter]

theorem FlashController.Free.grant_reclaim {fc : FlashController} (h : fc.Free) (r : Request) :
    ({ fc with waitReclaim := some r } : FlashController).grant .reclaim r = fc.granted .reclaim r := by
  obtain ⟨hop, herase, hcommand, hreclaim, hmount, hdecided⟩ := h
  cases fc
  cases r <;> simp_all [FlashController.grant, FlashController.granted, FlashController.unwait, FlashController.fairnessAfter]

/-- The Command Engine's request at a free controller is granted in the same step. -/
theorem Device.settle_granted_command {c : Ctx} {d : Device} {fc : FlashController} {r : Request} (hw : c.warning = false)
    (hk : d.NoWake c) (hx : ∀ x, d.ex = some x → x.format = none) (hfree : fc.Free) (hfc : d.fc = { fc with waitCommand := some r }) :
    d.settle c = { d with fc := fc.granted .command r } := by
  have hone : d.fc.OneCommand r := by
    rw [hfc]
    exact ⟨hfree.op, hfree.erase, rfl, hfree.reclaim, hfree.mount⟩
  rw [Device.settle_oneCommand c d r hw hk hone, Device.grantRequest_noFormat _ _ hx, hfc, hfree.grant_command]

/-- The Reclaim Engine's request at a free controller is granted in the same step. -/
theorem Device.settle_granted_reclaim {c : Ctx} {d : Device} {fc : FlashController} {r : Request} (hw : c.warning = false)
    (hk : d.NoWake c) (hfree : fc.Free) (hfc : d.fc = { fc with waitReclaim := some r }) :
    d.settle c = { d with fc := fc.granted .reclaim r } := by
  have hone : d.fc.OneReclaim r := by
    rw [hfc]
    exact ⟨hfree.op, hfree.erase, hfree.command, rfl, hfree.mount⟩
  rw [Device.settle_oneReclaim c d r hw hk hone, ← hfree.grant_reclaim, ← hfc]
  rfl

/-! ## No ACTIVE bank holds the span (R104, R141) -/

theorem Device.fitting_of_fitsNowhere {d : Device} {span : Nat} (h : d.fitsNowhere span) : d.fitting span = none := by
  unfold Device.fitting
  rw [Option.filter_eq_none_iff]
  intro b hb
  have : 128 < 3 + (d.bank b).used + span := h b hb
  exact fun hle => absurd (of_decide_eq_true hle) (Nat.not_le.mpr this)

theorem Device.fitsNowhere_of_noActive {d : Device} (span : Nat) (h : ∀ b, (d.bank b).state ≠ .active) : d.fitsNowhere span :=
  fun b hb => absurd (Device.activeBank_state hb) (h b)

/-- Case 2 of R104: an open is in progress. -/
theorem Device.commandPlace_waitsOpen {c : Ctx} {d : Device} {w : Writer} (hw : c.warning = false) (hq : d.nextSeq ≤ 0xFFFFFF00)
    (hf : d.fitsNowhere w.record.span) (hm : d.openMark ≠ none) :
    d.commandPlace c w = d.setStage (.writing { w with stage := .waitOpen }) := by
  have hs : d.sequenceLeft = true := decide_eq_true hq
  unfold Device.commandPlace
  rw [if_neg (by simp [hw]), if_neg (by simp [hs]), Device.fitting_of_fitsNowhere hf]
  exact if_pos (Option.isSome_iff_ne_none.mpr hm)

/-- Case 3 of R104: the bank that the Command Engine opens. -/
theorem Device.commandPlace_toOpen {c : Ctx} {d : Device} {w : Writer} {b : BankId} (hw : c.warning = false)
    (hq : d.nextSeq ≤ 0xFFFFFF00) (hf : d.fitsNowhere w.record.span) (hm : d.openMark = none) (hn : 2 ≤ d.freeCount)
    (hb : d.freeToOpen = some b) : d.commandPlace c w = d.commandOpen w b := by
  have hs : d.sequenceLeft = true := decide_eq_true hq
  have hn : Config.commandReserve ≤ d.freeCount := hn
  unfold Device.commandPlace
  rw [if_neg (by simp [hw]), if_neg (by simp [hs]), Device.fitting_of_fitsNowhere hf]
  dsimp only
  rw [if_neg (by simp [hm]), if_pos hn, hb]

/-- The open of case 3: the mark set, the epoch taken, the open line requested (R101, R102). -/
theorem Device.commandPlace_opens {c : Ctx} {d : Device} {x : Executing} {w : Writer} {b : BankId} (hx : d.ex = some x)
    (hw : c.warning = false) (hq : d.nextSeq ≤ 0xFFFFFF00) (hf : d.fitsNowhere w.record.span) (hm : d.openMark = none)
    (hn : 2 ≤ d.freeCount) (hb : d.freeToOpen = some b) (he : d.nextEpoch ≤ 0xFFFFFF00) :
    d.commandPlace c w =
      { d with
        openMark := some (b, .command)
        nextEpoch := d.nextEpoch + 1
        ex := some { x with stage := .writing { w with stage := .opening b d.nextEpoch } }
        fc := { d.fc with waitCommand := some (.program b 1 (.openLine d.nextEpoch 0)) } } := by
  have hl : d.epochLeft = true := decide_eq_true he
  rw [Device.commandPlace_toOpen hw hq hf hm hn hb, Device.commandOpen, if_pos hl]
  unfold Device.setStage Device.beginOpen Device.request
  simp only [hx, Option.map_some]
  rfl

/-- Case 4 of R104 in a READY store. -/
theorem Device.commandPlace_waitsSpace {c : Ctx} {d : Device} {w : Writer} (hw : c.warning = false) (hq : d.nextSeq ≤ 0xFFFFFF00)
    (hf : d.fitsNowhere w.record.span) (hm : d.openMark = none) (hn : d.freeCount < 2) (hp : d.formatProgress = none)
    (hs : d.store = .ready) : d.commandPlace c w = d.setStage (.writing { w with stage := .waitSpace }) := by
  have hq : d.sequenceLeft = true := decide_eq_true hq
  have hn : ¬Config.commandReserve ≤ d.freeCount := Nat.not_le.mpr hn
  unfold Device.commandPlace
  rw [if_neg (by simp [hw]), if_neg (by simp [hq]), Device.fitting_of_fitsNowhere hf]
  dsimp only
  rw [if_neg (by simp [hm]), if_neg hn]
  simp [Device.commandWaits, hp, hs]

end Sys2Proof.Machine
end

section
/-! A taken command whose record fits no ACTIVE bank, or whose sequence or epoch is not there (R34, R35, R78, R101, R102, R104). -/
namespace Sys2Proof.Machine
open Sys2Proof

/-! ## The waits that the end of a step does not end (R104, R105) -/

theorem Device.wakeCommand_waitsOpen {d : Device} {x : Executing} {w : Writer} (c : Ctx) (hx : d.ex = some x) (hs : x.stage = .writing w)
    (hw : w.stage = .waitOpen) (hm : d.openMark ≠ none) : d.wakeCommand c = d := by
  unfold Device.wakeCommand
  simp only [hx, hs, hw]
  exact if_neg (by simpa using hm)

theorem Device.wakeCommand_waitsSpace {d : Device} {x : Executing} {w : Writer} (c : Ctx) (hx : d.ex = some x) (hs : x.stage = .writing w)
    (hw : w.stage = .waitSpace) (hp : d.placeable w.record.span = false) : d.wakeCommand c = d := by
  unfold Device.wakeCommand
  simp only [hx, hs, hw]
  exact if_neg (by simp [hp])

/-- No space can be made by cases 1 and 3 of R104. -/
theorem Device.placeable_fitsNowhere {d : Device} {span : Nat} (hf : d.fitsNowhere span) (hn : d.freeCount < 2) :
    d.placeable span = false := by
  have : ¬Config.commandReserve ≤ d.freeCount := Nat.not_le.mpr hn
  simp [Device.placeable, Device.fitting_of_fitsNowhere hf, this]

/-! ## A counter exhausted (R34, R35, R110, R149) -/

/-- A device whose store has become DEGRADED with a cause. -/
def Device.withCause (d : Device) (c : Cause) : Device :=
  { d with store := .degraded, causes := d.causes.add c, flags := { d.flags with degraded := true } }

/-- A cause arises in a READY store in which no command waits for space. -/
theorem Device.degrade_ready {d : Device} (c : Cause) (hs : d.store = .ready) (hp : d.commandPhase ≠ .waitingSpace) :
    d.degrade c = d.withCause c := by
  unfold Device.degrade
  dsimp only
  rw [if_pos hs]
  exact if_neg hp

theorem Device.commandFails_noFormat {d : Device} (status : Status) (h : d.formatProgress = none) :
    d.commandFails status = d.endCommand status 0 := by
  unfold Device.commandFails
  rw [if_neg (by simp [h])]

/-- The end of a group is the loss of its members' lines, and the context removed (R118). -/
theorem Device.endGroup_eq {d : Device} {g : GroupContext} (hg : d.group = some g) :
    d.endGroup =
      { d with
        banks := (g.members.foldl Device.orphanMember d).banks, group := none, reclaim := { d.reclaim with moved := [] } } := by
  have horphan (d : Device) (m : MemberEntry) : d.orphanMember m = { d with banks := (d.orphanMember m).banks } := by
    unfold Device.orphanMember
    split <;> rfl
  have hfold (l : List MemberEntry) (d : Device) :
      l.foldl Device.orphanMember d = { d with banks := (l.foldl Device.orphanMember d).banks } := by
    induction l generalizing d with
    | nil => rfl
    | cons m l ih =>
      rw [List.foldl_cons, ih, horphan d m]
  unfold Device.endGroup
  rw [hg]
  dsimp only
  rw [hfold]

/-- What the members' lines do to the Bank Table depends on the Bank Table alone. -/
theorem Device.orphans_banks (l : List MemberEntry) {d e : Device} (h : d.banks = e.banks) :
    (l.foldl Device.orphanMember d).banks = (l.foldl Device.orphanMember e).banks := by
  induction l generalizing d e with
  | nil => exact h
  | cons m l ih =>
    refine ih ?_
    unfold Device.orphanMember
    split
    · exact h
    · simp only [Device.addDead, Device.setBank, Device.bank, h]
    · exact h

/-- With the Command Engine IDLE the end of a group waits for no member. -/
theorem Device.memberEnded_of_groupLaw {d e : Device} (hg : d.groupLaw) (hx : d.ex = none) (he : e.group = d.group) :
    e.memberEnded = e := by
  unfold Device.memberEnded
  split
  · rfl
  · rename_i g hgroup
    have hlaw := hg g (he ▸ hgroup)
    rw [hx] at hlaw
    have hs : g.state = .opened := by
      cases hs : g.state with
      | opened => rfl
      | committing => exact absurd (hlaw.1 hs) (by simp)
    have hends : ¬(g.endsWithMember = true ∨ g.deadline = some 0) := fun h => absurd (hlaw.2 hs h) (by simp)
    rw [if_neg fun h => hends (.inl h), if_neg fun h => hends (.inr h)]

/-- The head command, no COMMIT_GROUP, ends in the step in which it was taken. -/
theorem State.headTaken_ends {s : State} {p : Posted} (rest : List Posted) (status : Status) (result : Nat) (hx : s.dev.ex = none)
    (hg : s.dev.groupLaw) (hc : p.code ≠ .commitGroup) :
    (s.headTaken p rest).endCommand status result = s.dev.headEnded p rest status result := by
  have hidle : ({ s.headTaken p rest with ex := none } : Device) = { s.dev with queue := rest } := by
    rw [State.headTaken, Device.groupTaken_other _ hc, ← hx]
  have hmember : (if (s.headExecuting p).member then ({ s.dev with queue := rest } : Device).memberEnded
      else { s.dev with queue := rest }) =
      ({ s.dev with queue := rest } : Device) := by
    rw [Device.memberEnded_of_groupLaw (e := { s.dev with queue := rest }) hg hx rfl]
    exact ite_self _
  have hcommit : Device.commitEnded { s.dev with queue := rest } (s.headExecuting p) = { s.dev with queue := rest } := by
    unfold Device.commitEnded
    split
    · exact if_neg fun h => hc h.1
    · rfl
  have hend : (s.headTaken p rest).endCommand status result =
      ((if (s.headExecuting p).member then (Device.commitEnded { s.headTaken p rest with ex := none } (s.headExecuting p)).memberEnded
        else Device.commitEnded { s.headTaken p rest with ex := none } (s.headExecuting p)).releaseBuffer p.code
          p.desc.buffer).placeCompletion p.desc.tag status result := rfl
  rw [hend, hidle, hcommit, hmember]
  rfl

/-- A COMMIT_GROUP ends in the step in which it was taken, its group without commit (R117). -/
theorem State.headTaken_aborts {s : State} {p : Posted} (rest : List Posted) (status : Status) (result : Nat) {g : GroupContext}
    (hx : s.dev.ex = none) (hg : s.dev.group = some g) (hc : p.code = .commitGroup) :
    (s.headTaken p rest).endCommand status result = s.dev.endGroup.headEnded p rest status result := by
  have hgroup : ({ s.headTaken p rest with ex := none } : Device).group = some { g with state := .committing, deadline := none } := by
    show s.dev.groupTaken p = _
    rw [Device.groupTaken_commitGroup _ hc, hg]
    rfl
  have hmember : (s.headExecuting p).member = false := by
    show (p.code.joinsGroup && _) = false
    rw [hc]
    rfl
  have hcommit : Device.commitEnded { s.headTaken p rest with ex := none } (s.headExecuting p) =
      { s.dev.endGroup with queue := rest } := by
    unfold Device.commitEnded
    rw [hgroup]
    dsimp only
    rw [if_pos ⟨hc, rfl⟩, Device.endGroup_eq hgroup, Device.endGroup_eq hg]
    dsimp only
    rw [Device.orphans_banks g.members (d := { s.headTaken p rest with ex := none }) (e := s.dev) rfl]
    simp only [State.headTaken, hx]
  have hend : (s.headTaken p rest).endCommand status result =
      ((if (s.headExecuting p).member then (Device.commitEnded { s.headTaken p rest with ex := none } (s.headExecuting p)).memberEnded
        else Device.commitEnded { s.headTaken p rest with ex := none } (s.headExecuting p)).releaseBuffer p.code
          p.desc.buffer).placeCompletion p.desc.tag status result := by
    unfold Device.endCommand Device.commitEnded
    rfl
  rw [hend, hcommit, hmember]
  rfl

/-- The end of the head command reaches the queue, the buffer it named and the FIFO. -/
theorem Device.headEnded_frame (d : Device) (p : Posted) (rest : List Posted) (status : Status) (result : Nat) :
    ∃ fifo buffers, d.headEnded p rest status result = { d with queue := rest, fifo := fifo, buffers := buffers } := by
  obtain ⟨buffers, h⟩ := Device.releaseBuffer_frame { d with queue := rest } p.code p.desc.buffer
  exact ⟨_, buffers, by rw [Device.headEnded, h]; rfl⟩

/-- The end of the head command does not depend on the store being DEGRADED. -/
theorem Device.headEnded_degraded (d : Device) (p : Posted) (rest : List Posted) (status : Status) (result : Nat) (c : Cause) :
    (d.withCause c).headEnded p rest status result =
      { d.headEnded p rest status result with
        store := .degraded, causes := d.causes.add c, flags := { d.flags with degraded := true } } := by
  unfold Device.headEnded Device.releaseBuffer
  split
  · split <;> rfl
  · rfl

/-- The store becomes DEGRADED as the head command is taken, and the command ends with it. -/
theorem State.headTaken_degrades {s : State} {p : Posted} (rest : List Posted) (c : Cause) (hs : s.dev.store = .ready) :
    (s.headTaken p rest).degrade c = State.headTaken { s with dev := s.dev.withCause c } p rest := by
  have hphase : (s.headTaken p rest).commandPhase ≠ .waitingSpace := by
    show CommandPhase.executing ≠ _
    simp
  rw [Device.degrade_ready (d := s.headTaken p rest) c hs hphase]
  rfl

/-- A command that programs a record or takes a sequence changes the store (R74). -/
theorem Device.readOnlyRefused_of_record {d : Device} {p : Posted} (h : d.recordFor p ≠ none) : p.code.readOnlyRefused = true := by
  obtain ⟨code, q⟩ := p
  cases code
  case write | delete | add | openGroup | commitGroup | raiseLock => rfl
  case read | list | dropGroup | reclaim | format => exact absurd rfl h

theorem State.Turn.ready {s : State} {p : Posted} {rest : List Posted} (h : s.Turn p rest) (hc : p.code.readOnlyRefused = true) :
    s.dev.store = .ready := by
  rcases h.runs with hs | ⟨_, hr⟩ | ⟨_, hf⟩
  · exact hs
  · simp [hc] at hr
  · rw [hf] at hc
    cases hc

/-- OPEN_GROUP without a sequence left (R110). -/
theorem State.headTaken_openGroup {s : State} {p : Posted} (rest : List Posted) {c : Ctx} (hc : p.code = .openGroup)
    (hr : s.dev.refusalFor p = none) (hq : 0xFFFFFF00 < s.dev.nextSeq) :
    (s.headTaken p rest).makeStep c = ((s.headTaken p rest).degrade .sequence).endCommand .readOnly 0 := by
  obtain ⟨code, q⟩ := p
  subst hc
  have hchecks : firstRefusal ((s.headTaken ⟨.openGroup, q⟩ rest).openGroupChecks q) = none := by
    rw [← hr]
    show firstRefusal (s.dev.openGroupChecks q) = s.dev.openGroupRefusal q
    unfold Device.openGroupChecks Device.openGroupRefusal
    simp [firstRefusal]
    rfl
  have hs : (s.headTaken ⟨.openGroup, q⟩ rest).sequenceLeft = false := decide_eq_false (Nat.not_le.mpr hq)
  rw [Device.makeStep_taken c _ (x := s.headExecuting ⟨.openGroup, q⟩) rfl rfl]
  show Device.startOpenGroup c _ _ _ = _
  unfold Device.startOpenGroup
  dsimp only [State.headExecuting, Device.executing]
  rw [hchecks]
  exact if_pos (by simp [hs])

theorem Device.degrade_noFormat {d : Device} (c : Cause) (h : d.formatProgress = none) : (d.degrade c).formatProgress = none := by
  unfold Device.degrade
  dsimp only
  split
  · split
    · rw [Device.formatProgress, Device.endCommand_ex]
      rfl
    · exact h
  · exact h

/-- A record to be placed without a sequence left (R34). -/
theorem Device.commandPlace_noSequence {c : Ctx} {d : Device} (w : Writer) (hw : c.warning = false) (hq : 0xFFFFFF00 < d.nextSeq)
    (hf : d.formatProgress = none) : d.commandPlace c w = (d.degrade .sequence).endCommand .readOnly 0 := by
  have hs : d.sequenceLeft = false := decide_eq_false (Nat.not_le.mpr hq)
  unfold Device.commandPlace
  rw [if_neg (by simp [hw]), if_pos (by simp [hs])]
  exact Device.commandFails_noFormat _ (Device.degrade_noFormat _ hf)

/-- A bank to be opened without an epoch left (R35). -/
theorem Device.commandOpen_noEpoch {d : Device} (w : Writer) (b : BankId) (he : 0xFFFFFF00 < d.nextEpoch) (hm : d.openMark = none)
    (hf : d.formatProgress = none) : d.commandOpen w b = (d.degrade .epoch).endCommand .readOnly 0 := by
  have hl : d.epochLeft = false := decide_eq_false (Nat.not_le.mpr he)
  have hd : d.epochExhausted = d.degrade .epoch := by
    unfold Device.epochExhausted
    rw [← hm]
  unfold Device.commandOpen
  rw [if_neg (by simp [hl]), hd]
  exact Device.commandFails_noFormat _ (Device.degrade_noFormat _ hf)

/-- The head command, no COMMIT_GROUP, ends READ_ONLY as a cause makes the store DEGRADED. -/
theorem State.headTaken_endsDegraded {s : State} {p : Posted} (rest : List Posted) (c : Cause) (hs : s.dev.store = .ready)
    (hx : s.dev.ex = none) (hg : s.dev.groupLaw) (hc : p.code ≠ .commitGroup) :
    ((s.headTaken p rest).degrade c).endCommand .readOnly 0 =
      { s.dev.headEnded p rest .readOnly 0 with
        store := .degraded, causes := s.dev.causes.add c, flags := { s.dev.flags with degraded := true } } := by
  rw [State.headTaken_degrades rest c hs, State.headTaken_ends (s := { s with dev := s.dev.withCause c }) rest _ _ hx hg hc]
  exact s.dev.headEnded_degraded p rest _ _ c

/-- A COMMIT_GROUP ends READ_ONLY as a cause makes the store DEGRADED, its group without commit. -/
theorem State.headTaken_abortsDegraded {s : State} {p : Posted} (rest : List Posted) (c : Cause) {g : GroupContext}
    (hs : s.dev.store = .ready) (hx : s.dev.ex = none) (hg : s.dev.group = some g) (hc : p.code = .commitGroup) :
    ((s.headTaken p rest).degrade c).endCommand .readOnly 0 =
      { s.dev.endGroup.headEnded p rest .readOnly 0 with
        store := .degraded, causes := s.dev.causes.add c, flags := { s.dev.flags with degraded := true } } := by
  have hend : (s.dev.withCause c).endGroup = s.dev.endGroup.withCause c := by
    rw [Device.endGroup_eq hg, Device.endGroup_eq (d := s.dev.withCause c) hg,
      Device.orphans_banks g.members (d := s.dev.withCause c) (e := s.dev) rfl]
    rfl
  have hsame : s.dev.endGroup.causes = s.dev.causes ∧ s.dev.endGroup.flags = s.dev.flags := by
    rw [Device.endGroup_eq hg]
    exact ⟨rfl, rfl⟩
  rw [State.headTaken_degrades rest c hs, State.headTaken_aborts (s := { s with dev := s.dev.withCause c }) rest _ _ hx hg hc]
  show (s.dev.withCause c).endGroup.headEnded p rest _ _ = _
  rw [hend, Device.headEnded_degraded, hsame.1, hsame.2]

/-- The end of the head command leaves a device at rest as it was. -/
theorem Device.AtRest.ended {d e : Device} (h : d.AtRest) (hx : e.ex = none) (hfc : e.fc = d.fc)
    (hj : e.reclaim.job = d.reclaim.job) : e.AtRest := by
  obtain ⟨hc, hr, hm, _, hw, he⟩ := h
  rw [← hfc] at hc hr hm he
  rw [← hj] at hw
  exact ⟨hc, hr, hm, fun x hy => (Option.some_ne_none x (hy.symm.trans hx)).elim, hw, he⟩

/-! ## The step of the head command (R74, R104) -/

/-- TAKE_COMMAND of a record: its placement, then the end of the step. -/
theorem State.Turn.exec_places {s : State} {p : Posted} {rest : List Posted} {record : RecordSpec} {d e : Device} (h : s.Turn p rest)
    (hr : s.dev.refusalFor p = none) (hrec : s.dev.recordFor p = some record)
    (he : (s.headTaken p rest).commandPlace { cfg := s.cfg, warning := false } (Writer.fresh record) = e)
    (hd : e.settle { cfg := s.cfg, warning := false } = d) :
    exec .takeCommand s = .next { s with dev := d } := by
  rw [h.exec_takeCommand, State.headTaken_places rest _ hr hrec, he, hd]

/-- TAKE_COMMAND of a command that ends READ_ONLY as a cause makes the store DEGRADED. -/
theorem State.Turn.exec_endsDegraded {s : State} {p : Posted} {rest : List Posted} (c : Cause) (h : s.Turn p rest)
    (hrest : s.dev.AtRest) (hc : p.code ≠ .commitGroup) (hs : s.dev.store = .ready)
    (he : (s.headTaken p rest).makeStep { cfg := s.cfg, warning := false } =
      ((s.headTaken p rest).degrade c).endCommand .readOnly 0) :
    exec .takeCommand s =
      .next { s with
        dev := { s.dev.headEnded p rest .readOnly 0 with
          store := .degraded, causes := s.dev.causes.add c, flags := { s.dev.flags with degraded := true } } } := by
  obtain ⟨fifo, buffers, hend⟩ := s.dev.headEnded_frame p rest .readOnly 0
  rw [h.exec_takeCommand, he, State.headTaken_endsDegraded rest c hs h.idle h.groups hc, Device.settle_atRest]
  refine hrest.ended ?_ ?_ ?_
  all_goals rw [hend]
  exact h.idle

/-- The step of a record that is placed without a sequence left. -/
theorem State.headTaken_noSequence {s : State} {p : Posted} (rest : List Posted) (hr : s.dev.refusalFor p = none)
    (hrec : s.dev.recordFor p ≠ none) (hq : 0xFFFFFF00 < s.dev.nextSeq) :
    (s.headTaken p rest).makeStep { cfg := s.cfg, warning := false } =
      ((s.headTaken p rest).degrade .sequence).endCommand .readOnly 0 := by
  obtain ⟨record, hrec⟩ := Option.ne_none_iff_exists'.mp hrec
  rw [State.headTaken_places rest _ hr hrec]
  exact Device.commandPlace_noSequence _ rfl hq rfl

/-- Settles O18: R104 case by case, and the counters' limits. -/
theorem commandOpensOrWaits : Obligations.CommandOpensOrWaits := by
  refine ⟨⟨fun s p rest record ht hr hrec hf hq =>
      ⟨fun hm hrest => ?waitsOpen, fun b hfree hm hn hb he => ?opens, fun hrest hm hn => ⟨_, rfl, ?waitsSpace, rfl, rfl⟩⟩,
    Device.freeToOpen_eq_some⟩,
    fun s p rest ht hrest hr => ⟨fun hq hp => ?sequence, fun hq hp => ?aborts, fun record hrec hc hf hm hn hq he => ?epoch⟩⟩
  case waitsOpen =>
    refine ht.exec_places hr hrec (Device.commandPlace_waitsOpen rfl hq hf hm) ?_
    refine Device.settle_unchanged ⟨Device.wakeReclaim_of_noWait _ _ ht.writer, ?_⟩ hrest.command hrest.reclaim hrest.mount hrest.erase
    exact Device.wakeCommand_waitsOpen _ rfl rfl rfl hm
  case opens =>
    refine ht.exec_places hr hrec (Device.commandPlace_opens rfl rfl hq hf hm hn hb he) ?_
    refine Device.settle_granted_command rfl (Device.noWake_of_steady _ ⟨?_, ht.writer⟩) ?_ hfree rfl
    all_goals
      intro x hx
      cases hx
      rfl
  case waitsSpace =>
    have hs := ht.ready (Device.readOnlyRefused_of_record (Option.ne_none_iff_exists'.mpr ⟨record, hrec⟩))
    refine ht.exec_places hr hrec (Device.commandPlace_waitsSpace rfl hq hf hm hn rfl hs) ?_
    refine Device.settle_unchanged ⟨Device.wakeReclaim_of_noWait _ _ ht.writer, ?_⟩ hrest.command hrest.reclaim hrest.mount hrest.erase
    exact Device.wakeCommand_waitsSpace _ rfl rfl rfl (Device.placeable_fitsNowhere hf hn)
  case sequence =>
    rcases hp with hp | ⟨hc, hrec⟩
    · exact ht.exec_endsDegraded .sequence hrest (by simp [hp]) (ht.ready (by rw [hp]; rfl)) (State.headTaken_openGroup rest hp hr hq)
    · exact ht.exec_endsDegraded .sequence hrest hc (ht.ready (Device.readOnlyRefused_of_record hrec))
        (State.headTaken_noSequence rest hr hrec hq)
  case aborts =>
    obtain ⟨hc, hrec⟩ := hp
    obtain ⟨g, hg⟩ : ∃ g, s.dev.group = some g := by
      refine Option.ne_none_iff_exists'.mp fun hg => hrec ?_
      simp [Device.recordFor, hc, hg]
    have hs := ht.ready (Device.readOnlyRefused_of_record hrec)
    obtain ⟨fifo, buffers, hend⟩ := s.dev.endGroup.headEnded_frame p rest .readOnly 0
    rw [ht.exec_takeCommand, State.headTaken_noSequence rest hr hrec hq,
      State.headTaken_abortsDegraded rest _ hs ht.idle hg hc, Device.settle_atRest]
    · rfl
    · refine hrest.ended ?_ ?_ ?_
      all_goals rw [hend, Device.endGroup_eq hg]
      exact ht.idle
  case epoch =>
    have hs := ht.ready (Device.readOnlyRefused_of_record (Option.ne_none_iff_exists'.mpr ⟨record, hrec⟩))
    obtain ⟨b, hb⟩ : ∃ b, s.dev.freeToOpen = some b := by
      refine Option.ne_none_iff_exists'.mp fun hb => ?_
      rw [Device.freeCount, pick_eq_none.mp hb] at hn
      simp at hn
    refine ht.exec_endsDegraded .epoch hrest hc hs ?_
    rw [State.headTaken_places rest _ hr hrec]
    exact (Device.commandPlace_toOpen (d := s.headTaken p rest) (w := Writer.fresh record) rfl hq hf hm hn hb).trans
      (Device.commandOpen_noEpoch _ _ he hm rfl)

end Sys2Proof.Machine
end

section
/-! The lines of a record as they are requested (R22, R27, R28, R99). -/
namespace Sys2Proof.Machine
open Sys2Proof

theorem State.Programming.inProgress {s : State} {x : Executing} {w : Writer} {r : Reservation} (h : s.Programming x w r) :
    s.LineInProgress x w r :=
  ⟨h.command, h.noFormat, h.stage, h.reserved, h.alone.op, h.erased, h.writer⟩

/-- A payload line holds the next sixteen bytes of the payload, padded with 0x00 (R27). -/
theorem RecordSpec.line_inner (record : RecordSpec) (seq : Nat) {i : Nat} (h0 : 0 < i) (hi : i + 1 < record.span) :
    record.line seq i = .raw (lineOf (record.payload.drop (16 * (i - 1)))) := by
  unfold RecordSpec.line
  rw [if_neg (by omega), if_pos hi]
  rfl

/-- A payload line is passed over exactly when it would read erased (R27). -/
theorem RecordSpec.skips_iff_erased (record : RecordSpec) (seq : Nat) {i : Nat} (h0 : 0 < i) (hi : i + 1 < record.span) :
    record.skips i = true ↔ record.line seq i = Line.erased := by
  rw [record.line_inner seq h0 hi]
  simp only [RecordSpec.skips, h0, hi, Line.erased, payloadLine, decide_true, Bool.true_and, Line.raw.injEq]
  exact decide_eq_true_iff

/-- The commit line is never passed over. -/
theorem RecordSpec.skips_last (record : RecordSpec) : record.skips (record.span - 1) = false := by
  have := record.two_le_span
  have : ¬record.span - 1 + 1 < record.span := by omega
  simp [RecordSpec.skips, this]

/-- Settles O28: the lines passed over lead to the next request, which the free controller grants. -/
theorem nextLineRequested : Obligations.NextLineRequested := by
  refine ⟨fun s x w r n h hw hn hs hk hl => ?next,
    fun record q i h0 hi => ⟨record.line_inner q h0 hi, record.skips_iff_erased q h0 hi⟩,
    fun record q => ⟨record.line_last q, record.skips_last⟩⟩
  have hnext := h.inProgress.next hn hs hk hl
  rw [h.inProgress.exec_asIntended, hnext, Device.settle_granted_command (fc := { s.dev.fc with op := none }) hw ?_ ?_ h.alone.free rfl]
  · rfl
  · refine Device.noWake_of_steady _ ⟨fun y hy => ?_, h.writer⟩
    cases hy
    rfl
  · intro y hy
    cases hy
    exact h.noFormat

end Sys2Proof.Machine
end

section
/-! A line program that faults or is refused, and the outcome of an open line (R38, R39, R59, R62, R103, R106 to R108, R141, R145, R146,
R182, R183): what becomes of the bank, of the record, and of the command or the copy. -/
namespace Sys2Proof.Machine
open Sys2Proof

/-! ## The outcome of a line program -/

/-- A line program onto an erased line ends: the line as it reads, and the requester's act up to the end of the step. -/
theorem exec_lineProgram_ends {s : State} {who : Requester} {b : BankId} {line : Nat} {data read : Line} {result : LineRead}
    {o : ProgramOutcome} {d e : Device} (hop : s.dev.fc.op = some (who, .program b line data)) (herased : s.flash.line b line = Line.erased)
    (hread : readsAs data result = read) (ho : programOutcome Line.erased data result = o)
    (he : s.dev.opDone.programmed s.ctx who o = e) (hd : e.settle s.ctx = d) :
    exec (.lineProgramOutcome result) s = .next { s with flash := s.flash.setLine b line read, dev := d } := by
  rw [exec_lineProgramOutcome result hop, herased, programReads_erased, hread, ho]
  refine congrArg _ (State.engines_eq _ _ ?_)
  show (s.dev.opDone.programmed s.ctx who o).settle s.ctx = d
  rw [he, hd]

theorem programOutcome_fault {data read : Line} {result : LineRead} (hread : readsAs data result = read) (hne : read ≠ data) :
    programOutcome Line.erased data result = .fault read false := by
  simp [programOutcome, programReads, hread, hne]

/-- A record's line that faults: it reads as other bytes, or its commit line with a check that does not agree. -/
theorem RecordSpec.line_faults {record : RecordSpec} {seq i : Nat} {result : LineRead} {read : Line}
    (h : (∃ bytes, result = .other bytes ∧ read = .raw bytes ∧ record.line seq i ≠ .raw bytes) ∨
      (∃ bytes, result = .checkWrong bytes ∧ i + 1 = record.span ∧ read = .commitLine seq .disagrees 0)) :
    readsAs (record.line seq i) result = read ∧ read ≠ record.line seq i ∧ commitLineValid record seq read = false := by
  rcases h with ⟨bytes, rfl, rfl, hne⟩ | ⟨bytes, rfl, hi, rfl⟩
  · exact ⟨rfl, hne.symm, rfl⟩
  · have hline : record.line seq i = .commitLine seq (.over record.payload) 0 := by
      rw [← record.line_last seq, ← hi, Nat.add_sub_cancel]
    rw [hline]
    exact ⟨rfl, by simp, by simp [commitLineValid, checkAgrees]⟩

theorem lineVerdict_fault {w : Writer} {r : Reservation} {read : Line} (h : commitLineValid w.record r.seq read = false) :
    lineVerdict w r (.fault read false) = .fault := by
  simp [lineVerdict, h]

/-! ## The bank of a span that is given up (R59, R106) -/

theorem Device.bank_addDead (d : Device) (b c : BankId) (n : Nat) :
    (d.addDead b n).bank c = if c = b then { d.bank b with dead := (d.bank b).dead + n } else d.bank c :=
  d.bank_setBank b c _

/-- A bank with a faulted line is suspect, and FULL with its tail dead if it was ACTIVE. -/
theorem Device.bank_faultBank (d : Device) (b c : BankId) :
    (d.faultBank b).bank c =
      if c = b then
        { d.bank b with
          suspect := true
          state := if (d.bank b).state = .active then .full else (d.bank b).state
          dead := (d.bank b).dead + if (d.bank b).state = .active then 125 - (d.bank b).used else 0 }
      else d.bank c := by
  unfold Device.faultBank Device.fillActive Device.markSuspect
  rw [Device.bank_setBank_same]
  by_cases ha : (d.bank b).state = .active <;> by_cases hc : c = b
  all_goals simp [ha, hc, Device.bank_setBank, Config.journalLines]

theorem Device.faultBank_frame (d : Device) (b : BankId) : d.faultBank b = { d with banks := (d.faultBank b).banks } := by
  unfold Device.faultBank Device.fillActive
  split <;> rfl

/-- `e` is `d` once an operation has ended with the span of `w` in bank `b` dead, and the bank suspect and no more ACTIVE (R59, R106). -/
structure Device.LosesSpan (d e : Device) (w : Writer) (b : BankId) : Prop where
  bank : e.bank b =
    { d.bank b with
      suspect := true
      state := if (d.bank b).state = .active then .full else (d.bank b).state
      dead := (d.bank b).dead + w.record.span + if (d.bank b).state = .active then 125 - (d.bank b).used else 0 }
  other : ∀ c, c ≠ b → e.bank c = d.bank c
  frame : e = { d with banks := e.banks, fc := { d.fc with op := none } }

theorem Device.LosesSpan.eq {d e : Device} {w : Writer} {r : Reservation} (h : d.LosesSpan e w r.bank) :
    (d.opDone.abandonSpan w r).faultBank r.bank = e := by
  have hbanks : ((d.opDone.abandonSpan w r).faultBank r.bank).banks = e.banks := by
    refine Device.banks_ext fun b => ?_
    rw [Device.bank_faultBank, Device.abandonSpan, Device.bank_addDead, Device.bank_addDead, if_pos rfl]
    by_cases hb : b = r.bank
    · rw [if_pos hb, hb, h.bank]
      rfl
    · rw [if_neg hb, if_neg hb, h.other b hb]
      rfl
  rw [Device.faultBank_frame, hbanks, h.frame]
  rfl

theorem Device.LosesSpan.free_iff {d e : Device} {w : Writer} {b : BankId} (h : d.LosesSpan e w b) (c : BankId) :
    (e.bank c).state = .free ↔ (d.bank c).state = .free := by
  by_cases hc : c = b
  · rw [hc, h.bank]
    by_cases ha : (d.bank b).state = .active <;> simp [ha]
  · rw [h.other c hc]

theorem Device.LosesSpan.freeToOpen {d e : Device} {w : Writer} {b : BankId} (h : d.LosesSpan e w b) : e.freeToOpen = d.freeToOpen := by
  refine Device.freeToOpen_congr h.free_iff fun c => ?_
  by_cases hc : c = b
  · rw [hc, h.bank]
    rfl
  · rw [h.other c hc]

theorem Device.LosesSpan.freeCount {d e : Device} {w : Writer} {b : BankId} (h : d.LosesSpan e w b) : e.freeCount = d.freeCount :=
  Device.freeCount_congr h.free_iff

/-- With its bank the ACTIVE one, if any, no span fits any more. -/
theorem Device.LosesSpan.fitsNowhere {d e : Device} {w : Writer} {b : BankId} (h : d.LosesSpan e w b)
    (ha : ∀ c, (d.bank c).state = .active → c = b) (span : Nat) : e.fitsNowhere span := by
  refine Device.fitsNowhere_of_noActive span fun c hc => ?_
  by_cases hcb : c = b
  · rw [hcb, h.bank] at hc
    by_cases hb : (d.bank b).state = .active <;> simp [hb] at hc
  · rw [h.other c hcb] at hc
    exact hcb (ha c hc)

/-! ## The command's fault (R106, R107, R183) -/

theorem Device.programmed_line {c : Ctx} {d : Device} {x : Executing} {w : Writer} {r : Reservation} {o : ProgramOutcome}
    (hx : d.ex = some x) (hs : x.stage = .writing w) (hr : w.stage = .programming r) :
    d.programmed c .command o = d.commandLine c x w r o := by
  unfold Device.programmed Device.commandProgrammed
  simp only [hx, hs, hr]

theorem Device.programmed_open {c : Ctx} {d : Device} {x : Executing} {w : Writer} {b : BankId} {epoch : Nat} {o : ProgramOutcome}
    (hx : d.ex = some x) (hs : x.stage = .writing w) (hw : w.stage = .opening b epoch) :
    d.programmed c .command o = d.commandOpened c x w b epoch o := by
  unfold Device.programmed Device.commandProgrammed
  simp only [hx, hs, hw]

theorem Device.formatProgress_of {d : Device} {x : Executing} (hx : d.ex = some x) (hf : x.format = none) : d.formatProgress = none := by
  rw [Device.formatProgress, hx]
  exact hf

/-- The fault of a line of the command's record. -/
theorem Device.commandLine_fault {c : Ctx} {d : Device} {x : Executing} {w : Writer} {r : Reservation} {read : Line}
    (hf : d.formatProgress = none) (hv : commitLineValid w.record r.seq read = false) :
    d.commandLine c x w r (.fault read false) = ((d.abandonSpan w r).faultBank r.bank).commandFault c w := by
  unfold Device.commandLine
  rw [if_neg (by simp [hf]), lineVerdict_fault hv]

theorem Device.commandPowerEnd_noFormat {d : Device} (h : d.formatProgress = none) :
    d.commandPowerEnd = d.endCommand .powerAbort 0 := by
  unfold Device.commandPowerEnd
  exact if_neg (by simp [h])

/-- The second fault, and any fault under WARNING, ends the command. -/
theorem Device.commandFault_ends {c : Ctx} {d : Device} {x : Executing} {w : Writer} (hx : d.ex = some x) (hf : x.format = none)
    (hc : x.code ≠ .commitGroup) (hm : x.member = false) (h : w.faulted = true ∨ c.warning = true) :
    d.commandFault c w = d.executingEnded x (if c.warning = true then .powerAbort else .flashFault) 0 := by
  have hp := Device.formatProgress_of hx hf
  unfold Device.commandFault
  by_cases hw : c.warning = true
  · rw [if_pos hw, if_pos hw, Device.commandPowerEnd_noFormat hp, Device.endCommand_eq _ _ hx hc hm]
  · rw [if_neg hw, if_neg hw, if_pos (h.resolve_right hw), Device.commandFails_noFormat _ hp, Device.endCommand_eq _ _ hx hc hm]

/-- After its first fault in NORMAL the record is placed again. -/
theorem Device.commandFault_again {c : Ctx} {d : Device} {w : Writer} (hw : c.warning = false) (hf : w.faulted = false) :
    d.commandFault c w = d.commandPlace c { w with faulted := true } := by
  unfold Device.commandFault
  rw [if_neg (by simp [hw]), if_neg (by simp [hf])]

/-! ## The next request refused (R16, R38, R182) -/

/-- Under WARNING a command's request is refused at the end of the step, and what the engine makes of that is the end of it. -/
theorem Device.settle_refused {c : Ctx} {d e : Device} (hw : c.warning = true) (hc : d.fc.waitCommand.isSome = true)
    (he : ({ d with fc := d.fc.unwait .command } : Device).commandRefused = e) (hrest : e.AtRest) : d.settle c = e := by
  have hrefuse : d.refuseWaiting c = e := by
    have hcommand : d.refuseCommand = e := by
      rw [Device.refuseCommand, if_pos hc, he]
    have hreclaim : e.refuseReclaim = e := if_neg (by simp [hrest.reclaim])
    have hmount : e.refuseMount = e := if_neg (by simp [hrest.mount])
    rw [Device.refuseWaiting_eq d hw, hcommand, hreclaim, hmount]
  have hsettle := Device.settle_atRest c e hrest
  rw [Device.settle, Device.refuseWaiting_of_none c e hrest.command hrest.reclaim hrest.mount] at hsettle
  rw [Device.settle, hrefuse, hsettle]

/-- A reserved span whose next request is refused is dead, and its command ends. -/
theorem Device.commandRefused_line {d : Device} {x : Executing} {w : Writer} {r : Reservation} (hx : d.ex = some x)
    (hs : x.stage = .writing w) (hr : w.stage = .programming r) (hf : x.format = none) (hc : x.code ≠ .commitGroup)
    (hm : x.member = false) : d.commandRefused = (d.abandonSpan w r).executingEnded x .powerAbort 0 := by
  unfold Device.commandRefused
  simp only [hx, hs, hr]
  have hx' : (d.abandonSpan w r).ex = some x := hx
  rw [Device.commandPowerEnd_noFormat (Device.formatProgress_of hx' hf), Device.endCommand_eq _ _ hx' hc hm]

/-! ## The Reclaim Engine's fault (R145, R146) -/

theorem Device.programmed_copyLine {c : Ctx} {d : Device} {j : CopyJob} {r : Reservation} {o : ProgramOutcome}
    (hj : d.reclaim.job = .copy j) (hr : j.writer.stage = .programming r) :
    d.programmed c .reclaim o = d.reclaimLine c j.writer r o := by
  unfold Device.programmed Device.reclaimProgrammed
  simp only [hj, ReclaimJob.writer, hr]

theorem Device.programmed_copyOpen {c : Ctx} {d : Device} {j : CopyJob} {b : BankId} {epoch : Nat} {o : ProgramOutcome}
    (hj : d.reclaim.job = .copy j) (hr : j.writer.stage = .opening b epoch) :
    d.programmed c .reclaim o = d.reclaimOpened c j.writer b epoch o := by
  unfold Device.programmed Device.reclaimProgrammed
  simp only [hj, ReclaimJob.writer, hr]

/-- No command in a steady stage waits for space. -/
theorem Device.Steady.phase {d : Device} (h : d.Steady) : d.commandPhase ≠ .waitingSpace := by
  refine Device.Unwaiting.phase fun x hx => ?_
  have hs := h.command x hx
  refine ⟨fun w hw hws => ?_, fun hr => ?_, fun hf => ?_⟩
  · simp [hw, Stage.steady, hws] at hs
  · simp [hr, Stage.steady] at hs
  · simp [hf, Stage.steady] at hs

/-- The second fault of a copy halts the engine, and a READY store becomes DEGRADED (R146). -/
theorem Device.reclaimFault_halts {c : Ctx} {d : Device} {j : CopyJob} {w : Writer} (hj : d.reclaim.job = .copy j)
    (hf : w.faulted = true) (hs : d.store = .ready) (hp : d.commandPhase ≠ .waitingSpace) (hq : d.reclaim.request = none) :
    d.reclaimFault c w =
      { d with
        store := .degraded, causes := { d.causes with reclaim := true }, flags := { d.flags with degraded := true }
        reclaim := { d.reclaim with job := .halted .fault } } := by
  have hanswer (status : Status) (result : Nat) : ((d.setJob (.halted .fault)).withCause .reclaim).answerReclaim status result =
      (d.setJob (.halted .fault)).withCause .reclaim := by
    unfold Device.answerReclaim
    rw [show ((d.setJob (.halted .fault)).withCause .reclaim).reclaim.request = none from hq]
  unfold Device.reclaimFault Device.reclaimCannot
  rw [if_pos hf, hj]
  dsimp only
  unfold Device.reclaimHalt
  rw [Device.degrade_ready (d := d.setJob (.halted .fault)) _ hs hp]
  dsimp only
  rw [hanswer, hanswer]
  exact ite_self _

/-- Case 3 of R141 for a copy: a bank is opened, whatever the FREE-bank count. -/
theorem Device.reclaimPlace_opens {c : Ctx} {d : Device} {j : CopyJob} {w : Writer} {b : BankId} (hj : d.reclaim.job = .copy j)
    (hq : w.fixedSeq ≠ none) (hf : d.fitsNowhere w.record.span) (hm : d.openMark = none) (hb : d.freeToOpen = some b)
    (he : d.nextEpoch ≤ 0xFFFFFF00) :
    d.reclaimPlace c w =
      { d with
        openMark := some (b, .reclaim)
        nextEpoch := d.nextEpoch + 1
        reclaim := { d.reclaim with job := .copy { j with writer := { w with stage := .opening b d.nextEpoch } } }
        fc := { d.fc with waitReclaim := some (.program b 1 (.openLine d.nextEpoch 0)) } } := by
  have hl : d.epochLeft = true := decide_eq_true he
  have hn : w.fixedSeq.isNone = false := Option.isNone_eq_false_iff.mpr (Option.isSome_iff_ne_none.mpr hq)
  unfold Device.reclaimPlace
  rw [if_neg (by simp [hn]), Device.fitting_of_fitsNowhere hf]
  dsimp only
  rw [if_neg (by simp [hm]), hb]
  dsimp only
  rw [Device.reclaimOpen, if_pos hl]
  unfold Device.setWriter Device.setJob Device.beginOpen Device.request
  simp only [hj]
  rfl

/-- After its first fault a copy is placed again, here by opening a bank. -/
theorem Device.reclaimFault_opens {c : Ctx} {d : Device} {j : CopyJob} {w : Writer} {b : BankId} (hj : d.reclaim.job = .copy j)
    (hw : w.faulted = false) (hq : w.fixedSeq ≠ none) (hf : d.fitsNowhere w.record.span) (hm : d.openMark = none)
    (hb : d.freeToOpen = some b) (he : d.nextEpoch ≤ 0xFFFFFF00) :
    d.reclaimFault c w =
      { d with
        openMark := some (b, .reclaim)
        nextEpoch := d.nextEpoch + 1
        reclaim := { d.reclaim with job := .copy { j with writer := { w with faulted := true, stage := .opening b d.nextEpoch } } }
        fc := { d.fc with waitReclaim := some (.program b 1 (.openLine d.nextEpoch 0)) } } := by
  have hset : d.setWriter { w with faulted := true } =
      { d with reclaim := { d.reclaim with job := .copy { j with writer := { w with faulted := true } } } } := by
    rw [Device.setWriter, hj]
    rfl
  unfold Device.reclaimFault
  rw [if_neg (by simp [hw]), hset]
  exact Device.reclaimPlace_opens (d := { d with reclaim := { d.reclaim with job := _ } })
    (j := { j with writer := { w with faulted := true } }) (w := { w with faulted := true }) rfl hq hf hm hb he

/-- The fault of a line of the engine's record. -/
theorem Device.reclaimLine_fault {c : Ctx} {d : Device} {w : Writer} {r : Reservation} {read : Line}
    (hv : commitLineValid w.record r.seq read = false) :
    d.reclaimLine c w r (.fault read false) = ((d.abandonSpan w r).faultBank r.bank).reclaimFault c w := by
  unfold Device.reclaimLine
  rw [lineVerdict_fault hv]

end Sys2Proof.Machine
end

section
/-! A record that does not commit (R38, R59, R106 to R108, R145, R146, R182, R183). -/
namespace Sys2Proof.Machine
open Sys2Proof

/-- A verified line that is not the last: the next one is requested (R99). -/
theorem State.LineInProgress.requestsNext {s : State} {x : Executing} {w : Writer} {r : Reservation} (h : s.LineInProgress x w r)
    (hl : r.at_ + 1 ≠ w.record.span) :
    s.dev.opDone.commandLine s.ctx x w r .ok =
      { s.dev with
        ex := some { x with stage := .writing { w with stage := .programming { r with at_ := w.record.lineAfter r.at_ } } }
        fc := { s.dev.fc with
          op := none
          waitCommand := some (.program r.bank (r.line + w.record.lineAfter r.at_)
            (w.record.line r.seq (w.record.lineAfter r.at_))) } } := by
  rw [Device.commandLine_next h.formatProgress hl rfl]
  unfold Device.setStage Device.request
  simp only [Device.opDone_ex, h.command, Option.map_some]
  rfl

/-- A request put to a free controller and taken back leaves it free. -/
theorem FlashController.Alone.unwait {fc : FlashController} {who : Requester} {r : Request} (h : fc.Alone who r) (q : Request) :
    ({ fc with op := none, waitCommand := some q } : FlashController).unwait .command = { fc with op := none } := by
  simp only [FlashController.unwait, ← h.command, ← h.decided]

/-- Settles O33: the span is lost with its bank; then the command or the copy ends, or opens a bank for its record. -/
theorem recordAbandoned : Obligations.RecordAbandoned := by
  refine ⟨fun s x w r result read d h hm hc hfault hbank hother hd => ?command,
    fun s x w r d h hw hm hc hl hbank hother hd => ?refused,
    fun s j r result read d hsteady hw hj hr halone herased hseq hfault hbank hother hd => ?copy⟩
  case command =>
    obtain ⟨hread, hne, hv⟩ := RecordSpec.line_faults hfault
    have hlost : s.dev.LosesSpan d w r.bank := ⟨hbank, hother, hd⟩
    have hprog : s.dev.opDone.programmed s.ctx .command (.fault read false) = d.commandFault s.ctx w := by
      rw [Device.programmed_line (d := s.dev.opDone) h.command h.stage h.reserved,
        Device.commandLine_fault (Device.formatProgress_of (d := s.dev.opDone) h.command h.noFormat) hv, hlost.eq]
    have hfree := h.alone.free
    obtain ⟨banks, rfl⟩ : ∃ banks, d = { s.dev with banks := banks, fc := { s.dev.fc with op := none } } := ⟨_, hd⟩
    refine ⟨fun hend => ?ends, fun b hf hw hq he hm ha hn hb => ?again⟩
    case ends =>
      exact exec_lineProgram_ends h.alone.op h.erased hread (programOutcome_fault hread hne)
        (hprog.trans (Device.commandFault_ends h.command h.noFormat hc hm hend))
        (Device.settle_atRest _ _ (Device.executingEnded_atRest hfree.command hfree.reclaim hfree.mount hfree.erase h.writer))
    case again =>
      refine exec_lineProgram_ends h.alone.op h.erased hread (programOutcome_fault hread hne)
        (hprog.trans ((Device.commandFault_again hw hf).trans (Device.commandPlace_opens h.command hw hq
          (hlost.fitsNowhere ha _) hm (hlost.freeCount.symm ▸ hn) (hlost.freeToOpen.trans hb) he)))
        (Device.settle_granted_command hw (Device.noWake_of_steady _ ⟨?_, h.writer⟩) ?_ hfree rfl)
      all_goals
        intro y hy
        cases hy
      · rfl
      · exact h.noFormat
  case refused =>
    have hfree := h.alone.free
    obtain ⟨banks, rfl⟩ : ∃ banks, d = { s.dev with banks := banks, fc := { s.dev.fc with op := none } } := ⟨_, hd⟩
    refine exec_lineProgram_ends h.alone.op h.erased rfl (programOutcome_asIntended _ rfl)
      ((Device.programmed_line (d := s.dev.opDone) h.command h.stage h.reserved).trans
        (h.inProgress.requestsNext (by omega)))
      (Device.settle_refused hw rfl ?_ (Device.executingEnded_atRest hfree.command hfree.reclaim hfree.mount hfree.erase h.writer))
    rw [h.alone.unwait]
    refine Eq.trans (Device.commandRefused_line (x := { x with stage := _ }) (w := { w with stage := _ }) rfl rfl rfl h.noFormat hc hm) ?_
    have hbanks : (s.dev.abandonSpan w r).banks = banks := by
      refine Device.banks_ext (e := { s.dev with banks := banks, fc := { s.dev.fc with op := none } }) fun b => ?_
      rw [Device.abandonSpan, Device.bank_addDead]
      by_cases hb : b = r.bank
      · rw [if_pos hb, hb, hbank]
      · rw [if_neg hb, hother b hb]
    rw [← hbanks]
    rfl
  case copy =>
    obtain ⟨hread, hne, hv⟩ := RecordSpec.line_faults hfault
    have hlost : s.dev.LosesSpan d j.writer r.bank := ⟨hbank, hother, hd⟩
    have hprog : s.dev.opDone.programmed s.ctx .reclaim (.fault read false) = d.reclaimFault s.ctx j.writer := by
      rw [Device.programmed_copyLine (d := s.dev.opDone) hj hr, Device.reclaimLine_fault hv, hlost.eq]
    have hfree := halone.free
    obtain ⟨banks, rfl⟩ : ∃ banks, d = { s.dev with banks := banks, fc := { s.dev.fc with op := none } } := ⟨_, hd⟩
    refine ⟨fun hf hs hq => ?halts, fun b hf he hm ha hb => ?again⟩
    case halts =>
      refine exec_lineProgram_ends halone.op herased hread (programOutcome_fault hread hne)
        (hprog.trans (Device.reclaimFault_halts hj hf hs hsteady.phase hq)) (Device.settle_atRest _ _ ?_)
      exact ⟨hfree.command, hfree.reclaim, hfree.mount, hsteady.command, fun _ hy => (nomatch hy),
        fun e he => by cases hfree.erase.symm.trans he⟩
    case again =>
      refine exec_lineProgram_ends halone.op herased hread (programOutcome_fault hread hne)
        (hprog.trans (Device.reclaimFault_opens hj hf hseq (hlost.fitsNowhere ha _) hm (hlost.freeToOpen.trans hb) he))
        (Device.settle_granted_reclaim hw (Device.noWake_of_steady _ ⟨hsteady.command, ?_⟩) hfree rfl)
      intro y hy
      cases hy
      simp

end Sys2Proof.Machine
end

section
/-! The outcome of an open line (R39, R62, R103, R141): the bank ACTIVE and the span reserved, or the bank FULL and suspect. -/
namespace Sys2Proof.Machine
open Sys2Proof

/-! ## The bank that is opened -/

/-- An opening from three FREE banks sets SPACE_LOW (R62). -/
theorem Device.noteOpening_eq (d : Device) (n : Nat) :
    d.noteOpening n = { d with flags := { d.flags with spaceLow := d.flags.spaceLow || Decidable.decide (n = 3) } } := by
  unfold Device.noteOpening
  by_cases h : n = 3 <;> simp [h]

/-- The open line verified: what changes beside the Bank Table. -/
theorem Device.openSucceeded_frame (d : Device) (b : BankId) (epoch : Nat) :
    d.openSucceeded b epoch false =
      { d with
        banks := (d.openSucceeded b epoch false).banks, openMark := none
        flags := { d.flags with spaceLow := d.flags.spaceLow || Decidable.decide (d.freeCount = 3) } } := by
  unfold Device.openSucceeded
  dsimp only
  rw [if_neg Bool.false_ne_true, Device.noteOpening_eq]
  split
  · unfold Device.fillActive
    split <;> rfl
  · rfl

/-- The open line verified: the bank is ACTIVE with no lines used, the one that was ACTIVE FULL with its tail dead. -/
theorem Device.bank_openSucceeded {d : Device} {b : BankId} (epoch : Nat) (hb : (d.bank b).state = .free) (c : BankId) :
    (d.openSucceeded b epoch false).bank c =
      if c = b then { d.bank b with state := .active, epoch := some epoch, used := 0, dead := 0, tagged := 0 }
      else if d.activeBank = some c then
        { d.bank c with state := .full, dead := (d.bank c).dead + (125 - (d.bank c).used) }
      else d.bank c := by
  have hbanks (e : Device) (f : Flags) (n : Nat) : (({ e with openMark := none } : Device).noteOpening n).bank c = e.bank c := by
    rw [Device.noteOpening_eq]
    rfl
  unfold Device.openSucceeded
  dsimp only
  rw [if_neg Bool.false_ne_true, hbanks _ d.flags]
  cases ha : d.activeBank with
  | none => simp [Device.bank_setBank]
  | some a =>
    have hact := Device.activeBank_state ha
    have hab : b ≠ a := fun h => by rw [← h, hb] at hact; cases hact
    have hfill : d.fillActive a =
        d.setBank a { d.bank a with state := .full, dead := (d.bank a).dead + (Config.journalLines - (d.bank a).used) } := if_pos hact
    dsimp only
    rw [hfill, Device.bank_setBank, Device.bank_setBank_other _ _ hab, Device.bank_setBank]
    by_cases hc : c = b
    · rw [if_pos hc, if_pos hc]
    · rw [if_neg hc, if_neg hc]
      by_cases hca : c = a
      · rw [if_pos hca, hca, if_pos rfl]
        rfl
      · rw [if_neg hca, if_neg fun h => hca (Option.some.inj h).symm]

/-- A device in which an open line faulted: the bank FULL and suspect, the mark cleared (R103, R141). -/
def Device.openLost (d : Device) (b : BankId) (epoch : Nat) : Device :=
  { d.setBank b
      { d.bank b with state := .full, epoch := some epoch, used := 0, dead := 125, tagged := 0, suspect := true } with
    openMark := none
    flags := { d.flags with spaceLow := d.flags.spaceLow || Decidable.decide (d.freeCount = 3) } }

theorem Device.openFaulted_eq (d : Device) (b : BankId) (epoch : Nat) : d.openFaulted b epoch false = d.openLost b epoch := by
  unfold Device.openFaulted
  dsimp only
  rw [if_neg Bool.false_ne_true, Device.noteOpening_eq]
  rfl

/-- A FREE bank that becomes FULL leaves the ACTIVE bank's room as it was. -/
theorem Device.fitsNowhere_setFull {d : Device} {b : BankId} {e : BankEntry} {span : Nat} (hb : (d.bank b).state = .free)
    (he : e.state = .full) (hf : d.fitsNowhere span) : (d.setBank b e).fitsNowhere span := by
  have hact : (d.setBank b e).activeBank = d.activeBank := by
    refine congrArg List.head? (Device.banksIn_congr fun c => ?_)
    rw [Device.bank_setBank]
    by_cases hc : c = b
    · rw [if_pos hc, hc, hb, he]
      simp
    · rw [if_neg hc]
  intro c hc
  rw [hact] at hc
  have hcb : c ≠ b := by
    rintro rfl
    have := Device.activeBank_state hc
    rw [hb] at this
    cases this
  rw [Device.bank_setBank_other _ _ hcb]
  exact hf c hc

/-! ## The span reserved in the bank opened (R103, R141) -/

/-- A new record's span is reserved at a bank's append position, its sequence taken and its header line requested. -/
theorem Device.commandReserve_new {d : Device} {x : Executing} {w : Writer} (b : BankId) (hx : d.ex = some x)
    (hq : d.nextSeq ≤ 0xFFFFFF00) (hw : w.fixedSeq = none) :
    d.commandReserve w b =
      { d.reserveLines b w.record.span with
        nextSeq := d.nextSeq + 1
        ex := some { x with
          stage := .writing { w with stage := .programming { bank := b, line := d.appendAt b, seq := d.nextSeq, at_ := 0 } } }
        fc := { d.fc with waitCommand := some (.program b (d.appendAt b) (w.record.line d.nextSeq 0)) } } := by
  have hs : d.sequenceLeft = true := decide_eq_true hq
  unfold Device.commandReserve Device.reserve
  rw [if_pos hs, hw]
  unfold Device.setStage Device.request
  simp only [Device.reserveLines_ex, hx, Option.map_some]
  rfl

/-- A copy's span is reserved with the original's sequence. -/
theorem Device.reclaimReserve_copy {d : Device} {j : CopyJob} {w : Writer} {seq : Nat} (b : BankId) (hj : d.reclaim.job = .copy j)
    (hw : w.fixedSeq = some seq) :
    d.reclaimReserve w b =
      { d.reserveLines b w.record.span with
        reclaim := { d.reclaim with
          job := .copy { j with writer := { w with stage := .programming { bank := b, line := d.appendAt b, seq := seq, at_ := 0 } } } }
        fc := { d.fc with waitReclaim := some (.program b (d.appendAt b) (w.record.line seq 0)) } } := by
  unfold Device.reclaimReserve Device.reserve
  rw [if_pos (by simp [hw]), hw]
  unfold Device.setWriter Device.setJob Device.request
  simp only [Device.reserveLines_reclaim, hj]
  rfl

/-- The Bank Table once a span is reserved in the bank just opened. -/
theorem Device.bank_openReserved {d : Device} {b : BankId} (epoch span : Nat) (hb : (d.bank b).state = .free) (c : BankId) :
    ((d.openSucceeded b epoch false).reserveLines b span).bank c =
      if c = b then { d.bank b with state := .active, epoch := some epoch, used := span, dead := 0, tagged := 0 }
      else if d.activeBank = some c then
        { d.bank c with state := .full, dead := (d.bank c).dead + (125 - (d.bank c).used) }
      else d.bank c := by
  rw [Device.reserveLines, Device.bank_setBank, Device.bank_openSucceeded epoch hb, Device.bank_openSucceeded epoch hb, if_pos rfl]
  by_cases hc : c = b
  · rw [if_pos hc, if_pos hc]
    simp
  · rw [if_neg hc, if_neg hc, if_neg hc]

theorem Device.appendAt_openSucceeded {d : Device} {b : BankId} (epoch : Nat) (hb : (d.bank b).state = .free) :
    (d.openSucceeded b epoch false).appendAt b = 3 := by
  rw [Device.appendAt, Device.bank_openSucceeded epoch hb, if_pos rfl]
  rfl

/-- The command's open line verified (R103). -/
theorem Device.commandOpened_ok {c : Ctx} {d : Device} {x : Executing} {w : Writer} {b : BankId} {epoch : Nat} (hx : d.ex = some x)
    (hc : x.code ≠ .format) (hq : d.nextSeq ≤ 0xFFFFFF00) (hw : w.fixedSeq = none) (hb : (d.bank b).state = .free) :
    d.commandOpened c x w b epoch .ok =
      { d with
        openMark := none
        nextSeq := d.nextSeq + 1
        banks := ((d.openSucceeded b epoch false).reserveLines b w.record.span).banks
        flags := { d.flags with spaceLow := d.flags.spaceLow || Decidable.decide (d.freeCount = 3) }
        ex := some { x with
          stage := .writing { w with stage := .programming { bank := b, line := 3, seq := d.nextSeq, at_ := 0 } } }
        fc := { d.fc with waitCommand := some (.program b 3 (w.record.line d.nextSeq 0)) } } := by
  have hframe := d.openSucceeded_frame b epoch
  have happend := Device.appendAt_openSucceeded (epoch := epoch) hb
  unfold Device.commandOpened
  dsimp only
  rw [decide_eq_false hc]
  generalize d.openSucceeded b epoch false = e at *
  obtain ⟨banks, rfl⟩ : ∃ banks, e = { d with
      banks := banks, openMark := none
      flags := { d.flags with spaceLow := d.flags.spaceLow || Decidable.decide (d.freeCount = 3) } } := ⟨_, hframe⟩
  rw [Device.commandReserve_new (d := { d with banks := banks, openMark := none, flags := _ }) b hx hq hw, happend]
  rfl

/-- A copy's open line verified (R141). -/
theorem Device.reclaimOpened_ok {c : Ctx} {d : Device} {j : CopyJob} {b : BankId} {epoch seq : Nat} (hj : d.reclaim.job = .copy j)
    (hw : j.writer.fixedSeq = some seq) (hb : (d.bank b).state = .free) :
    d.reclaimOpened c j.writer b epoch .ok =
      { d with
        openMark := none
        banks := ((d.openSucceeded b epoch false).reserveLines b j.writer.record.span).banks
        flags := { d.flags with spaceLow := d.flags.spaceLow || Decidable.decide (d.freeCount = 3) }
        reclaim := { d.reclaim with
          job := .copy { j with writer := { j.writer with stage := .programming { bank := b, line := 3, seq := seq, at_ := 0 } } } }
        fc := { d.fc with waitReclaim := some (.program b 3 (j.writer.record.line seq 0)) } } := by
  have hframe := d.openSucceeded_frame b epoch
  have happend := Device.appendAt_openSucceeded (epoch := epoch) hb
  unfold Device.reclaimOpened
  dsimp only
  generalize d.openSucceeded b epoch false = e at *
  obtain ⟨banks, rfl⟩ : ∃ banks, e = { d with
      banks := banks, openMark := none
      flags := { d.flags with spaceLow := d.flags.spaceLow || Decidable.decide (d.freeCount = 3) } } := ⟨_, hframe⟩
  rw [Device.reclaimReserve_copy (d := { d with banks := banks, openMark := none, flags := _ }) b hj hw, happend]
  rfl

/-- The command's open line faulted (R103). -/
theorem Device.commandOpened_fault {c : Ctx} {d : Device} {x : Executing} {w : Writer} {b : BankId} {epoch : Nat} {read : Line}
    {pre : Bool} (hc : x.code ≠ .format) :
    d.commandOpened c x w b epoch (.fault read pre) = (d.openLost b epoch).commandFault c w := by
  unfold Device.commandOpened
  dsimp only
  rw [decide_eq_false hc, Device.openFaulted_eq]

/-- A copy's open line faulted (R141). -/
theorem Device.reclaimOpened_fault {c : Ctx} {d : Device} {w : Writer} {b : BankId} {epoch : Nat} {read : Line} {pre : Bool} :
    d.reclaimOpened c w b epoch (.fault read pre) = (d.openLost b epoch).reclaimFault c w := by
  unfold Device.reclaimOpened
  dsimp only
  rw [Device.openFaulted_eq]

/-- An open line that reads other bytes has faulted. -/
theorem openLine_faults (epoch : Nat) (bytes : RawLine) :
    programOutcome Line.erased (.openLine epoch 0) (.other bytes) = .fault (.raw bytes) false :=
  programOutcome_fault rfl (by simp)

/-- Settles O34: the bank ACTIVE and the span reserved in it, or the bank FULL and the record's fault handled as any other. -/
theorem openLineOutcome : Obligations.OpenLineOutcome := by
  refine ⟨fun s x w b epoch hx hf hcode hs hw hseq halone herased hr hn hb hq => ?opened,
    fun s x w b epoch bytes d hx hf hcode hcommit hm hs hw hseq halone herased hr hb hd => ?faulted,
    fun s j b epoch seq hsteady hn hj hw hseq halone herased hb =>
      ⟨?copyOpened, fun bytes d hd => ⟨fun hfault hready hreq => ?copyHalts, fun next hfault he hfit hnext => ?copyAgain⟩⟩⟩
  case opened =>
    refine ⟨_, exec_lineProgram_ends halone.op herased rfl (programOutcome_asIntended _ rfl)
      ((Device.programmed_open (d := s.dev.opDone) hx hs hw).trans (Device.commandOpened_ok hx hcode hq hseq hb))
      (Device.settle_granted_command hn (Device.noWake_of_steady _ ⟨?_, hr⟩) ?_ halone.free rfl), rfl,
      Device.bank_openReserved epoch _ hb⟩
    all_goals
      intro y hy
      cases hy
    · rfl
    · exact hf
  case faulted =>
    have hfree := halone.free
    have hprog : s.dev.opDone.programmed s.ctx .command (.fault (.raw bytes) false) = d.commandFault s.ctx w := by
      rw [Device.programmed_open (d := s.dev.opDone) hx hs hw, Device.commandOpened_fault hcode, hd]
      rfl
    subst hd
    refine ⟨fun hend => ?ends, fun hfault hn hq he hfit hfc next hnext => ?again⟩
    case ends =>
      exact exec_lineProgram_ends halone.op herased rfl (openLine_faults epoch bytes)
        (hprog.trans (Device.commandFault_ends hx hf hcommit hm hend))
        (Device.settle_atRest _ _ (Device.executingEnded_atRest hfree.command hfree.reclaim hfree.mount hfree.erase hr))
    case again =>
      refine exec_lineProgram_ends halone.op herased rfl (openLine_faults epoch bytes)
        (hprog.trans ((Device.commandFault_again hn hfault).trans (Device.commandPlace_opens hx hn hq
          (Device.fitsNowhere_setFull hb rfl hfit) rfl hfc hnext he)))
        (Device.settle_granted_command hn (Device.noWake_of_steady _ ⟨?_, hr⟩) ?_ hfree rfl)
      all_goals
        intro y hy
        cases hy
      · rfl
      · exact hf
  case copyOpened =>
    refine ⟨_, exec_lineProgram_ends halone.op herased rfl (programOutcome_asIntended _ rfl)
      ((Device.programmed_copyOpen (d := s.dev.opDone) hj hw).trans (Device.reclaimOpened_ok hj hseq hb))
      (Device.settle_granted_reclaim hn (Device.noWake_of_steady _ ⟨hsteady.command, ?_⟩) halone.free rfl), rfl,
      Device.bank_openReserved epoch _ hb⟩
    intro y hy
    cases hy
    simp
  case copyHalts =>
    subst hd
    have hfree := halone.free
    refine exec_lineProgram_ends halone.op herased rfl (openLine_faults epoch bytes)
      ((Device.programmed_copyOpen (d := s.dev.opDone) hj hw).trans
        (Device.reclaimOpened_fault.trans (Device.reclaimFault_halts hj hfault hready hsteady.phase hreq)))
      (Device.settle_atRest _ _ ?_)
    exact ⟨hfree.command, hfree.reclaim, hfree.mount, hsteady.command, fun _ hy => (nomatch hy),
      fun e he => by cases hfree.erase.symm.trans he⟩
  case copyAgain =>
    subst hd
    refine exec_lineProgram_ends halone.op herased rfl (openLine_faults epoch bytes)
      ((Device.programmed_copyOpen (d := s.dev.opDone) hj hw).trans
        (Device.reclaimOpened_fault.trans (Device.reclaimFault_opens hj hfault (by simp [hseq])
          (Device.fitsNowhere_setFull hb rfl hfit) rfl hnext he)))
      (Device.settle_granted_reclaim hn (Device.noWake_of_steady _ ⟨hsteady.command, ?_⟩) halone.free rfl)
    intro y hy
    cases hy
    simp

end Sys2Proof.Machine
end

section
/-! What an IDLE Reclaim Engine takes up (R128 to R138), and the plan read of its victim (R29, R138, R147). -/
namespace Sys2Proof.Machine
open Sys2Proof

/-! ## The bank chosen for space (R134, R135) -/

/-- Choices by a count, the highest first, then the lower erase count. -/
theorem ranks_moreThenLessWorn (count : BankEntry → Nat) (d : Device) : Ranks (moreThenLessWorn count d) where
  asymm x y h := by
    unfold moreThenLessWorn at *
    simp only [Bool.or_eq_true, Bool.and_eq_true, decide_eq_true_eq, Bool.or_eq_false_iff, Bool.and_eq_false_imp,
      decide_eq_false_iff_not] at *
    omega
  trans x y z h k := by
    unfold moreThenLessWorn at *
    simp only [Bool.or_eq_false_iff, Bool.and_eq_false_imp, decide_eq_true_eq, decide_eq_false_iff_not] at *
    omega

theorem moreThenLessWorn_le {count : BankEntry → Nat} {d : Device} {a b : BankId} (h : moreThenLessWorn count d b a = false) :
    count (d.bank b) ≤ count (d.bank a) := by
  unfold moreThenLessWorn at h
  simp only [Bool.or_eq_false_iff, decide_eq_false_iff_not] at h
  omega

/-- Of the banks offered the choice is a suspect one, if there is one, and has the most dead lines of those. -/
theorem Device.mostDead_spec {d : Device} {banks : List BankId} {b : BankId} (h : d.mostDead banks = some b) :
    b ∈ banks ∧
    ((d.bank b).suspect = true → ∀ c ∈ banks, (d.bank c).suspect = true → (d.bank c).dead ≤ (d.bank b).dead) ∧
    ((d.bank b).suspect = false → ∀ c ∈ banks, (d.bank c).suspect = false ∧ (d.bank c).dead ≤ (d.bank b).dead) := by
  have hranks := ranks_moreThenLessWorn BankEntry.dead d
  unfold Device.mostDead at h
  rcases Option.or_eq_some_iff.mp h with h | ⟨hnone, h⟩
  · obtain ⟨hmem, hsus⟩ := List.mem_filter.mp (pick_mem _ _ _ h)
    refine ⟨hmem, fun _ c hc hcs => moreThenLessWorn_le (pick_best hranks h (List.mem_filter.mpr ⟨hc, hcs⟩)), fun hf => ?_⟩
    rw [hsus] at hf
    cases hf
  · have hclean (c : BankId) (hc : c ∈ banks) : (d.bank c).suspect = false := by
      simpa using List.filter_eq_nil_iff.mp (pick_eq_none.mp hnone) c hc
    refine ⟨pick_mem _ _ _ h, fun hs => ?_, fun _ c hc => ⟨hclean c hc, moreThenLessWorn_le (pick_best hranks h hc)⟩⟩
    rw [hclean b (pick_mem _ _ _ h)] at hs
    cases hs

/-- The banks that qualify for space (R135). -/
theorem Device.mem_spaceBanks {d : Device} {c : BankId} :
    c ∈ (allBanks.filter fun b =>
      d.qualifies b && (((d.bank b).suspect && 1 ≤ (d.bank b).dead) || Config.deadThreshold ≤ (d.bank b).dead)) ↔
    (d.bank c).state = .full ∧ d.reservedIn c = false ∧
      (((d.bank c).suspect = true ∧ 1 ≤ (d.bank c).dead) ∨ 18 ≤ (d.bank c).dead) := by
  simp only [List.mem_filter, mem_allBanks, Device.qualifies, Bool.and_eq_true, Bool.or_eq_true, Bool.not_eq_true', decide_eq_true_eq,
    true_and, and_assoc]
  exact Iff.rfl

/-- Without a dead line in a FULL bank there is no victim for space, urgent or not. -/
theorem Device.noVictim {d : Device} (h : ∀ b, (d.bank b).state = .full → (d.bank b).dead = 0) :
    d.urgentVictim = none ∧ d.spaceVictim = none := by
  have hnil {banks : List BankId} (hb : banks = []) : d.mostDead banks = none := by
    rw [hb]
    rfl
  refine ⟨hnil (List.filter_eq_nil_iff.mpr fun b _ => ?_), hnil (List.eq_nil_iff_forall_not_mem.mpr fun b hb => ?_)⟩
  · by_cases hf : (d.bank b).state = .full
    · simp [h b hf]
    · simp [Device.qualifies, hf]
  · obtain ⟨hf, _, hd⟩ := Device.mem_spaceBanks.mp hb
    rw [h b hf] at hd
    omega

/-! ## The order in which work is taken up (R128) -/

theorem exec_reclaimTakeUpWork {s : State} {d e : Device} (he : s.dev.takeWork s.ctx = e) (hd : e.settle s.ctx = d) :
    exec .reclaimTakeUpWork s = .next { s with dev := d } :=
  congrArg Host.Outcome.next (State.engines_eq _ _ (by rw [he, hd]))

/-- Nothing is taken up under WARNING, in MOUNTING, in BLANK, or by an engine that is not IDLE. -/
theorem Device.takeWork_nothing {c : Ctx} {d : Device}
    (h : c.warning = true ∨ d.store = .mounting ∨ d.store = .blank ∨ d.reclaim.job ≠ .idle) : d.takeWork c = d := by
  unfold Device.takeWork
  rcases h with h | h | h | h
  · exact if_pos (.inl h)
  · rw [h]
    exact ite_self _
  · rw [h]
    exact ite_self _
  · exact if_pos (.inr h)

/-- Without a bank map or lock repair due, erasing comes first. -/
theorem Device.takeWork_erase {c : Ctx} {d : Device} (hw : c.warning = false) (hs : d.store = .ready ∨ d.store = .degraded)
    (hj : d.reclaim.job = .idle) (hm : d.reclaim.mapDue = false) (hr : d.reclaim.repairDue = false) :
    d.takeWork c = d.takeErase c := by
  unfold Device.takeWork Device.takeRepair
  rw [if_neg (by simp [hw, hj])]
  rcases hs with hs | hs <;> simp [hs, hm, hr]

/-- With nothing to erase, the victim comes next. -/
theorem Device.takeErase_victim {c : Ctx} {d : Device} (hb : d.banksIn .blank = []) (he : d.reclaim.eraseList = []) :
    d.takeErase c = d.takeVictim c := by
  unfold Device.takeErase
  rw [hb, he]
  rfl

theorem Device.takeErase_blank {c : Ctx} {d : Device} {generation : Nat} {b : BankId} {bs : List BankId}
    (hg : d.generation = some generation) (hb : d.banksIn .blank = b :: bs) :
    d.takeErase c =
      { d with
        reclaim := { d.reclaim with job := .blankHeader b (d.nextEraseCount b) }
        fc := { d.fc with waitReclaim := some (.program b 0 (.bankHeader generation (d.nextEraseCount b) 0)) } } := by
  have hline : d.headerLine b = .bankHeader generation (d.nextEraseCount b) 0 := by
    rw [Device.headerLine, hg]
    rfl
  unfold Device.takeErase
  rw [hb, List.filter_cons_of_pos (by simp [hg])]
  show d.beginBlankHeader b = _
  rw [Device.beginBlankHeader, hline]
  rfl

theorem Device.takeErase_listed {c : Ctx} {d : Device} {b : BankId} {bs : List BankId} (hb : d.banksIn .blank = [])
    (he : d.reclaim.eraseList = b :: bs) : d.takeErase c = d.beginErase b bs := by
  unfold Device.takeErase
  rw [hb, he]
  rfl

/-- No RECLAIM with 0xFF is held, so none is answered (R136). -/
theorem Device.answerNone_noRequest {d : Device} (h : d.reclaim.request = none) : d.answerNone = d := by
  unfold Device.answerNone
  rw [h]
  exact if_neg (by simp)

/-- Without a victim held, the one chosen is begun with (R134). -/
theorem Device.takeVictim_begins {c : Ctx} {d : Device} {b : BankId} {forRequest : Bool} (hv : d.reclaim.victim = none)
    (hq : d.reclaim.request = none) (h : d.chooseVictim c = some (b, forRequest)) : d.takeVictim c = d.beginVictim b forRequest := by
  unfold Device.takeVictim
  simp only [hv, Device.answerNone_noRequest hq, h]

/-- Without a victim held or chosen, the no-space report comes last (R137). -/
theorem Device.takeVictim_reports {c : Ctx} {d : Device} (hv : d.reclaim.victim = none) (hq : d.reclaim.request = none)
    (h : d.chooseVictim c = none) : d.takeVictim c = d.reportNoSpace := by
  unfold Device.takeVictim
  simp only [hv, Device.answerNone_noRequest hq, h]

theorem Device.chooseVictim_space {c : Ctx} {d : Device} {b : BankId} (hc : d.causes.commit = false) (hu : d.urgent = false)
    (hq : d.reclaim.request = none) (hn : d.freeCount ≤ c.cfg.startThreshold) (hb : d.spaceVictim = some b) :
    d.chooseVictim c = some (b, false) := by
  unfold Device.chooseVictim Device.spaceTrigger
  rw [if_neg (by simp [hc]), hq, hu, if_pos hn, hb]
  rfl

/-- The urgent mark set and no dead line to gain: no victim. -/
theorem Device.chooseVictim_none {c : Ctx} {d : Device} (hu : d.urgent = true)
    (h : ∀ b, (d.bank b).state = .full → (d.bank b).dead = 0) : d.chooseVictim c = none := by
  obtain ⟨hurgent, hspace⟩ := Device.noVictim h
  unfold Device.chooseVictim Device.spaceTrigger Device.quietTriggers
  rw [hu, hurgent, hspace]
  simp

theorem Device.waitingSpan_of {d : Device} {x : Executing} {w : Writer} (hx : d.ex = some x) (hs : x.stage = .writing w)
    (hw : w.stage = .waitSpace) : d.waitingSpan = some w.record.span := by
  unfold Device.waitingSpan
  simp only [hx, hs, hw]

theorem Device.urgent_of {d : Device} {x : Executing} {w : Writer} (hx : d.ex = some x) (hs : x.stage = .writing w)
    (hw : w.stage = .waitSpace) : d.urgent = true := by
  simp only [Device.urgent, Device.commandPhase, hx, hs, hw, decide_true]

/-- The no-space report ends the waiting command when no space can be made (R137). -/
theorem Device.reportNoSpace_ends {d : Device} {span : Nat} (hs : d.waitingSpan = some span) (he : d.reclaim.eraseList = [])
    (hb : d.banksIn .blank = []) (hd : ∀ b, (d.bank b).state = .full → (d.bank b).dead = 0) (hf : d.fitsNowhere span)
    (hm : d.openMark = none) (hn : d.freeCount < 2) : d.reportNoSpace = d.endCommand .noSpace 0 := by
  have hfull : ((d.banksIn .full).all fun b => Decidable.decide ((d.bank b).dead = 0)) = true :=
    List.all_eq_true.mpr fun b hb => decide_eq_true (hd b (Device.mem_banksIn.mp hb))
  unfold Device.reportNoSpace
  rw [hs]
  exact if_pos (by rw [he, hb, hfull, Device.placeable_fitsNowhere hf hn, hm]; rfl)

/-! ## The plan read (R29, R138) -/

theorem countOf_map {α β : Type} [DecidableEq β] (l : List α) (key : α → β) (count : α → Nat) (b : β) :
    countOf (l.map fun a => (key a, count a)) b = ((l.find? fun a => Decidable.decide (key a = b)).map count).getD 0 := by
  induction l with
  | nil => rfl
  | cons a l ih =>
    rw [List.map_cons, countOf, List.find?_cons]
    by_cases h : key a = b
    · rw [if_pos h.symm, decide_eq_true h]
      rfl
    · rw [if_neg fun hb => h hb.symm, decide_eq_false h]
      exact ih

theorem lowerCount_eq (walk : List WalkRecord) (e : DirEntry) :
    lowerCount walk e = (walk.filter fun r => Decidable.decide
      (r.verdict = .valid ∧ r.header.key = e.key ∧ e.base ≤ r.header.seq ∧ r.header.seq < e.seq)).length := by
  simp only [lowerCount, Bool.decide_and, Bool.and_assoc]

theorem groupedCount_eq (walk : List WalkRecord) (gid : Nat) :
    groupedCount walk gid =
      (walk.filter fun r => Decidable.decide (r.verdict = .valid ∧ r.header.gid = some gid)).length := by
  simp only [groupedCount, Bool.decide_and]

/-- The plan counts for an entry the valid records of its key below it (R138). -/
theorem Device.plan_lower {d : Device} {v : Victim} {records : List ScanRecord} {e : DirEntry} (he : d.entry e.key = some e) :
    countOf (d.plan v records).lower e.key = lowerCount (d.plan v records).walk e := by
  rw [Device.entry] at he
  rw [Device.plan, countOf_map, he]
  rfl

/-- The plan counts for a group its valid records (R138). -/
theorem Device.plan_grouped {d : Device} {v : Victim} {records : List ScanRecord} {g : CommitEntry} (hg : g ∈ d.commits) :
    countOf (d.plan v records).grouped g.gid = groupedCount (d.plan v records).walk g.gid := by
  rw [Device.plan, countOf_map]
  dsimp only
  obtain ⟨a, ha⟩ := Option.isSome_iff_exists.mp
    (List.find?_isSome.mpr ⟨g, hg, decide_eq_true rfl⟩ : (d.commits.find? fun a => Decidable.decide (a.gid = g.gid)).isSome = true)
  have hgid : a.gid = g.gid := by simpa using List.find?_some ha
  rw [ha, ← hgid]
  rfl

/-- What the walk leaves of a device: its next request put to the controller, and no record being appended. -/
theorem Device.walkOn_requests (v : Victim) (rs : List WalkRecord) (d : Device) :
    ∃ dir group reclaim q,
      Device.walkOn v rs d =
        { d with dir := dir, group := group, reclaim := reclaim, fc := { d.fc with waitReclaim := some q } } ∧
      reclaim.steady := by
  induction rs generalizing d with
  | nil => exact ⟨d.dir, d.group, _, _, rfl, fun _ hw => nomatch hw⟩
  | cons r rs ih =>
    unfold Device.walkOn
    split
    · exact ⟨d.dir, d.group, _, _, rfl, fun _ hw => nomatch hw⟩
    · exact ih d.advanceCursor
    · obtain ⟨dir, group, reclaim, q, h, hs⟩ := ih (d.entryUnlocated r.header.key).advanceCursor
      refine ⟨dir, group, reclaim, q, h.trans ?_, hs⟩
      unfold Device.entryUnlocated
      split <;> rfl
    · exact ih (d.memberUnlocated r.header.key).advanceCursor

/-- The walk of a victim. -/
theorem Device.walk_requests {d : Device} {v : Victim} (hv : d.reclaim.victim = some v) :
    ∃ dir group reclaim q,
      d.walk = { d with dir := dir, group := group, reclaim := reclaim, fc := { d.fc with waitReclaim := some q } } ∧
      reclaim.steady := by
  unfold Device.walk
  rw [hv]
  exact Device.walkOn_requests v _ d

/-- An intact record with a group id is judged by where its group stands (R29). -/
theorem Device.walkVerdict_tagged (d : Device) {h : Header} {g : Nat} (hg : h.gid = some g) :
    d.walkVerdict h .intact =
      if d.commits.any (fun c => Decidable.decide (c.gid = g)) = true then .valid
      else if d.group.any (fun c => Decidable.decide (c.id = g)) = true then .pending
      else .orphan := by
  have hopen : d.openGid = some g ↔ d.group.any (fun c => Decidable.decide (c.id = g)) = true := by
    unfold Device.openGid
    cases d.group <;> simp
  unfold Device.walkVerdict
  simp only [hg, hopen, Device.committed]

/-- A multi-line read ends: the requester's act, and the end of the step. -/
theorem exec_read_ends {s : State} {who : Requester} {b : BankId} {first count : Nat} {d e : Device}
    (hop : s.dev.fc.op = some (who, .read b first count))
    (he : s.dev.opDone.readLines s.ctx who (s.flash.lines b first count) = e) (hd : e.settle s.ctx = d) :
    exec .multiLineReadOutcome s = .next { s with dev := d } :=
  (exec_multiLineReadOutcome hop).trans (congrArg _ (State.engines_eq _ _ (by rw [he, hd])))

theorem Device.readLines_plan {c : Ctx} {d : Device} (lines : List Line) (hj : d.reclaim.job = .planRead) :
    d.readLines c .reclaim lines = d.planned c lines := by
  unfold Device.readLines Device.reclaimRead
  rw [hj]

/-- Settles O41: the order of work, the choices, and the plan. -/
theorem reclaimTakesUpWork : Obligations.ReclaimTakesUpWork := by
  refine ⟨⟨fun s hrest h => ?nothing,
      fun s generation hsteady hfree hn hs hj hm hr hg => ⟨fun b bs count hb hcount => ?blank, fun b bs hb he => ?listed⟩,
      fun s x w hfree hn hs hj hm hr hv hq he hb ho hx hst hw hf hmem hc hfit hfc hd => ?noSpace⟩,
    ⟨fun s b hsteady hfree hn hs hcommit hj hv hm hr hb he hq hfc hspace => ?space, fun d b hspace candidate hcand => ?choice⟩,
    fun s v first count hsteady hn hj hv halone => ?held,
    fun s v hsteady hfree hn hs hj hm hr hb he hv hp => ?again,
    fun s v records first count hsteady hn hj hv halone hrec => ?planned⟩
  case nothing => exact exec_reclaimTakeUpWork (Device.takeWork_nothing h) (Device.settle_atRest _ _ hrest)
  case blank =>
    subst hcount
    refine exec_reclaimTakeUpWork ((Device.takeWork_erase hn hs hj hm hr).trans (Device.takeErase_blank hg hb))
      (Device.settle_granted_reclaim hn (Device.noWake_of_steady _ ⟨hsteady.command, fun _ hy => nomatch hy⟩) hfree rfl)
  case listed =>
    exact exec_reclaimTakeUpWork ((Device.takeWork_erase hn hs hj hm hr).trans (Device.takeErase_listed hb he))
      (Device.settle_granted_reclaim hn (Device.noWake_of_steady _ ⟨hsteady.command, fun _ hy => nomatch hy⟩) hfree rfl)
  case noSpace =>
    have hnone := Device.chooseVictim_none (c := s.ctx) (Device.urgent_of hx hst hw) hd
    have htake : s.dev.takeWork s.ctx = s.dev.executingEnded x .noSpace 0 := by
      rw [Device.takeWork_erase hn (.inl hs) hj hm hr, Device.takeErase_victim hb he, Device.takeVictim_reports hv hq hnone,
        ← Device.endCommand_eq _ _ hx hc hmem]
      exact Device.reportNoSpace_ends (Device.waitingSpan_of hx hst hw) he hb hd hfit ho hfc
    refine exec_reclaimTakeUpWork htake (Device.settle_atRest _ _
      (Device.executingEnded_atRest hfree.command hfree.reclaim hfree.mount hfree.erase fun y hy => ?_))
    rw [hj] at hy
    cases hy
  case space =>
    have hurgent : s.dev.urgent = false := decide_eq_false hsteady.phase
    have htake : s.dev.takeWork s.ctx = s.dev.beginVictim b false := by
      rw [Device.takeWork_erase hn hs hj hm hr, Device.takeErase_victim hb he,
        Device.takeVictim_begins hv hq (Device.chooseVictim_space hcommit hurgent hq hfc hspace)]
    exact exec_reclaimTakeUpWork htake
      (Device.settle_granted_reclaim hn (Device.noWake_of_steady _ ⟨hsteady.command, fun _ hy => nomatch hy⟩) hfree rfl)
  case choice =>
    have hmem (c : BankId) : c ∈ _ ↔ candidate c := Device.mem_spaceBanks.trans (hcand c).symm
    obtain ⟨hb, hsus, hclean⟩ := Device.mostDead_spec hspace
    exact ⟨(hmem b).mp hb, fun h c hc => hsus h c ((hmem c).mpr hc), fun h c hc => hclean h c ((hmem c).mpr hc)⟩
  case held =>
    have hfree := halone.free
    refine exec_read_ends halone.op ((Device.readLines_plan (d := s.dev.opDone) _ hj).trans (if_pos hn)) (Device.settle_atRest _ _ ?_)
    exact ⟨hfree.command, hfree.reclaim, hfree.mount, hsteady.command, fun _ hy => (nomatch hy),
      fun e he => by cases hfree.erase.symm.trans he⟩
  case again =>
    have htake : s.dev.takeWork s.ctx = (s.dev.setJob .planRead).request .reclaim (.read v.bank 3 125) := by
      rw [Device.takeWork_erase hn hs hj hm hr, Device.takeErase_victim hb he]
      unfold Device.takeVictim Device.resumeVictim
      rw [hv]
      dsimp only
      rw [hp]
      rfl
    exact exec_reclaimTakeUpWork htake
      (Device.settle_granted_reclaim hn (Device.noWake_of_steady _ ⟨hsteady.command, fun _ hy => nomatch hy⟩) hfree rfl)
  case planned =>
    subst hrec
    obtain ⟨planned, hplan⟩ : ∃ p, p = s.dev.plan v (parseJournal (s.flash.lines v.bank first count)).records := ⟨_, rfl⟩
    have hread : s.dev.opDone.readLines s.ctx .reclaim (s.flash.lines v.bank first count) =
        Device.walk { s.dev with
          reclaim := { s.dev.reclaim with victim := some planned }, fc := { s.dev.fc with op := none } } := by
      rw [Device.readLines_plan (d := s.dev.opDone) _ hj, Device.planned, if_neg (by simp [State.ctx, hn]), Device.opDone_reclaim, hv,
        hplan]
      rfl
    obtain ⟨dir, group, reclaim, q, hwalk, hreclaim⟩ := Device.walk_requests (d := { s.dev with
      reclaim := { s.dev.reclaim with victim := some planned }, fc := { s.dev.fc with op := none } }) rfl
    refine ⟨planned, _, q, ?_, fun e he => ?_, fun g hg => ?_, rfl, by rw [hwalk], ?_⟩
    · have hsame : planned = { v with
          point := .copying, cursor := 0, committedSince := [], lower := planned.lower, grouped := planned.grouped
          walk := s.dev.walkList (parseJournal (s.flash.lines v.bank first count)).records } := by
        rw [hplan]
        rfl
      refine hsame.trans (congrArg (fun walk : List WalkRecord => ({ v with
          point := .copying, cursor := 0, committedSince := [], lower := planned.lower, grouped := planned.grouped
          walk := walk } : Victim)) (List.map_congr_left fun r _ => ?_))
      obtain ⟨line, ⟨key, kind, cls, length, seq, gid⟩, verdict, payload⟩ := r
      cases verdict with
      | torn => rfl
      | damaged => rfl
      | intact =>
        cases gid with
        | none => rfl
        | some g => exact congrArg (WalkRecord.mk line _) (s.dev.walkVerdict_tagged rfl)
    · rw [hplan, Device.plan_lower he, lowerCount_eq]
    · rw [hplan, Device.plan_grouped hg, groupedCount_eq]
    · rw [hwalk] at hread ⊢
      exact exec_read_ends halone.op hread
        (Device.settle_granted_reclaim hn (Device.noWake_of_steady _ ⟨hsteady.command, hreclaim⟩) halone.free rfl)

end Sys2Proof.Machine
end

section
/-! What mount builds from the records its scan found (R152 to R159): the Commit Table, the Bank Table, the level, the counters. -/
namespace Sys2Proof.Machine
open Sys2Proof

/-! ## The counters (R36) -/

theorem foldl_max_bounds (ns : List Nat) (n : Nat) :
    n ≤ ns.foldl max n ∧ (∀ m ∈ ns, m ≤ ns.foldl max n) ∧ (ns.foldl max n = n ∨ ns.foldl max n ∈ ns) := by
  induction ns generalizing n with
  | nil => simp
  | cons m ns ih =>
    obtain ⟨hle, hall, hor⟩ := ih (max n m)
    rw [List.foldl_cons]
    refine ⟨by omega, fun k hk => ?_, ?_⟩
    · rcases List.mem_cons.mp hk with rfl | hk
      · omega
      · exact hall k hk
    · rcases hor with h | h
      · rcases Nat.le_total n m with hnm | hnm
        · exact .inr (by rw [h, Nat.max_eq_right hnm]; exact List.mem_cons_self ..)
        · exact .inl (by rw [h, Nat.max_eq_left hnm])
      · exact .inr (List.mem_cons_of_mem _ h)

theorem le_highest {ns : List Nat} {n : Nat} (h : n ∈ ns) : n ≤ highest ns := (foldl_max_bounds ns 0).2.1 n h

/-- A counter that starts one above the highest number met starts at 1, or above one met. -/
theorem highest_succ (ns : List Nat) : highest ns + 1 = 1 ∨ ∃ n ∈ ns, n + 1 = highest ns + 1 :=
  (foldl_max_bounds ns 0).2.2.imp (congrArg (· + 1)) fun h => ⟨_, h, rfl⟩

theorem mem_foundSeqs {scans : List ScanBank} {n : Nat} :
    n ∈ (foundIn scans).map (fun f => f.header.seq) ↔ ∃ x ∈ scans, ∃ r ∈ x.records, r.header.seq = n := by
  simp [foundIn, ScanBank.found]

/-! ## The newest record (R154) -/

/-- The order of R154's Selection. -/
theorem ranks_newer : Ranks Found.newer where
  asymm x y h := by
    unfold Found.newer at *
    simp only [Bool.or_eq_true, Bool.and_eq_true, decide_eq_true_eq, Bool.or_eq_false_iff, Bool.and_eq_false_imp,
      decide_eq_false_iff_not] at *
    omega
  trans x y z h k := by
    unfold Found.newer at *
    simp only [Bool.or_eq_false_iff, Bool.and_eq_false_imp, decide_eq_true_eq, decide_eq_false_iff_not] at *
    omega

theorem Found.not_newer {f h : Found} (hn : h.newer f = false) :
    h.header.seq < f.header.seq ∨ (h.header.seq = f.header.seq ∧
      (h.epoch < f.epoch ∨ (h.epoch = f.epoch ∧ h.loc.line ≤ f.loc.line))) := by
  unfold Found.newer at hn
  simp only [Bool.or_eq_false_iff, Bool.and_eq_false_imp, decide_eq_true_eq, decide_eq_false_iff_not] at hn
  omega

/-! ## The Commit Table (R155) -/

theorem mem_putNat {n x : Nat} {l : List Nat} : x ∈ putNat n l ↔ x = n ∨ x ∈ l := by
  induction l with
  | nil => simp [putNat]
  | cons y l ih =>
    unfold putNat
    split
    · simp
    · split
      · rename_i h
        simp [h]
      · rw [List.mem_cons, ih, List.mem_cons, or_left_comm]

theorem putNat_rising (n : Nat) {l : List Nat} (h : l.Pairwise (· < ·)) : (putNat n l).Pairwise (· < ·) := by
  induction l with
  | nil => simp [putNat]
  | cons y l ih =>
    obtain ⟨hy, hl⟩ := List.pairwise_cons.mp h
    unfold putNat
    split
    · rename_i hlt
      refine List.pairwise_cons.mpr ⟨fun x hx => ?_, h⟩
      rcases List.mem_cons.mp hx with rfl | hx
      · exact hlt
      · exact Nat.lt_trans hlt (hy x hx)
    · split
      · exact h
      · refine List.pairwise_cons.mpr ⟨fun x hx => ?_, ih hl⟩
        rcases mem_putNat.mp hx with rfl | hx
        · omega
        · exact hy x hx

/-- The committed group ids, ascending and each once. -/
theorem sortedIds (ids : List Nat) :
    (ids.foldl (fun acc g => putNat g acc) []).Pairwise (· < ·) ∧ ∀ g ∈ ids, g ∈ ids.foldl (fun acc g => putNat g acc) [] := by
  have h (ids acc : List Nat) (ha : acc.Pairwise (· < ·)) : (ids.foldl (fun acc g => putNat g acc) acc).Pairwise (· < ·) ∧
      ∀ g, g ∈ ids ∨ g ∈ acc → g ∈ ids.foldl (fun acc g => putNat g acc) acc := by
    induction ids generalizing acc with
    | nil => exact ⟨ha, fun g hg => hg.resolve_left (List.not_mem_nil)⟩
    | cons n ids ih =>
      obtain ⟨hp, hm⟩ := ih (putNat n acc) (putNat_rising n ha)
      refine ⟨hp, fun g hg => hm g ?_⟩
      rcases hg with hg | hg
      · exact (List.mem_cons.mp hg).elim (fun h => .inr (mem_putNat.mpr (.inl h))) .inl
      · exact .inr (mem_putNat.mpr (.inr hg))
  obtain ⟨hp, hm⟩ := h ids [] .nil
  exact ⟨hp, fun g hg => hm g (.inl hg)⟩

/-- The entry of a group in the Commit Table. -/
theorem mountCommit_eq_some {counting : List Found} {gid : Nat} {c : CommitEntry} (h : mountCommit counting gid = some c) :
    c.gid = gid ∧ 1 ≤ c.remaining ∧
    c.remaining = ((validFound counting).filter fun f => Decidable.decide (f.header.gid = some gid)).length ∧
    ∃ f ∈ validFound counting, f.header.kind = .commit ∧ commitGid f.payload = gid ∧ f.loc = c.loc ∧
      commitMembers f.payload = c.memberCount ∧
      ∀ h ∈ validFound counting, h.header.kind = .commit → commitGid h.payload = gid → h.newer f = false := by
  unfold mountCommit at h
  dsimp only at h
  split at h
  · cases h
  · rename_i hn
    obtain ⟨f, hf, rfl⟩ := Option.map_eq_some_iff.mp h
    obtain ⟨hmem, hkind, hgid⟩ : f ∈ validFound counting ∧ f.header.kind = .commit ∧ commitGid f.payload = gid := by
      simpa [List.mem_filter] using pick_mem _ _ _ hf
    exact ⟨rfl, Nat.pos_of_ne_zero hn, rfl, f, hmem, hkind, hgid, rfl, rfl,
      fun g hg hk hi => pick_best ranks_newer hf (List.mem_filter.mpr ⟨hg, by simp [hk, hi]⟩)⟩

/-- A committed group with a valid record has an entry. -/
theorem mountCommit_isSome {counting : List Found} {f h : Found} {gid : Nat} (hf : f ∈ validFound counting)
    (hk : f.header.kind = .commit) (hg : commitGid f.payload = gid) (hh : h ∈ validFound counting) (hh' : h.header.gid = some gid) :
    ∃ c, mountCommit counting gid = some c := by
  have hn : ((validFound counting).filter fun f => Decidable.decide (f.header.gid = some gid)).length ≠ 0 :=
    Nat.ne_of_gt (List.length_pos_of_mem (List.mem_filter.mpr ⟨hh, decide_eq_true hh'⟩))
  have hp : (pick Found.newer <| (validFound counting).filter fun f =>
      Decidable.decide (f.header.kind = .commit) && Decidable.decide (commitGid f.payload = gid)) ≠ none := by
    rw [Ne, pick_eq_none]
    exact List.ne_nil_of_mem (List.mem_filter.mpr ⟨hf, by simp [hk, hg]⟩)
  obtain ⟨g, hg⟩ := Option.ne_none_iff_exists'.mp hp
  unfold mountCommit
  dsimp only
  rw [if_neg hn, hg]
  exact ⟨_, rfl⟩

theorem mountCommits_rising (counting : List Found) : (mountCommits counting).Pairwise fun x y => x.gid < y.gid := by
  unfold mountCommits
  rw [List.pairwise_filterMap]
  refine (sortedIds _).1.imp fun {a b} hab x hx y hy => ?_
  rw [(mountCommit_eq_some hx).1, (mountCommit_eq_some hy).1]
  exact hab

theorem mem_mountCommits {counting : List Found} {c : CommitEntry} (h : c ∈ mountCommits counting) :
    mountCommit counting c.gid = some c := by
  obtain ⟨gid, _, hc⟩ := List.mem_filterMap.mp h
  rw [(mountCommit_eq_some hc).1]
  exact hc

theorem mem_validFound {counting : List Found} {f : Found} (h : f ∈ validFound counting) : f ∈ counting ∧ f.verdict = .intact := by
  obtain ⟨hm, hv⟩ := List.mem_filter.mp h
  exact ⟨hm, by simpa using (Bool.and_eq_true_iff.mp hv).1⟩

/-- Every committed group with a valid record is entered, before the table is cut to its eight entries. -/
theorem mountCommits_complete {counting : List Found} {f h : Found} {gid : Nat} (hf : f ∈ validFound counting)
    (hk : f.header.kind = .commit) (hg : commitGid f.payload = gid) (hh : h ∈ validFound counting) (hh' : h.header.gid = some gid) :
    ∃ c ∈ mountCommits counting, c.gid = gid := by
  obtain ⟨c, hc⟩ := mountCommit_isSome hf hk hg hh hh'
  obtain ⟨hmem, hv⟩ := mem_validFound hf
  have hid : gid ∈ committedIds counting :=
    hg ▸ List.mem_map_of_mem (f := fun f : Found => commitGid f.payload) (List.mem_filter.mpr ⟨hmem, by simp [hv, hk]⟩)
  exact ⟨c, List.mem_filterMap.mpr ⟨gid, (sortedIds _).2 gid hid, hc⟩, (mountCommit_eq_some hc).1⟩

/-- What a cut leaves out of a rising list comes after all that it keeps. -/
theorem mem_take_or {α : Type} {r : α → α → Prop} {l : List α} (h : l.Pairwise r) {a : α} (ha : a ∈ l) (n : Nat) :
    a ∈ l.take n ∨ (n < l.length ∧ (l.take n).length = n ∧ ∀ x ∈ l.take n, r x a) := by
  rw [← List.take_append_drop n l] at ha h
  rcases List.mem_append.mp ha with ha | ha
  · exact .inl ha
  · have hlt : n < l.length := by
      have := List.length_pos_of_mem ha
      rw [List.length_drop] at this
      omega
    exact .inr ⟨hlt, by rw [List.length_take]; omega, fun x hx => (List.pairwise_append.mp h).2.2 x hx a ha⟩

/-! ## The level and the bank map mark (R41, R157) -/

theorem mapOutdated_iff {taken : Option Found} {counting : List Found} :
    mapOutdated taken counting = true ↔ ∃ f ∈ counting, f.header.key = 0xFF02 ∧ f.verdict ≠ .torn ∧
      ∀ t, taken = some t → t.header.seq < f.header.seq := by
  unfold mapOutdated
  rw [List.any_eq_true]
  refine exists_congr fun f => and_congr_right fun _ => ?_
  simp only [Bool.and_eq_true, decide_eq_true_eq, Option.all_eq_true, and_assoc]
  exact Iff.rfl

/-- Without a lock record the level is OPEN. -/
theorem mountLevel_absent {dir : List DirEntry} {counting : List Found}
    (he : dir.find? (fun e => Decidable.decide (e.key = Config.lockKey)) = none) : mountLevel dir counting = .opened := by
  rw [mountLevel, he]

/-- The level is that of the record at the lock entry's location. -/
theorem mountLevel_at {dir : List DirEntry} {counting : List Found} {e : DirEntry} {f : Found}
    (he : dir.find? (fun e => Decidable.decide (e.key = Config.lockKey)) = some e) (hf : f ∈ counting) (hl : e.loc = some f.loc)
    (hu : ∀ g ∈ counting, g.loc = f.loc → g = f) : mountLevel dir counting = LockLevel.ofNumber (natOf f.payload) := by
  have hfind : counting.find? (fun f => Decidable.decide (some f.loc = e.loc)) = some f := by
    cases hg : counting.find? (fun f => Decidable.decide (some f.loc = e.loc)) with
    | none => simpa [hl] using List.find?_eq_none.mp hg f hf
    | some g =>
      have hloc : some g.loc = e.loc := by simpa using List.find?_some hg
      rw [hl] at hloc
      rw [hu g (List.mem_of_find?_eq_some hg) (Option.some.inj hloc)]
  unfold mountLevel
  rw [he]
  dsimp only
  rw [hfind]

/-! ## The Bank Table (R156, R157, R158) -/

/-- The entry of a bank that counts, its journal the only one of that bank. -/
theorem mountBanks_counting {rows : List CensusRow} {bad : List BankId} {counts : List ScanBank} {dir : List DirEntry}
    {commits : List CommitEntry} {valid : List Found} {y : ScanBank} (hn : (counts.map fun y => y.bank).Nodup) (hy : y ∈ counts) :
    (mountBanks rows bad counts dir commits valid).get y.bank =
      countingEntry (censusRow rows y.bank) dir commits valid (Decidable.decide (mountActive counts = some y.bank)) y := by
  have hfind : counts.find? (fun s => Decidable.decide (s.bank = y.bank)) = some y := by
    cases hz : counts.find? (fun s => Decidable.decide (s.bank = y.bank)) with
    | none => simpa using List.find?_eq_none.mp hz y hy
    | some z =>
      have hb : z.bank = y.bank := by simpa using List.find?_some hz
      rw [List.inj_on_of_nodup_map hn (List.mem_of_find?_eq_some hz) hy hb]
  have hget : (mountBanks rows bad counts dir commits valid).get y.bank =
      (mountBanks rows bad counts dir commits valid)[y.bank.val] := rfl
  rw [hget, mountBanks, Vector.getElem_ofFn, hfind]

/-- The entry of a bank none of whose journals counts. -/
theorem mountBanks_other {rows : List CensusRow} {bad : List BankId} {counts : List ScanBank} {dir : List DirEntry}
    {commits : List CommitEntry} {valid : List Found} {x : BankId} (h : ∀ y ∈ counts, y.bank ≠ x) :
    (mountBanks rows bad counts dir commits valid).get x =
      otherEntry (currentGeneration rows) (bad.contains x) (censusRow rows x) := by
  have hfind : counts.find? (fun s => Decidable.decide (s.bank = x)) = none :=
    List.find?_eq_none.mpr fun y hy => by simpa using h y hy
  have hget : (mountBanks rows bad counts dir commits valid).get x = (mountBanks rows bad counts dir commits valid)[x.val] := rfl
  rw [hget, mountBanks, Vector.getElem_ofFn, hfind]

/-- A bank that does not count has no lines used, and none dead, tagged or suspect. -/
theorem otherEntry_counts (current : Option Nat) (bad : Bool) (row : CensusRow) :
    (otherEntry current bad row).used = 0 ∧ (otherEntry current bad row).dead = 0 ∧ (otherEntry current bad row).tagged = 0 ∧
      (otherEntry current bad row).suspect = false := by
  unfold otherEntry
  split
  · exact ⟨rfl, rfl, rfl, rfl⟩
  · split <;> exact ⟨rfl, rfl, rfl, rfl⟩

/-- The bank of the highest epoch is ACTIVE when its append position is at most 127 (R158). -/
theorem mountActive_iff {counts : List ScanBank} {y : ScanBank} (hn : (counts.map fun y => y.bank).Nodup) (hy : y ∈ counts)
    (hu : ∀ z ∈ counts, z = y ∨ z.epoch ≠ y.epoch) :
    mountActive counts = some y.bank ↔ y.append ≤ 127 ∧ ∀ z ∈ counts, z.epoch ≤ y.epoch := by
  have hranks : Ranks fun a b : ScanBank => Decidable.decide (b.epoch < a.epoch) := by
    refine ⟨fun a b h => ?_, fun a b c h k => ?_⟩
    all_goals simp only [decide_eq_true_eq, decide_eq_false_iff_not] at *; omega
  obtain ⟨z, hz⟩ : ∃ z, pick (fun a b : ScanBank => Decidable.decide (b.epoch < a.epoch)) counts = some z :=
    Option.ne_none_iff_exists'.mp fun h => List.ne_nil_of_mem hy (pick_eq_none.mp h)
  have hmem := pick_mem _ _ _ hz
  have hmax (x : ScanBank) (hx : x ∈ counts) : x.epoch ≤ z.epoch := by
    have := pick_best hranks hz hx
    simp only [decide_eq_false_iff_not] at this
    omega
  unfold mountActive
  rw [hz, Option.filter_some]
  constructor
  · intro h
    by_cases ha : z.append ≤ 127
    · rw [if_pos (decide_eq_true ha), Option.map_some, Option.some.injEq] at h
      obtain rfl := List.inj_on_of_nodup_map hn hmem hy h
      exact ⟨ha, hmax⟩
    · rw [if_neg (by simpa using ha)] at h
      cases h
  · rintro ⟨ha, hall⟩
    obtain rfl : z = y := (hu z hmem).resolve_right fun h => h (Nat.le_antisymm (hall z hmem) (hmax y hy))
    rw [if_pos (decide_eq_true ha), Option.map_some]

theorem neededAt_eq (dir : List DirEntry) (commits : List CommitEntry) (loc : Location) :
    neededAt dir commits loc =
      Decidable.decide ((∃ e ∈ dir, e.state ≠ .damaged ∧ e.loc = some loc) ∨ ∃ g ∈ commits, g.loc = loc) := by
  rw [Bool.eq_iff_iff]
  simp [neededAt]

/-- The entry of a bank that counts, as the statements write it. -/
theorem countingEntry_eq {row : CensusRow} {dir : List DirEntry} {commits : List CommitEntry} {valid needed : List Found}
    {active : Bool} {y : ScanBank}
    (hneeded : needed = y.found.filter fun f =>
      Decidable.decide ((∃ e ∈ dir, e.state ≠ .damaged ∧ e.loc = some f.loc) ∨ ∃ g ∈ commits, g.loc = f.loc)) :
    countingEntry row dir commits valid active y =
      { state := if active then .active else .full
        epoch := some y.epoch
        eraseCount := row.eraseCount
        used := y.append - 3
        dead := (y.append - 3 - (needed.map fun f => 2 + (f.header.length + 15) / 16).sum) +
          if active then 0 else 125 - (y.append - 3)
        tagged := (valid.filter fun f =>
          Decidable.decide (f.loc.bank = y.bank ∧ ∃ g ∈ commits, f.header.gid = some g.gid)).length
        suspect := false } := by
  have hlines : neededLines dir commits y = (needed.map fun f => 2 + (f.header.length + 15) / 16).sum := by
    rw [hneeded]
    unfold neededLines
    simp only [neededAt_eq]
    rfl
  have htagged (f : Found) : (Decidable.decide (f.loc.bank = y.bank) &&
      f.header.gid.any fun g => commits.any fun (c : CommitEntry) => Decidable.decide (c.gid = g)) =
      Decidable.decide (f.loc.bank = y.bank ∧ ∃ g ∈ commits, f.header.gid = some g.gid) := by
    rw [Bool.eq_iff_iff]
    cases f.header.gid with
    | none => simp
    | some g =>
      simp only [Option.any_some, Bool.and_eq_true, decide_eq_true_eq, List.any_eq_true, Option.some.injEq, eq_comm (a := g)]
  unfold countingEntry
  dsimp only
  rw [hlines]
  simp only [htagged]
  cases active <;> rfl

/-! ## The end of the scan (R152, R159) -/

theorem Device.mountRead_last {d : Device} {rows : List CensusRow} {b : BankId} {epoch : Nat} {done : List ScanBank}
    (lines : List Line) (hm : d.mount = .scan rows [(b, epoch)] done) :
    d.mountRead lines = d.finishMount rows (done ++
      [{ bank := b, epoch := epoch, append := (parseJournal lines).append, records := (parseJournal lines).records }]) := by
  unfold Device.mountRead
  rw [hm]
  rfl

/-- What the end of the scan puts in the tables: from the journals of the opened banks, and of these the ones that count. -/
structure Device.Built (d : Device) (rows : List CensusRow) (scans opened counts : List ScanBank) : Prop where
  generation : d.generation = currentGeneration rows
  nextSeq : d.nextSeq = highest ((foundIn scans).map fun f => f.header.seq) + 1
  nextEpoch : d.nextEpoch = highest (scans.map ScanBank.epoch) + 1
  commits : d.commits = (mountCommits (foundIn counts)).take 8
  overflow : 8 < (mountCommits (foundIn counts)).length → d.causes.commit = true
  mapDue : d.reclaim.mapDue = mapOutdated (bankMapTaken opened) (foundIn counts)
  level : d.level = mountLevel d.dir (foundIn counts)
  banks : d.banks = mountBanks rows (banksListed (bankMapTaken opened)) counts d.dir d.commits (validFound (foundIn counts))

theorem Device.finishMount_built (d : Device) (rows : List CensusRow) (scans : List ScanBank) :
    (d.finishMount rows scans).Built rows scans (openedScans rows scans)
      ((openedScans rows scans).filter fun x => !(banksListed (bankMapTaken (openedScans rows scans))).contains x.bank) where
  generation := rfl
  nextSeq := rfl
  nextEpoch := rfl
  commits := rfl
  overflow h := Bool.or_eq_true_iff.mpr (.inr (decide_eq_true h))
  mapDue := rfl
  level := rfl
  banks := rfl

theorem Device.finishMount_job (d : Device) (rows : List CensusRow) (scans : List ScanBank) :
    (d.finishMount rows scans).reclaim.job = d.reclaim.job := by
  simp only [Device.finishMount, Device.handOff]

/-- At the end of the scan no engine waits, as none did before. -/
theorem Device.finishMount_atRest {d : Device} (h : d.Steady) (hfc : d.fc.Free) (rows : List CensusRow) (scans : List ScanBank) :
    (d.finishMount rows scans).AtRest where
  command := hfc.command
  reclaim := hfc.reclaim
  mount := hfc.mount
  steady := h.command
  writer w hw := h.writer w (by rwa [Device.finishMount_job] at hw)
  erase e he := by
    have hfc' : (d.finishMount rows scans).fc = d.fc := rfl
    rw [hfc', hfc.erase] at he
    cases he

/-- Settles O49: each table by what the scan found. -/
theorem mountBuildsBanks : Obligations.MountBuildsBanks := by
  intro s rows b c epoch first count done scans opened counts counting valid hsteady hm halone hscans hopened hcounts hcounting hvalid
  have hread : s.dev.opDone.readLines s.ctx .mount (s.flash.lines c first count) = s.dev.opDone.finishMount rows scans := by
    rw [hscans]
    exact Device.mountRead_last (d := s.dev.opDone) _ hm
  have hexec : exec .multiLineReadOutcome s = .next { s with dev := s.dev.opDone.finishMount rows scans } :=
    exec_read_ends halone.op hread (Device.settle_atRest _ _
      (Device.finishMount_atRest (d := s.dev.opDone) ⟨hsteady.command, hsteady.writer⟩ halone.free rows scans))
  have hbuilt : (s.dev.opDone.finishMount rows scans).Built rows scans opened counts := by
    rw [hcounts, hopened]
    exact Device.finishMount_built _ rows scans
  have hgroup : (s.dev.opDone.finishMount rows scans).group = s.dev.group := rfl
  generalize s.dev.opDone.finishMount rows scans = d at hexec hbuilt hgroup
  obtain ⟨hgeneration, hnextSeq, hnextEpoch, hcommits, hoverflow, hmapDue, hlevel, hbanks⟩ := hbuilt
  rw [← hcounting] at hcommits hoverflow hmapDue hlevel hbanks
  rw [← hvalid] at hbanks
  have hbank (x : BankId) : d.bank x =
      (mountBanks rows (banksListed (bankMapTaken opened)) counts d.dir d.commits valid).get x := by rw [Device.bank, hbanks]
  have hrising := mountCommits_rising counting
  refine ⟨d, hexec, hgeneration, hgroup, fun x hx => ⟨?epochs, fun f hf => ?seqs⟩, ?nextEpoch, ?nextSeq, fun x hx => ?commits,
    ?length, ?rising, fun f hf gid hk hg hh => ?complete, ?mapDue, fun he => ?noLock, fun e he f hf hl hu => ?lock,
    fun x hx => ?other, fun hn y needed active hy hneeded hu hactive => ?counts⟩
  case epochs => exact hnextEpoch ▸ Nat.lt_succ_of_le (le_highest (List.mem_map_of_mem hx))
  case seqs => exact hnextSeq ▸ Nat.lt_succ_of_le (le_highest (mem_foundSeqs.mpr ⟨x, hx, f, hf, rfl⟩))
  case nextEpoch =>
    rw [hnextEpoch]
    refine (highest_succ (scans.map ScanBank.epoch)).imp id fun ⟨n, hn, he⟩ => ?_
    obtain ⟨x, hx, rfl⟩ := List.mem_map.mp hn
    exact ⟨x, hx, he⟩
  case nextSeq =>
    rw [hnextSeq]
    refine (highest_succ ((foundIn scans).map fun f => f.header.seq)).imp id fun ⟨n, hn, he⟩ => ?_
    obtain ⟨x, hx, f, hf, rfl⟩ := mem_foundSeqs.mp hn
    exact ⟨x, hx, f, hf, he⟩
  case commits =>
    rw [hcommits] at hx
    subst hvalid
    obtain ⟨_, hpos, hrem, f, hf, hk, hg, hl, hc, hnew⟩ := mountCommit_eq_some (mem_mountCommits (List.mem_of_mem_take hx))
    exact ⟨hpos, hrem, f, hf, hk, hg, hl, hc, fun h hh hk hi => Found.not_newer (hnew h hh hk hi)⟩
  case length => exact hcommits ▸ List.length_take_le _ _
  case rising => exact hcommits ▸ hrising.sublist (List.take_sublist _ _)
  case complete =>
    subst hvalid
    obtain ⟨h, hh, hh'⟩ := hh
    obtain ⟨x, hx, rfl⟩ := mountCommits_complete hf hk hg.symm hh hh'
    rw [hcommits]
    exact (mem_take_or hrising hx 8).imp (fun hx => ⟨x, hx, rfl⟩) fun ⟨hlt, hlen, hall⟩ => ⟨hoverflow hlt, hlen, hall⟩
  case mapDue => exact hmapDue ▸ mapOutdated_iff
  case noLock => rw [hlevel, mountLevel_absent he]
  case lock =>
    rw [hlevel, mountLevel_at he hf hl hu]
    exact ⟨fun h => h ▸ rfl, fun h => h ▸ rfl⟩
  case other =>
    rw [hbank, mountBanks_other hx]
    refine ⟨fun h => ?_, fun h => ?_, otherEntry_counts _ _ _⟩
    · rw [h]
      rfl
    · rw [h, otherEntry]
      cases (censusRow rows x).classify (currentGeneration rows) <;> rfl
  case counts =>
    have hactive' : Decidable.decide (mountActive counts = some y.bank) = active := by
      rw [hactive, decide_eq_decide]
      exact mountActive_iff hn hy hu
    rw [hbank, mountBanks_counting hn hy, hactive', countingEntry_eq hneeded]

end Sys2Proof.Machine
end

section
/-! Every step keeps the order of the Directory (R44), and the state after reset has the laws (R44, R67, R71, R179, R194). -/
namespace Sys2Proof.Machine
open Sys2Proof

/-- The order of the Directory speaks of the Directory alone. -/
theorem Device.ordered_congr {d e : Device} (h : e.dir = d.dir) : e.ordered ↔ d.ordered := by
  unfold Device.ordered
  rw [h]

/-- An event of the engines that keeps the order is followed by the end of its step, which keeps it too. -/
theorem State.engines_ord {s : State} {f : Device → Device} (hf : (f s.dev).ordered) : (s.engines f).dev.ordered :=
  Device.settle_ord _ _ hf

/-! ## Window bytes (R191 to R197) -/

theorem State.windowWrite_ord (s : State) (a : Addr) (act : State → State) (h : s.dev.ordered)
    (hact : s.byteTaken.dev.ordered → (act s.byteTaken).dev.ordered) : (s.windowWrite a act).dev.ordered := by
  rcases s.windowWrite_cases a act with he | ⟨port, he⟩ <;> rw [he]
  · exact hact h
  · exact h

theorem Device.post_dir (d : Device) (q : Descriptor) : (d.post q).dir = d.dir := by
  unfold Device.post Device.accept
  repeat' split
  all_goals rfl

theorem State.go_ord (s : State) (code : Option CommandCode) (h : s.dev.ordered) : (s.go code).dev.ordered := by
  unfold State.go
  split
  · exact s.windowWrite_ord _ _ h (Device.ordered_congr (Device.post_dir _ _)).mpr
  · exact h

theorem State.storeRegister_dir (a : Addr) (v : Byte) (s : State) : (s.storeRegister a v).dev.dir = s.dev.dir := by
  unfold State.storeRegister
  repeat' split
  all_goals rfl

theorem Device.portReset_ord (d : Device) (h : d.ordered) : d.portReset.ordered :=
  (Device.ordered_congr (d := d.endOpenGroup) rfl).mpr (Device.endOpenGroup_ord d h)

/-! ## Power and resets (R179 to R186, R198) -/

theorem State.resetTo_ord (s : State) (cut : CutShort) (p : Bool) (mv : Nat) : (s.resetTo cut p mv).dev.ordered := by
  refine State.engines_ord (f := id) ?_
  have hi : Device.initial.ordered := List.Pairwise.nil
  change (resetDevice (resetPower p mv).warning).ordered
  unfold resetDevice
  split
  · exact hi
  · exact Device.beginMount_ord _ hi

theorem State.enterWarning_ord (s : State) (entry : WarningEntry) (h : s.dev.ordered) : (s.enterWarning entry).dev.ordered := by
  refine State.engines_ord ?_
  split
  · exact Device.warnBetween_ord _ _ h
  · exact Device.warn_ord _ h

theorem State.judgePower_ord (s : State) (entry : WarningEntry) (h : s.dev.ordered) : (s.judgePower entry).dev.ordered := by
  cases ha : powerAsserted s.cfg s.power with
  | false => rwa [State.judgePower_quiet _ _ ha]
  | true =>
    cases hw : s.power.warning with
    | true => rwa [State.judgePower_again _ _ ha hw]
    | false => rw [State.judgePower_enters _ _ ha hw]; exact s.enterWarning_ord entry h

theorem State.levels_ord (s : State) (low : Bool) (mv : Nat) (cut : CutShort) (between : Bool) (h : s.dev.ordered) :
    (s.levels low mv cut between).dev.ordered := by
  by_cases hv : mv < 1600 ∨ s.power.vdd < 1600
  · rw [s.levels_brownOut _ _ _ _ hv]
    exact s.resetTo_ord cut low mv
  · obtain ⟨hm, hs⟩ := not_or.mp hv
    rw [s.levels_judged _ _ _ _ (Nat.le_of_not_lt hm) (Nat.le_of_not_lt hs)]
    exact State.judgePower_ord _ _ h

theorem State.configure_ord (s : State) (a : Addr) (v : Byte) (entry : WarningEntry) (h : s.dev.ordered) :
    (s.configure a v entry).dev.ordered := by
  unfold State.configure
  dsimp only
  split
  · exact State.judgePower_ord _ _ h
  · exact h

theorem State.recovered_ord (s : State) (h : s.dev.ordered) : s.recovered.dev.ordered :=
  State.engines_ord (Device.recover_ord _ h)

theorem State.tickDebounce_ord (s : State) (h : s.dev.ordered) : s.tickDebounce.dev.ordered := by
  unfold State.tickDebounce
  repeat' split
  · exact h
  · exact h
  · exact s.recovered_ord h
  · exact h

/-! ## One command -/

/-- Every command keeps the order of the Directory. -/
theorem exec_ord (i : Instr) (s t : State) (h : s.dev.ordered) (he : exec i s = .next t) : t.dev.ordered := by
  cases i
  all_goals obtain rfl := Host.Outcome.next.inj he
  case read | write | delete | add | list | openGroup | commitGroup | dropGroup | reclaim | format | raiseLock | codeNamesNoCommand =>
    exact s.go_ord _ h
  case frame | frameEnd | payloadDecay =>
    split <;> exact h
  case bufferDataRead =>
    repeat' split
    all_goals exact h
  case pop | bufferDataWrite | notificationFlagsClear | enableMaskWrite => exact s.windowWrite_ord _ _ h id
  case portReset v =>
    refine s.windowWrite_ord _ _ h fun hb => ?_
    split
    · exact Device.portReset_ord _ hb
    · exact hb
  case configurationWrite a v entry =>
    split
    · exact s.windowWrite_ord _ _ h (State.configure_ord _ a v entry)
    · exact h
  case registerWrite a v =>
    split
    · exact h
    · exact s.windowWrite_ord _ _ h (Device.ordered_congr (State.storeRegister_dir a v _)).mpr
  case takeCommand => exact State.engines_ord (Device.makeStep_ord _ _ (Device.takeHead_ord _ _ h))
  case reclaimTakeUpWork => exact State.engines_ord (Device.takeWork_ord _ _ h)
  case lineProgramOutcome result =>
    split
    · exact State.engines_ord (Device.programmed_ord _ _ _ _ h)
    · exact h
  case bankEraseOutcome remains =>
    repeat' split
    · exact h
    · exact State.engines_ord (Device.erased_ord _ _ _ _ h)
    · exact h
  case multiLineReadOutcome =>
    split
    · exact State.engines_ord (Device.readLines_ord _ _ _ _ h)
    · exact h
  case timebaseTick => exact State.tickDebounce_ord _ (State.engines_ord (Device.tickGroup_ord _ h))
  case groupExpiry =>
    repeat' split
    · exact h
    · exact State.engines_ord (Device.tickGroup_ord _ h)
    · exact h
  case recovery =>
    split
    · exact s.recovered_ord h
    · exact h
  case powerOnReset cut low mv => exact s.resetTo_ord cut low mv
  case pinReset pin cut =>
    cases pin with
    | pulse n =>
      dsimp only
      split
      · exact s.resetTo_ord ..
      · exact h
    | low => exact h
    | rises =>
      dsimp only
      split
      · exact State.resetTo_ord ..
      · exact h
  case powerWarning source cut => cases source <;> exact s.levels_ord _ _ _ _ h
  case powerWarningDeasserted supply => exact s.levels_ord _ _ _ _ h

/-- Settles O59: a step is `exec` of the front command, and every command keeps the order. -/
theorem directoryOrderKept : Obligations.DirectoryOrderKept := by
  intro s t h hstep
  unfold step at hstep
  split at hstep
  · obtain rfl := Host.Outcome.next.inj hstep
    exact h
  · next i rest hp => exact exec_ord i { s with pending := rest } t h hstep

/-- Settles O60: the memories and tables are empty, the queue and the FIFO too, and no source asserts. -/
theorem resetHasTheLaws : Obligations.ResetHasTheLaws := by
  have hmemory : State.reset.memoryWf = true := by
    simp [State.memoryWf, State.reset, Device.initial, Buffer.initial, Store.wf]
  have hconfiguration : State.reset.cfg.inRange := by unfold Configuration.inRange; decide
  have hcredits : State.reset.creditLaw := Nat.zero_le 8
  have hgroup : State.reset.dev.groupLaw := fun _ hg => nomatch hg
  have hpower : State.reset.powerLaw := by unfold State.powerLaw; decide
  exact ⟨⟨hmemory, hconfiguration⟩, hcredits, hgroup, hpower, List.Pairwise.nil⟩

end Sys2Proof.Machine
end

section
/-! The operations of the Directory and of the dead lines (R44, R49, R52, R59): what a key's entry and a bank's entry read after each. -/
namespace Sys2Proof.Machine
open Sys2Proof

/-! ## Entries by key (R44) -/

theorem Device.entry_congr {d e : Device} (h : e.dir = d.dir) (k : Key) : e.entry k = d.entry k := congrArg (List.find? _) h

theorem Device.entry_key {d : Device} {k : Key} {e : DirEntry} (h : d.entry k = some e) : e.key = k :=
  by
  simpa using List.find?_some h

theorem find?_dirPut (e : DirEntry) (k : Key) (l : List DirEntry) :
    (dirPut e l).find? (fun x => x.key = k) = if k = e.key then some e else l.find? fun x => x.key = k := by
  induction l with
  | nil => by_cases hk : k = e.key <;> simp [dirPut, hk, eq_comm]
  | cons x l ih =>
    by_cases hk : k = e.key
    · subst hk
      unfold dirPut
      split
      · simp
      · split
        · simp
        · next hne => simpa [Ne.symm hne] using ih
    · have hek : e.key ≠ k := Ne.symm hk
      unfold dirPut
      split
      · simp [hek]
      · split
        · next hex => simp [hek, ← hex]
        · simp only [List.find?_cons, ih, if_neg hk]

theorem Device.entry_putEntry (d : Device) (e : DirEntry) (k : Key) :
    (d.putEntry e).entry k = if k = e.key then some e else d.entry k := find?_dirPut e k d.dir

theorem Device.entry_removeEntry (d : Device) (k' k : Key) : (d.removeEntry k').entry k = if k = k' then none else d.entry k := by
  unfold Device.removeEntry Device.entry
  rw [List.find?_filter]
  by_cases hk : k = k'
  · simp [hk]
  · rw [if_neg hk]
    congr 1
    funext x
    by_cases hx : x.key = k <;> simp [hx, hk]

@[simp] theorem Device.entry_addDead (d : Device) (b : BankId) (n : Nat) (k : Key) : (d.addDead b n).entry k = d.entry k := rfl

@[simp] theorem Device.entry_setBank (d : Device) (b : BankId) (e : BankEntry) (k : Key) : (d.setBank b e).entry k = d.entry k := rfl

/-! ## Dead lines (R59) -/

/-- The dead lines of one bank rise; the others keep theirs. -/
theorem Device.bank_addDead_rises (d : Device) (b c : BankId) (n : Nat) :
    (d.addDead b n).bank c = { d.bank c with dead := (d.bank c).dead + if b = c then n else 0 } := by
  rw [Device.bank_addDead]
  by_cases h : c = b
  · subst h
    simp
  · simp [h, Ne.symm h]

@[simp] theorem Device.bank_putEntry (d : Device) (e : DirEntry) (b : BankId) : (d.putEntry e).bank b = d.bank b := rfl

@[simp] theorem Device.bank_removeEntry (d : Device) (k : Key) (b : BankId) : (d.removeEntry k).bank b = d.bank b := rfl

@[simp] theorem Device.entry_supersede (d : Device) (e : DirEntry) (k : Key) : (d.supersede e).entry k = d.entry k := by
  obtain ⟨banks, hb⟩ := d.supersede_frame e
  rw [hb]
  rfl

/-- The lines that become dead in a bank when the record of an entry is superseded: none where it was found damaged before (R59). -/
def DirEntry.deadIn (e : DirEntry) (b : BankId) : Nat :=
  if e.state ≠ .damaged ∧ e.loc.any (fun l => decide (l.bank = b)) = true then spanOf e.length else 0

/-- A superseded record's span is dead. -/
theorem Device.bank_supersede (d : Device) (e : DirEntry) (b : BankId) :
    (d.supersede e).bank b = { d.bank b with dead := (d.bank b).dead + e.deadIn b } := by
  unfold Device.supersede DirEntry.deadIn
  split
  · next hs => simp [hs]
  · next hl hs =>
    rw [Device.bank_addDead_rises]
    have hne : e.state ≠ .damaged := hs
    simp [hne, hl]
  · next hl _ => simp [hl]

/-! ## A record's commit (R49, R51) -/

theorem Committed.entry_key (c : Committed) {d : Device} : (c.entry (d.entry c.key)).key = c.key := by
  cases h : d.entry c.key with
  | none => rfl
  | some e => exact (Device.entry_key h : e.key = c.key)

theorem Committed.entry_loc (c : Committed) (before : Option DirEntry) : (c.entry before).loc = c.loc := by
  cases before <;> rfl

/-- The spent TOMBSTONE entry of a key goes, its two lines dead; any other entry stays. -/
theorem Device.dropSpentTombstone_at {d : Device} {k : Key} {e : DirEntry} (h : d.entry k = some e) :
    (∀ k', (d.dropSpentTombstone k).entry k' = if k' = k ∧ e.spentTombstone = true then none else d.entry k') ∧
    ∀ b, (d.dropSpentTombstone k).bank b =
      { d.bank b with
        dead := (d.bank b).dead +
          if e.spentTombstone = true ∧ e.loc.any (fun l => Decidable.decide (l.bank = b)) = true then 2 else 0 } := by
  have hspent : e.spentTombstone = true ↔ e.state = .tombstone ∧ e.stale = 0 := by simp [DirEntry.spentTombstone]
  unfold Device.dropSpentTombstone
  simp only [h]
  by_cases hs : e.state = .tombstone ∧ e.stale = 0
  · simp only [if_pos hs, hspent.mpr hs, and_true, true_and]
    cases hl : e.loc with
    | none => exact ⟨fun k' => d.entry_removeEntry k k', fun b => by simp⟩
    | some loc => exact ⟨fun k' => d.entry_removeEntry k k', fun b => by simp [Device.bank_addDead_rises]⟩
  · simp [hs, hspent]

/-- What a commit does: the entry of the record's key is created or replaced, or gone as a spent TOMBSTONE; the superseded record's span,
and a spent TOMBSTONE's two lines, are dead. -/
theorem Device.commitEntry_effect (d : Device) (c : Committed) {e : DirEntry} (he : c.entry (d.entry c.key) = e) :
    (∀ k, (d.commitEntry c).entry k = if k = c.key then (if e.spentTombstone = true then none else some e) else d.entry k) ∧
    ∀ b, (d.commitEntry c).bank b =
      { d.bank b with
        dead := (d.bank b).dead + ((d.entry c.key).map fun old => old.deadIn b).getD 0 +
          (if e.spentTombstone = true ∧ c.loc.any (fun l => Decidable.decide (l.bank = b)) = true then 2 else 0) } := by
  have hkey : e.key = c.key := he ▸ c.entry_key
  have hloc : e.loc = c.loc := he ▸ c.entry_loc _
  have hput (u : Device) : (u.putEntry e).entry c.key = some e := by rw [Device.entry_putEntry, hkey, if_pos rfl]
  have hshape (u : Device) (hu : ∀ k, u.entry k = d.entry k) (k : Key) :
      ((u.putEntry e).dropSpentTombstone c.key).entry k =
        if k = c.key then (if e.spentTombstone = true then none else some e) else d.entry k := by
    rw [(Device.dropSpentTombstone_at (hput u)).1, Device.entry_putEntry, hkey, hu]
    by_cases hk : k = c.key <;> simp [hk]
  unfold Device.commitEntry
  dsimp only
  rw [he]
  cases hold : d.entry c.key with
  | none =>
    refine ⟨hshape d fun _ => rfl, fun b => ?_⟩
    rw [(Device.dropSpentTombstone_at (hput d)).2, Device.bank_putEntry, hloc]
    simp
  | some old =>
    refine ⟨hshape (d.supersede old) fun k => d.entry_supersede old k, fun b => ?_⟩
    rw [(Device.dropSpentTombstone_at (hput _)).2, Device.bank_putEntry, Device.bank_supersede, hloc]
    rfl

/-- Settles O30: R49's entry is `Committed.entry`, with stale increment 0 outside a group. -/
theorem directoryAfterCommit : Obligations.DirectoryAfterCommit := by
  refine ⟨fun w r => rfl, fun d c loc hloc hinc e removed he hremoved => ?_⟩
  have hentry : c.entry (d.entry c.key) = e := by
    rw [he]
    cases d.entry c.key with
    | none => simp [Committed.entry, hloc, hinc]
    | some b => by_cases hb : b.state = .damaged <;> simp [Committed.entry, hloc, hinc, hb]
  have hspent : e.spentTombstone = removed := by
    rw [hremoved, DirEntry.spentTombstone, Bool.decide_and]
  obtain ⟨hentries, hbanks⟩ := d.commitEntry_effect c hentry
  refine ⟨by rw [hentries, if_pos rfl, hspent], fun k hk => by rw [hentries, if_neg hk], fun b => ?_⟩
  rw [hbanks, hspent, hloc]
  cases d.entry c.key <;> simp [DirEntry.deadIn, spanOf]

end Sys2Proof.Machine
end

section
/-! READ's read comes back (R52, R59, R73, R85, R89): what the buffer, the FIFO, the Directory and the dead lines then hold. -/
namespace Sys2Proof.Machine
open Sys2Proof

/-! ## Staging buffers (R71, R73) -/

theorem Device.buffer_setBuffer (d : Device) (i j : Fin 4) (b : Buffer) :
    (d.setBuffer i b).buffer j = if j = i then b else d.buffer j := by
  show (d.buffers.set i.val b i.isLt)[j.val] = if j = i then b else d.buffers[j.val]
  rw [Vector.getElem_set]
  simp only [Fin.ext_iff, eq_comm]

/-- Bytes stored one after another from an address on. -/
theorem read_writeAll_cellsFrom (bytes : List Byte) (a k : Nat) (m : List Host.Cell) :
    Store.read 0 (Store.writeAll 0 m (cellsFrom a bytes)) k =
      if a ≤ k ∧ k < a + bytes.length then bytes.getD (k - a) 0 else Store.read 0 m k := by
  induction bytes generalizing a m with
  | nil => exact (if_neg (by simp only [List.length_nil]; omega)).symm
  | cons v rest ih =>
    simp only [cellsFrom, Store.writeAll, ih, List.length_cons]
    rcases Nat.lt_trichotomy k a with h | rfl | h
    · rw [if_neg (by omega), if_neg (by omega), Store.read_write_other _ _ _ (by omega)]
    · rw [if_neg (by omega), if_pos (by omega), Store.read_write_same]
      simp
    · obtain ⟨n, rfl⟩ : ∃ n, k = a + 1 + n := ⟨k - (a + 1), by omega⟩
      have hn : a + 1 + n - a = n + 1 := by omega
      by_cases hl : n < rest.length
      · rw [if_pos (by omega), if_pos (by omega), hn, Nat.add_sub_cancel_left, List.getD_cons_succ]
      · rw [if_neg (by omega), if_neg (by omega), Store.read_write_other _ _ _ (by omega)]

theorem Buffer.byte_fill (b : Buffer) (bytes : List Byte) (k : Nat) :
    (b.fill bytes).byte k = if k < bytes.length then bytes.getD k 0 else b.byte k := by
  have h := read_writeAll_cellsFrom bytes 0 k b.bytes
  simp only [Nat.zero_le, true_and, Nat.zero_add, Nat.sub_zero] at h
  exact h

theorem bufferIndex_eq {field : Byte} {i : Fin 4} (h : field.toNat = i.val) : bufferIndex field = some i := by
  simp [bufferIndex, h]

/-! ## The end of a command that named a buffer (R73, R79, R85) -/

/-- A detached command ends without a completion and leaves the buffers alone. -/
theorem Device.executingEnded_detached (d : Device) {x : Executing} (status : Status) (result : Nat) (h : x.detached = true) :
    d.executingEnded x status result = { d with ex := none } := if_pos h

/-- A command that named a buffer leaves its completion, and the buffer to the host with the bytes it had. -/
theorem Device.executingEnded_buffer (d : Device) {x : Executing} {i : Fin 4} (status : Status) (result : Nat)
    (h : x.detached = false) (hn : x.code.namesBuffer = true) (hi : bufferIndex x.desc.buffer = some i) :
    (d.executingEnded x status result).fifo = d.fifo ++ [{ tag := x.desc.tag, status := status, result := result }] ∧
    ∀ j, (d.executingEnded x status result).buffer j = { d.buffer j with owner := if j = i then .host else (d.buffer j).owner } := by
  have he : d.executingEnded x status result =
      { d.setBuffer i { d.buffer i with owner := .host } with
        ex := none, fifo := d.fifo ++ [{ tag := x.desc.tag, status := status, result := result }] } := by
    simp only [Device.executingEnded, h, Device.releaseBuffer, hn, hi]
    rfl
  rw [he]
  refine ⟨rfl, fun j => (d.buffer_setBuffer i j _).trans ?_⟩
  by_cases hj : j = i
  · rw [if_pos hj, if_pos hj, hj]
  · rw [if_neg hj, if_neg hj]

theorem Device.output_frame (d : Device) (bytes : List Byte) : ∃ buffers, d.output bytes = { d with buffers := buffers } := by
  unfold Device.output
  repeat' split
  all_goals exact ⟨_, rfl⟩

theorem Device.output_detached {d : Device} {x : Executing} (bytes : List Byte) (hx : d.ex = some x) (h : x.detached = true) :
    d.output bytes = d := by
  simp [Device.output, hx, h]

theorem Device.output_buffer {d : Device} {x : Executing} {i : Fin 4} (bytes : List Byte) (hx : d.ex = some x)
    (h : x.detached = false) (hi : bufferIndex x.desc.buffer = some i) (j : Fin 4) :
    (d.output bytes).buffer j = if j = i then (d.buffer i).fill bytes else d.buffer j := by
  have he : d.output bytes = d.setBuffer i ((d.buffer i).fill bytes) := by simp [Device.output, hx, h, hi]
  rw [he, Device.buffer_setBuffer]

/-! ## READ (R52, R89) -/

theorem delivered_length (p : List Byte) (offset length : Nat) : (delivered p offset length).length = min length (p.length - offset) := by
  simp [delivered]

theorem delivered_getD (p : List Byte) {offset length k : Nat} (h : k < (delivered p offset length).length) :
    (delivered p offset length).getD k 0 = p.getD (offset + k) 0 := by
  have hk : k < length := by rw [delivered_length] at h; omega
  simp [delivered, hk]

/-- An entry found damaged keeps its location, and its span becomes dead unless it was DAMAGED before. -/
theorem Device.damageEntry_at {d : Device} {k : Key} {e : DirEntry} (h : d.entry k = some e) :
    (∀ k', (d.damageEntry k).entry k' = if k' = k then some { e with state := .damaged } else d.entry k') ∧
    ∀ b, (d.damageEntry k).bank b = { d.bank b with dead := (d.bank b).dead + e.deadIn b } := by
  have hkey : e.key = k := Device.entry_key h
  unfold Device.damageEntry
  simp only [h]
  by_cases hs : e.state = .damaged
  · have hsame : ({ e with state := .damaged } : DirEntry) = e := by rw [← hs]
    rw [if_pos hs, hsame]
    refine ⟨fun k' => ?_, fun b => by simp [DirEntry.deadIn, hs]⟩
    by_cases hk : k' = k
    · rw [hk, if_pos rfl, h]
    · rw [if_neg hk]
  · rw [if_neg hs]
    exact ⟨fun k' => by rw [Device.entry_supersede, Device.entry_putEntry, hkey], fun b => Device.bank_supersede _ e b⟩

theorem Device.damageEntry_frame (d : Device) (k : Key) : ∃ dir banks, d.damageEntry k = { d with dir := dir, banks := banks } := by
  unfold Device.damageEntry
  repeat' split
  · exact ⟨_, _, rfl⟩
  · next e _ _ =>
    obtain ⟨banks, hb⟩ := (d.putEntry { e with state := .damaged }).supersede_frame e
    exact ⟨_, banks, hb⟩
  · exact ⟨_, _, rfl⟩

theorem Device.readLines_reading {c : Ctx} {d : Device} {x : Executing} {loc : Location} (lines : List Line) (hx : d.ex = some x)
    (hs : x.stage = .reading loc) (hc : x.code = .read) :
    d.readLines c .command lines = d.readDone x (recordPayload loc.line lines) := by
  simp [Device.readLines, Device.commandRead, hx, hs, hc]

/-- A READ whose read comes back alone at the Flash Controller has ended when its step ends. -/
theorem exec_read_delivers {s : State} {x : Executing} {loc : Location} {b : BankId} {first count : Nat} {u : Device} {status : Status}
    {result : Nat} (hx : s.dev.ex = some x) (hcode : x.code = .read) (hmember : x.member = false) (hstage : x.stage = .reading loc)
    (halone : s.dev.fc.Alone .command (.read b first count)) (hsteady : s.dev.reclaim.steady)
    (hdone : s.dev.opDone.readDone x (recordPayload loc.line (s.flash.lines b first count)) = u.endCommand status result)
    (hu : u.ex = some x) (hfc : u.fc = s.dev.opDone.fc) (hr : u.reclaim = s.dev.reclaim) :
    exec .multiLineReadOutcome s = .next { s with dev := u.executingEnded x status result } := by
  refine exec_read_ends halone.op ((Device.readLines_reading (d := s.dev.opDone) _ hx hstage hcode).trans hdone) ?_
  rw [Device.endCommand_eq status result hu (by rw [hcode]; decide) hmember]
  refine Device.settle_atRest _ _ (Device.executingEnded_atRest ?_ ?_ ?_ ?_ (hr ▸ hsteady)) <;> rw [hfc]
  exacts [halone.command, halone.reclaim, halone.mount, halone.erase]

/-- Settles O35: READ's read is the only operation, so its outcome ends the step; the buffer is filled before the command ends. -/
theorem readOutcomeDelivers : Obligations.ReadOutcomeDelivers := by
  intro s x loc b first count i payload hx hcode hmember hstage halone hsteady hbuffer hpayload
  have hi : bufferIndex x.desc.buffer = some i := bufferIndex_eq hbuffer
  have hnames : x.code.namesBuffer = true := by rw [hcode]; rfl
  cases hp : payload with
  | some p =>
    generalize hbytes : delivered p x.desc.offset.toNat x.desc.length.toNat = bytes
    obtain ⟨buffers, hout⟩ := s.dev.opDone.output_frame bytes
    have hdone : s.dev.opDone.readDone x (recordPayload loc.line (s.flash.lines b first count)) =
        (s.dev.opDone.output bytes).endCommand .ok bytes.length := by rw [← hpayload, hp, ← hbytes]; rfl
    refine ⟨_, exec_read_delivers hx hcode hmember hstage halone hsteady hdone (by rw [hout]; exact hx) (by rw [hout])
      (by rw [hout]; rfl), Device.executingEnded_ex .., fun hd => ?detached, fun hd j => ?owner, fun q n hq hn => ?delivers, fun h => nomatch h⟩
    case detached =>
      rw [Device.executingEnded_detached _ _ _ hd, Device.output_detached (d := s.dev.opDone) bytes hx hd]
      exact ⟨rfl, rfl⟩
    case owner =>
      rw [(Device.executingEnded_buffer _ _ _ hd hnames hi).2, Device.output_buffer (d := s.dev.opDone) bytes hx hd hi]
      by_cases hj : j = i
      · simp only [if_pos hj]
      · simp only [if_neg hj]
        rfl
    case delivers =>
      obtain rfl := Option.some.inj hq
      obtain rfl : n = bytes.length := by rw [hn, ← hbytes, delivered_length]
      obtain ⟨fifo, bufs, hended⟩ := (s.dev.opDone.output bytes).executingEnded_frame x .ok bytes.length
      refine ⟨by rw [hended, hout]; rfl, by rw [hended, hout]; rfl, fun hd => ?_⟩
      obtain ⟨hfifo, hbuf⟩ := (s.dev.opDone.output bytes).executingEnded_buffer .ok bytes.length hd hnames hi
      refine ⟨by rw [hfifo, hout]; rfl, fun j k => ?_⟩
      rw [hbuf, Device.output_buffer (d := s.dev.opDone) bytes hx hd hi]
      by_cases hj : j = i
      · subst hj
        simp only [if_true, true_and]
        refine (Buffer.byte_fill _ bytes k).trans ?_
        by_cases hk : k < bytes.length
        · rw [if_pos hk, if_pos hk, ← hbytes, delivered_getD p (hbytes ▸ hk)]
        · rw [if_neg hk, if_neg hk]
          rfl
      · have hn : ¬(j = i ∧ k < bytes.length) := fun h => hj h.1
        rw [if_neg hj, if_neg hn]
        rfl
  | none =>
    obtain ⟨dir, banks, hdam⟩ := s.dev.opDone.damageEntry_frame x.desc.key
    have hdone : s.dev.opDone.readDone x (recordPayload loc.line (s.flash.lines b first count)) =
        (s.dev.opDone.damageEntry x.desc.key).endCommand .corrupt 0 := by rw [← hpayload, hp]; rfl
    refine ⟨_, exec_read_delivers hx hcode hmember hstage halone hsteady hdone (by rw [hdam]; exact hx) (by rw [hdam])
      (by rw [hdam]; rfl), Device.executingEnded_ex .., fun hd => ?detached, fun hd j => ?owner, fun q n h => (nomatch h),
      fun _ => ⟨fun hd => ?kept, fun e he hloc => ?damaged⟩⟩
    case detached =>
      rw [Device.executingEnded_detached _ _ _ hd, hdam]
      exact ⟨rfl, rfl⟩
    case owner =>
      rw [(Device.executingEnded_buffer _ _ _ hd hnames hi).2, hdam]
      rfl
    case kept =>
      obtain ⟨hfifo, hbuf⟩ := (s.dev.opDone.damageEntry x.desc.key).executingEnded_buffer .corrupt 0 hd hnames hi
      refine ⟨by rw [hfifo, hdam]; rfl, fun j k => ?_⟩
      rw [hbuf, hdam]
      rfl
    case damaged =>
      obtain ⟨hentry, hbank⟩ := Device.damageEntry_at (d := s.dev.opDone) he
      obtain ⟨fifo, bufs, hended⟩ := (s.dev.opDone.damageEntry x.desc.key).executingEnded_frame x .corrupt 0
      rw [hended]
      refine ⟨(hentry _).trans (if_pos rfl), fun c => (hbank c).trans ?_⟩
      simp only [DirEntry.deadIn, hloc, Option.any_some, decide_eq_true_eq, spanOf]
      rfl

end Sys2Proof.Machine
end

section
/-! Erases and bank headers: what a bank's erase and its header leave, for the Reclaim Engine (R61, R63, R131, R132) and for FORMAT (R133,
R163, R164). -/
namespace Sys2Proof.Machine
open Sys2Proof

/-! ## The ends of an erase and of a line program -/

/-- A running erase ends: its requester acts on the outcome, and the step ends. -/
theorem exec_bankErase_ends {s : State} {e : EraseOp} {b : BankId} {who : Requester} {remains : EraseRemains} {ok : Bool} {u d : Device}
    (he : s.dev.fc.erase = some e) (hb : e.bank = b) (hr : e.requester = who) (hs : e.suspended = false)
    (hok : (s.flash.eraseBank b remains).bankErased b = ok) (hu : s.dev.eraseOver.erased s.ctx who ok = u) (hd : u.settle s.ctx = d) :
    exec (.bankEraseOutcome remains) s = .next { s with flash := s.flash.eraseBank b remains, dev := d } := by
  subst hb hr hok
  rw [exec_bankEraseOutcome remains he hs]
  refine congrArg _ (State.engines_eq _ _ ?_)
  exact (congrArg (Device.settle s.ctx) hu).trans hd

/-- A line that an erase leaves with other bytes than an erased one is found (R8). -/
theorem Flash.bankErased_eraseBank_other (f : Flash) (b : BankId) (l : LineId) {bytes : RawLine} (h : bytes ≠ erasedBytes) :
    (f.eraseBank b [(l, .other bytes)]).bankErased b = false := by
  have hwf : EraseRemains.wellFormed [(l, .other bytes)] = true := by simpa [EraseRemains.wellFormed] using h
  have hline : (f.eraseBank b [(l, .other bytes)]).line b l.val = .raw bytes :=
    Flash.line_eraseBank_listed f b _ hwf (List.mem_singleton_self _)
  refine Bool.eq_false_iff.mpr fun hall => h ?_
  simp only [Flash.bankErased, Flash.lines, List.all_map, List.all_eq_true, List.mem_range, Function.comp, Nat.zero_add] at hall
  have herased := (Line.isErased_iff _).mp (hall l.val l.isLt)
  rw [hline] at herased
  exact Line.raw.inj herased

/-- A controller whose erase has ended, with nothing else in progress or waiting, is free. -/
theorem FlashController.free_eraseOver {fc : FlashController} (ho : fc.op = none) (hc : fc.waitCommand = none)
    (hr : fc.waitReclaim = none) (hm : fc.waitMount = none) :
    ({ fc with erase := none, decided := none } : FlashController).Free := ⟨ho, rfl, hc, hr, hm, rfl⟩

/-- The Reclaim Engine without a record keeps the wait-free law. -/
theorem Reclaim.steady_of_noWriter {r : Reclaim} (h : r.job.writer = none) : r.steady := fun w hw => by
  rw [h] at hw
  cases hw

/-! ## The next erase count (R63) -/

theorem Device.nextEraseCount_known {d : Device} {b : BankId} {c : Nat} (h : (d.bank b).eraseCount = some c) :
    d.nextEraseCount b = min (c + 1) 0xFFFFFFFF := by
  simp only [Device.nextEraseCount, h]
  rfl

/-- The erase counts known of the other banks. -/
def Device.otherCounts (d : Device) (b : BankId) : List Nat :=
  (allBanks.filter fun x => x ≠ b).filterMap fun x => (d.bank x).eraseCount

theorem Device.mem_otherCounts {d : Device} {b : BankId} {c : Nat} :
    c ∈ d.otherCounts b ↔ ∃ x, x ≠ b ∧ (d.bank x).eraseCount = some c := by
  simp [Device.otherCounts]

theorem Device.nextEraseCount_unknown {d : Device} {b : BankId} (h : (d.bank b).eraseCount = none) :
    (d.otherCounts b = [] ∧ d.nextEraseCount b = 1) ∨
      ∃ n ∈ d.otherCounts b, (∀ c ∈ d.otherCounts b, c ≤ n) ∧ d.nextEraseCount b = min (n + 1) 0xFFFFFFFF := by
  have hn : d.nextEraseCount b = match d.otherCounts b with
      | [] => 1
      | c :: cs => min (cs.foldl max c + 1) Config.maxWord := by
    simp only [Device.nextEraseCount, h]
    rfl
  cases hc : d.otherCounts b with
  | nil => exact .inl ⟨rfl, by rw [hn, hc]⟩
  | cons c cs =>
    obtain ⟨hle, hall, hmem⟩ := foldl_max_bounds cs c
    refine .inr ⟨cs.foldl max c, ?_, ?_, by rw [hn, hc]; rfl⟩
    · rcases hmem with h | h
      · simp [h]
      · exact List.mem_cons_of_mem _ h
    · exact fun m hm => (List.mem_cons.mp hm).elim (fun h => h ▸ hle) (hall m)

/-! ## The Reclaim Engine's erase cycle (R131, R132) -/

/-- A first failed erase of the Reclaim Engine is made again. -/
theorem Device.erased_again {c : Ctx} {d : Device} {b : BankId} (hj : d.reclaim.job = .erase b) (ha : d.reclaim.attempt = 0) :
    d.eraseOver.erased c .reclaim false =
      { d with
        reclaim := { d.reclaim with attempt := 1 }
        fc := { d.fc with erase := none, decided := none, waitReclaim := some (.erase b) } } := by
  have hjob : { d.reclaim with attempt := 1, job := .erase b } = { d.reclaim with attempt := 1 } := by rw [← hj]
  unfold Device.erased Device.reclaimErased
  rw [Device.eraseOver_reclaim, hj]
  unfold Device.eraseDone Device.eraseFailed
  rw [Device.eraseOver_reclaim]
  simp only [ha, if_true, Bool.false_eq_true, if_false]
  rw [← hjob]
  rfl

/-- A header of the erase cycle that verifies makes its bank FREE. -/
theorem Device.programmed_eraseHeader {c : Ctx} {d : Device} {b : BankId} {count : Nat} (hj : d.reclaim.job = .eraseHeader b count) :
    d.programmed c .reclaim .ok = (d.makeFree b count).mapReclaim fun r => { r with attempt := 0, job := .idle } := by
  simp [Device.programmed, Device.reclaimProgrammed, hj, Device.eraseHeaderDone]

/-- Settles O40: the erase and the header are each the engine's only operation, and the request that follows is granted in their step. -/
theorem reclaimErasesAndFrees : Obligations.ReclaimErasesAndFrees := by
  refine ⟨fun s b e generation hsteady hn hj he hreq hb hs ho hc hr hm hg fc hfc => ?erase,
    fun s b count data hsteady hj halone herased => ?header,
    fun d b => ⟨fun c hc => Device.nextEraseCount_known hc, fun hnone => ⟨fun x c hx hc => ?_, ?_⟩⟩⟩
  case erase =>
    have hfree : fc.Free := hfc ▸ FlashController.free_eraseOver ho hc hr hm
    refine ⟨?verified, fun l bytes hbytes ha => ?again⟩
    case verified =>
      have hline : s.dev.headerLine b = .bankHeader generation (s.dev.nextEraseCount b) 0 := by
        rw [Device.headerLine, hg]
        rfl
      rw [← hline]
      refine exec_bankErase_ends he hb hreq hs (Flash.bankErased_eraseBank_nil _ _) (Device.erased_verified hj) ?_
      exact Device.settle_granted_reclaim hn (Device.noWake_of_steady _ ⟨hsteady.command, Reclaim.steady_of_noWriter rfl⟩) hfree
        (by rw [hfc])
    case again =>
      refine exec_bankErase_ends he hb hreq hs (Flash.bankErased_eraseBank_other _ _ l hbytes) (Device.erased_again hj ha) ?_
      exact (Device.settle_granted_reclaim hn
          (Device.noWake_of_steady _ ⟨hsteady.command, Reclaim.steady_of_noWriter (by rw [hj]; rfl)⟩) hfree (by rw [hfc]))
  case header =>
    refine exec_lineProgram_ends halone.op herased rfl (programOutcome_asIntended data rfl)
      (Device.programmed_eraseHeader (d := s.dev.opDone) hj) (Device.settle_unchanged
        (Device.noWake_of_steady _ ⟨hsteady.command, Reclaim.steady_of_noWriter rfl⟩) halone.command halone.reclaim halone.mount
        fun e he => ?_)
    cases halone.erase.symm.trans he
  all_goals rcases Device.nextEraseCount_unknown hnone with ⟨hnil, hone⟩ | ⟨n, hmem, hall, hnext⟩
  · have := Device.mem_otherCounts.mpr ⟨x, hx, hc⟩
    rw [hnil] at this
    cases this
  · have := hall c (Device.mem_otherCounts.mpr ⟨x, hx, hc⟩)
    rw [hnext]
    omega
  · exact .inl hone
  · obtain ⟨x, hx, hc⟩ := Device.mem_otherCounts.mp hmem
    exact .inr ⟨x, n, hx, hc, hnext⟩

end Sys2Proof.Machine
end

section
/-! FORMAT's erases and headers (R63, R133, R163, R164): each bank's erase and header, the commit point, BAD banks and the bank after. -/
namespace Sys2Proof.Machine
open Sys2Proof

/-! ## Outcomes that reach FORMAT -/

theorem Device.erased_format {c : Ctx} {d : Device} {x : Executing} {f : FormatProgress} {b : BankId} {again : Bool} (ok : Bool)
    (hx : d.ex = some x) (hs : x.stage = .formatErase b again) (hf : x.format = some f) :
    d.erased c .command ok = d.formatErased c f b again ok := by
  simp [Device.erased, Device.commandErased, hx, hs, hf]

theorem Device.programmed_format {c : Ctx} {d : Device} {x : Executing} {f : FormatProgress} {b : BankId} {again : Bool} {count : Nat}
    (o : ProgramOutcome) (hx : d.ex = some x) (hs : x.stage = .formatHeader b again count) (hf : x.format = some f) :
    d.programmed c .command o = d.formatHeadered c f b again count o := by
  simp [Device.programmed, Device.commandProgrammed, hx, hs, hf]

theorem Device.formatHeaderOf_requests {d : Device} {x : Executing} (f : FormatProgress) (b : BankId) (again : Bool)
    (hx : d.ex = some x) :
    d.formatHeaderOf f b again =
      { d with
        ex := some { x with stage := .formatHeader b again (d.nextEraseCount b) }
        fc := { d.fc with
          waitCommand := some (.program b 0 (.bankHeader (d.formatGeneration f) (d.nextEraseCount b) 0)) } } := by
  simp only [Device.formatHeaderOf, Device.setStage, hx]
  rfl

theorem Device.formatEraseOf_requests {d : Device} {x : Executing} (b : BankId) (again : Bool) (hx : d.ex = some x) :
    d.formatEraseOf b again =
      { d with
        ex := some { x with stage := .formatErase b again }
        fc := { d.fc with waitCommand := some (.erase b) } } := by
  simp only [Device.formatEraseOf, Device.setStage, hx]
  rfl

/-! ## The end of a step of FORMAT -/

/-- A request of a FORMAT that has had a grant is granted at a free controller, and FORMAT's progress stays. -/
theorem Device.settle_granted_format {c : Ctx} {d : Device} {x : Executing} {f : FormatProgress} {fc : FlashController} {r : Request}
    (hw : c.warning = false) (hx : d.ex = some x) (hf : x.format = some f) (hg : f.granted = true) (hs : x.stage.steady = true)
    (hr : d.reclaim.steady) (hfree : fc.Free) (hfc : d.fc = { fc with waitCommand := some r }) :
    d.settle c = { d with fc := fc.granted .command r } := by
  have hone : d.fc.OneCommand r := by
    rw [hfc]
    exact ⟨hfree.op, hfree.erase, rfl, hfree.reclaim, hfree.mount⟩
  have hk : d.NoWake c := Device.noWake_of_steady c ⟨fun y hy => by cases hx.symm.trans hy; exact hs, hr⟩
  have hsame : d.ex.map (fun y => { y with format := y.format.map fun p => { p with granted := true } }) = d.ex := by
    have hp : ({ f with granted := true } : FormatProgress) = f := by rw [← hg]
    rw [hx, Option.map_some, hf, Option.map_some, hp, ← hf]
  rw [Device.settle_oneCommand c d r hw hk hone, Device.grantRequest, Device.noteFormatGrant, if_pos rfl]
  dsimp only
  rw [hsame, hfc, hfree.grant_command]

/-- FORMAT begins with a bank at a free controller: its erase, or for a BLANK one its header, is granted in the same step. -/
theorem Device.formatBank_granted {c : Ctx} {d : Device} {x : Executing} {p : FormatProgress} (f : FormatProgress) (b : BankId)
    (hw : c.warning = false) (hx : d.ex = some x) (hp : x.format = some p) (hg : p.granted = true) (hr : d.reclaim.steady)
    (hfree : d.fc.Free) :
    ∃ stage q,
      (d.formatBank f b).settle c = { d with ex := some { x with stage := stage }, fc := d.fc.granted .command q } ∧
      ((d.bank b).state ≠ .blank → stage = .formatErase b false ∧ q = .erase b) ∧
      ((d.bank b).state = .blank → stage = .formatHeader b false (d.nextEraseCount b) ∧
        q = .program b 0 (.bankHeader (d.formatGeneration f) (d.nextEraseCount b) 0)) := by
  unfold Device.formatBank
  by_cases hb : (d.bank b).state = .blank
  · refine ⟨_, _, ?_, fun hn => absurd hb hn, fun _ => ⟨rfl, rfl⟩⟩
    rw [if_pos hb, Device.formatHeaderOf_requests f b false hx]
    exact Device.settle_granted_format (x := { x with stage := .formatHeader b false (d.nextEraseCount b) }) hw rfl hp hg rfl hr hfree rfl
  · refine ⟨_, _, ?_, fun _ => ⟨rfl, rfl⟩, fun hy => absurd hy hb⟩
    rw [if_neg hb, Device.formatEraseOf_requests b false hx]
    exact Device.settle_granted_format (x := { x with stage := .formatErase b false }) hw rfl hp hg rfl hr hfree rfl

/-! ## A bank's header verified, or its second attempt failed -/

theorem Device.setBank_setBank (d : Device) (b : BankId) (e e' : BankEntry) : (d.setBank b e).setBank b e' = d.setBank b e' := by
  simp only [Device.setBank, Vector.set_set]

/-- After the commit point FORMAT goes on with the next bank to erase (R164). -/
theorem Device.formatNext_bank {c : Ctx} {d : Device} {x : Executing} {f p : FormatProgress} {b : BankId} {rest : List BankId}
    (hx : d.ex = some x) (hp : x.format = some p) (ht : f.todo = b :: rest) :
    d.formatNext c f = Device.formatBank { d with ex := some { x with format := some { p with todo := rest } } } f b := by
  simp only [Device.formatNext, ht, Device.mapFormat, hx, Option.map_some, hp]

/-- A second failed attempt makes the bank BAD; FORMAT goes on with the next bank, or before its commit point with another anchor. -/
theorem Device.formatFailed_bad {c : Ctx} {d u : Device} {x : Executing} {f left : FormatProgress} {b next : BankId}
    (hu : (d.emptyInto b .bad).unlist b = u) (hx : u.ex = some x) (hf : x.format = some f)
    (h : (∃ rest, f.committed = true ∧ f.todo = next :: rest ∧ left = { f with todo := rest }) ∨
      (f.committed = false ∧ u.formatAnchor = some next ∧ left = f)) :
    d.formatFailed c f b true = Device.formatBank { u with ex := some { x with format := some left } } f next := by
  unfold Device.formatFailed
  rw [if_pos rfl]
  dsimp only
  rw [hu]
  rcases h with ⟨rest, hcommitted, htodo, hleft⟩ | ⟨hcommitted, hanchor, hleft⟩ <;> subst hleft
  · rw [if_pos hcommitted, Device.formatNext_bank hx hf htodo]
  · have hsame : ({ x with format := some left } : Executing) = x := by rw [← hf]
    rw [if_neg (by simp [hcommitted]), Device.formatChoose, hanchor, hsame, ← hx]

/-- A header that verifies makes its bank FREE, the anchor's being the commit point, and FORMAT goes on with the next bank. -/
theorem Device.formatFreed_next {c : Ctx} {d : Device} {x : Executing} {f left : FormatProgress} {b next : BankId} {rest : List BankId}
    {generation : Option Nat} (count : Nat) (hx : d.ex = some x) (hf : x.format = some f)
    (hleft : left = if f.committed then f else { f with committed := true, todo := d.usable.filter fun c => c ≠ b })
    (hgen : generation = if f.committed then d.generation else some (d.formatGeneration f)) (htodo : left.todo = next :: rest) :
    d.formatFreed c f b count =
      Device.formatBank
        { (d.makeFree b count).unlist b with
          generation := generation, ex := some { x with format := some { left with todo := rest } } } left next := by
  unfold Device.formatFreed
  cases hcommitted : f.committed with
  | true =>
    rw [if_pos hcommitted] at hleft hgen
    subst hleft hgen
    rw [if_pos rfl, Device.formatNext_bank (d := (d.makeFree b count).unlist b) hx hf htodo]
    rfl
  | false =>
    rw [if_neg (by simp [hcommitted])] at hleft hgen
    subst hgen
    rw [if_neg (by simp)]
    dsimp only
    rw [← hleft]
    refine Device.formatNext_bank (x := { x with format := some left }) ?_ rfl htodo
    simp only [Device.mapFormat]
    show d.ex.map _ = _
    rw [hx, Option.map_some, hf]
    rfl

/-- Settles O23: every outcome of FORMAT's ends in one more request, which is granted in the same step. -/
theorem formatErasesBanks : Obligations.FormatErasesBanks := by
  refine ⟨fun s x f b again e fc generation h he hreq hb hs ho hc hr hm hfc hgen => ⟨?verified, fun l bytes hagain hbytes => ?again⟩,
    fun s x f b again count generation bytes h halone herased => ⟨fun hagain => ?faulted, fun d left next rest hd hleft hbad htodo hne => ?freed⟩,
    fun s x f b i flash fc suspect bytes d hevent hd next left hnext => ?bad⟩
  case verified =>
    have hfree : fc.Free := hfc ▸ FlashController.free_eraseOver ho hc hr hm
    have hgeneration : s.dev.eraseOver.formatGeneration f = generation := by
      rw [hgen]
      rfl
    refine exec_bankErase_ends he hb hreq hs (Flash.bankErased_eraseBank_nil _ _)
      (Device.erased_format (d := s.dev.eraseOver) true h.command h.at_ h.progress) ?_
    rw [Device.formatErased, if_neg (by simp [State.ctx, h.normal]), if_pos rfl,
      Device.formatHeaderOf_requests (d := s.dev.eraseOver) f b again h.command, hgeneration]
    exact Device.settle_granted_format (x := { x with stage := .formatHeader b again (s.dev.nextEraseCount b) }) h.normal rfl h.progress
      h.granted rfl h.writer hfree (by rw [hfc]; rfl)
  case again =>
    have hfree : fc.Free := hfc ▸ FlashController.free_eraseOver ho hc hr hm
    refine exec_bankErase_ends he hb hreq hs (Flash.bankErased_eraseBank_other _ _ l hbytes)
      (Device.erased_format (d := s.dev.eraseOver) false h.command h.at_ h.progress) ?_
    rw [Device.formatErased, if_neg (by simp [State.ctx, h.normal]), if_neg (by simp), Device.formatFailed, if_neg (by simp [hagain]),
      Device.formatEraseOf_requests (d := s.dev.eraseOver) b true h.command]
    exact Device.settle_granted_format (x := { x with stage := .formatErase b true }) h.normal rfl h.progress
      h.granted rfl h.writer hfree (by rw [hfc]; rfl)
  case faulted =>
    refine exec_lineProgram_ends halone.op herased rfl (programOutcome_fault rfl (by simp [readsAs]))
      (Device.programmed_format (d := s.dev.opDone) _ h.command h.at_ h.progress) ?_
    rw [Device.formatHeadered, if_neg (by simp [State.ctx, h.normal])]
    dsimp only
    rw [Device.formatFailed, if_neg (by simp [hagain]),
      Device.formatEraseOf_requests (d := s.dev.opDone.markSuspect b) b true h.command]
    exact Device.settle_granted_format (x := { x with stage := .formatErase b true }) h.normal rfl h.progress
      h.granted rfl h.writer halone.free rfl
  case freed =>
    have hcommitted : left.committed = true := by
      rw [hleft]
      split <;> simp_all
    have hgranted : left.granted = true := by
      rw [hleft]
      split <;> exact h.granted
    have hfilter : left = if f.committed then f
        else { f with committed := true, todo := s.dev.opDone.usable.filter fun c => c ≠ b } := by
      simp only [hleft, Device.usable, List.filter_filter, Bool.decide_and, Bool.and_comm]
      rfl
    have hgeneration : d.generation = if f.committed then s.dev.generation else some (s.dev.opDone.formatGeneration f) := by
      rw [hd]
      cases hc : f.committed with
      | true => rfl
      | false => cases hg : s.dev.generation <;> simp [Device.formatGeneration, hc, hg]
    obtain ⟨stage, q, hsettle, herase, hblank⟩ := Device.formatBank_granted (c := s.ctx) (x := { x with format := some { left with todo := rest } })
      (d := { d with ex := some { x with format := some { left with todo := rest } }, fc := { s.dev.fc with op := none } })
      left next h.normal rfl rfl hgranted (by rw [hd]; exact h.writer) halone.free
    refine ⟨stage, q, ?_, herase, fun hb n g hn hg => ?_⟩
    · refine exec_lineProgram_ends halone.op herased rfl (programOutcome_asIntended _ rfl)
        (Device.programmed_format (d := s.dev.opDone) _ h.command h.at_ h.progress) (Eq.trans (congrArg (Device.settle s.ctx) ?_) hsettle)
      rw [Device.formatHeadered, if_neg (by simp [State.ctx, h.normal])]
      dsimp only
      refine (Device.formatFreed_next (d := s.dev.opDone) count h.command h.progress hfilter hgeneration htodo).trans ?_
      rw [hd]
      rfl
    · obtain ⟨hstage, hq⟩ := hblank hb
      have hgeneration : d.formatGeneration left = g := by simp [Device.formatGeneration, hg, hcommitted]
      refine ⟨hstage.trans (by rw [hn]; rfl), hq.trans ?_⟩
      rw [hn, ← hgeneration]
      rfl
  case bad =>
    obtain ⟨stage, base, hform, hfree, hbase, hexec⟩ : ∃ (stage : Stage) (base : Device), s.Formatting x f stage ∧ fc.Free ∧
        (base.emptyInto b .bad).unlist b = { d with fc := fc } ∧
        ∀ e, (base.formatFailed s.ctx f b true).settle s.ctx = e → exec i s = .next { s with flash := flash, dev := e } := by
      rcases hevent with ⟨e, l, h, he, hreq, hb, hs, ho, hc, hr, hm, hbytes, rfl, rfl, rfl, rfl⟩ |
        ⟨count, generation, h, halone, herased, rfl, rfl, rfl, rfl⟩
      · refine ⟨_, s.dev.eraseOver, h, FlashController.free_eraseOver ho hc hr hm, by rw [hd]; rfl, fun e he' => ?_⟩
        refine exec_bankErase_ends he hb hreq hs (Flash.bankErased_eraseBank_other _ _ l hbytes)
          (Device.erased_format (d := s.dev.eraseOver) false h.command h.at_ h.progress) ?_
        rwa [Device.formatErased, if_neg (by simp [State.ctx, h.normal]), if_neg (by simp)]
      · refine ⟨_, s.dev.opDone.markSuspect b, h, halone.free, ?_, fun e he' => ?_⟩
        · rw [hd, Device.emptyInto, Device.markSuspect, Device.setBank_setBank, Device.bank_setBank_same]
          rfl
        · refine exec_lineProgram_ends halone.op herased rfl (programOutcome_fault rfl (by simp [readsAs]))
            (Device.programmed_format (d := s.dev.opDone) _ h.command h.at_ h.progress) ?_
          rw [Device.formatHeadered, if_neg (by simp [State.ctx, h.normal])]
          exact he'
    have hleft : left.granted = true := by
      rcases hnext with ⟨rest, _, _, rfl⟩ | ⟨_, _, rfl⟩ <;> exact hform.granted
    obtain ⟨stage', q, hsettle, herase, hblank⟩ := Device.formatBank_granted (c := s.ctx) (x := { x with format := some left })
      (d := { d with ex := some { x with format := some left }, fc := fc }) f next hform.normal rfl rfl hleft
      (by rw [hd]; exact hform.writer) hfree
    refine ⟨stage', q, hexec _ ?_, herase, fun hb n g hn hg => ?_⟩
    · rw [Device.formatFailed_bad hbase (by rw [hd]; exact hform.command) hform.progress hnext]
      exact hsettle
    · obtain ⟨hstage, hq⟩ := hblank hb
      have hgeneration : Device.formatGeneration { d with ex := some { x with format := some left }, fc := fc } f = g := by
        rw [hg, hd]
        rfl
      rw [hgeneration] at hq
      exact ⟨hstage.trans (by rw [hn]; rfl), hq.trans (by rw [hn]; rfl)⟩

end Sys2Proof.Machine
end

section
/-! The system records of the Reclaim Engine (R49, R128, R133, R157, R177, R178): when a bank map or a lock repair is taken up, and what its
commit and its second fault leave. -/
namespace Sys2Proof.Machine
open Sys2Proof

/-! ## Placing a record of the Reclaim Engine -/

/-- A span that fits the ACTIVE bank is reserved there, a sequence being left if the record takes one (R141, case 1). -/
theorem Device.reclaimPlace_fits {c : Ctx} {d : Device} {w : Writer} {b : BankId} (hq : w.fixedSeq.isSome = true ∨ d.nextSeq ≤ 0xFFFFFF00)
    (hf : d.fitsIn b w.record.span) : d.reclaimPlace c w = d.reclaimReserve w b := by
  have hs : (w.fixedSeq.isNone && !d.sequenceLeft) = false := by
    rcases hq with hq | hq
    · rw [Option.isNone_eq_false_iff.mpr hq]
      rfl
    · have : d.sequenceLeft = true := decide_eq_true hq
      simp [this]
  unfold Device.reclaimPlace
  rw [hs, Device.fitting_of_fitsIn hf]
  rfl

/-- A new record of the engine that fits takes the next sequence with its span (R33, R98). -/
theorem Device.reclaimPlace_new {c : Ctx} {d : Device} {w : Writer} {b : BankId} (hq : d.nextSeq ≤ 0xFFFFFF00) (hw : w.fixedSeq = none)
    (hf : d.fitsIn b w.record.span) :
    d.reclaimPlace c w =
      { d.reserveLines b w.record.span with
        nextSeq := d.nextSeq + 1
        reclaim := { d.reclaim with
          job := d.reclaim.job.withWriter { w with stage := .programming { bank := b, line := d.appendAt b, seq := d.nextSeq, at_ := 0 } } }
        fc := { d.fc with waitReclaim := some (.program b (d.appendAt b) (w.record.line d.nextSeq 0)) } } := by
  have hs : d.sequenceLeft = true := decide_eq_true hq
  rw [Device.reclaimPlace_fits (.inr hq) hf]
  unfold Device.reclaimReserve Device.reserve
  rw [if_pos (by simp [hs]), hw]
  rfl

/-- Without a sequence left a record that takes one ends (R34). -/
theorem Device.reclaimPlace_noSequence {c : Ctx} {d : Device} {w : Writer} (hq : 0xFFFFFF00 < d.nextSeq) (hw : w.fixedSeq = none) :
    d.reclaimPlace c w = d.reclaimOutOfSequences := by
  have hs : d.sequenceLeft = false := decide_eq_false (Nat.not_le.mpr hq)
  unfold Device.reclaimPlace
  rw [if_pos (by simp [hs, hw])]

/-- A bank map without a sequence left ends, cause SEQUENCE (R34, R133). -/
theorem Device.bankMap_noSequence {d : Device} {w : Writer} (hj : d.reclaim.job = .bankMap w) :
    d.reclaimOutOfSequences = (d.setJob .idle).degrade .sequence := by
  rw [Device.reclaimOutOfSequences, hj]

/-! ## Taking up a bank map or a lock repair (R128, R133, R177) -/

theorem Device.takeWork_map {c : Ctx} {d : Device} (hw : c.warning = false) (hs : d.store = .ready ∨ d.store = .degraded)
    (hj : d.reclaim.job = .idle) (hm : d.reclaim.mapDue = true) : d.takeWork c = d.takeMap c := by
  unfold Device.takeWork
  rw [if_neg (by simp [hw, hj])]
  rcases hs with hs | hs <;> simp [hs, hm]

theorem Device.takeWork_repair {c : Ctx} {d : Device} (hw : c.warning = false) (hs : d.store = .ready ∨ d.store = .degraded)
    (hj : d.reclaim.job = .idle) (hm : d.reclaim.mapDue = false) : d.takeWork c = d.takeRepair c := by
  unfold Device.takeWork
  rw [if_neg (by simp [hw, hj])]
  rcases hs with hs | hs <;> simp [hs, hm]

/-- The bank map due is taken up: too few usable or too many BAD banks raise BANKS, else its record is placed. -/
theorem Device.takeMap_decides {c : Ctx} {d u : Device} (hj : d.reclaim.job = .idle)
    (hu : u = { d with reclaim := { d.reclaim with mapDue := false } }) :
    d.takeMap c =
      if d.mapImpossible then u.degrade .banks
      else (u.setJob (.bankMap (writerAt (mapRecord (d.banksIn .bad)) .waitOpen))).reclaimPlace c
        (writerAt (mapRecord (d.banksIn .bad)) .waitOpen) := by
  have hidle : ((d.mapReclaim fun r => { r with mapDue := false }).setJob .idle) = u := by
    rw [hu, ← hj]
    rfl
  unfold Device.takeMap Device.decideMap
  dsimp only
  rw [hidle, hu]
  rfl

theorem Device.mapImpossible_iff (d : Device) : d.mapImpossible = true ↔ d.usable.length < 8 ∨ 8 < d.badCount := by
  unfold Device.mapImpossible
  rw [Bool.or_eq_true, decide_eq_true_eq, decide_eq_true_eq]
  exact Iff.rfl

theorem Device.lockDamaged_at {d : Device} {e : DirEntry} (he : d.entry 0xFF01 = some e) :
    d.lockDamaged = Decidable.decide (e.state = .damaged) := by
  rw [Device.lockDamaged, show d.entry Config.lockKey = some e from he]
  rfl

/-- A device with the same executing command and the same job of the Reclaim Engine waits for as little. -/
theorem Device.Steady.same {d e : Device} (h : d.Steady) (hx : e.ex = d.ex) (hj : e.reclaim.job.writer = d.reclaim.job.writer) :
    e.Steady := ⟨hx ▸ h.command, fun w hw => h.writer w (hj ▸ hw)⟩

/-- An engine without a record waits for no open. -/
theorem Device.Steady.noRecord {d e : Device} (h : d.Steady) (hx : e.ex = d.ex) (hj : e.reclaim.job.writer = none) : e.Steady :=
  ⟨hx ▸ h.command, Reclaim.steady_of_noWriter hj⟩

/-- The end of a step that leaves no request at a free controller. -/
theorem Device.settle_free {c : Ctx} {d : Device} (h : d.Steady) (hf : d.fc.Free) : d.settle c = d :=
  Device.settle_unchanged (Device.noWake_of_steady c h) hf.command hf.reclaim hf.mount fun e he => by cases hf.erase.symm.trans he

/-! ## Outcomes of the record's lines (R49, R133, R178) -/

/-- A line program of the engine's record reaches it. -/
theorem Device.programmed_record {c : Ctx} {d : Device} {w : Writer} {r : Reservation} {o : ProgramOutcome}
    (hj : d.reclaim.job = .bankMap w ∨ d.reclaim.job = .lockRepair w) (hr : w.stage = .programming r) :
    d.programmed c .reclaim o = d.reclaimLine c w r o := by
  unfold Device.programmed Device.reclaimProgrammed
  rcases hj with hj | hj <;> simp only [hj, ReclaimJob.writer, hr]

theorem Device.commitEntry_reclaim (d : Device) (c : Committed) : (d.commitEntry c).reclaim = d.reclaim := by
  obtain ⟨dir, banks, h⟩ := d.commitEntry_frame c
  rw [h]

theorem Device.reclaimLine_last {c : Ctx} {d : Device} {w : Writer} {r : Reservation} (hl : r.at_ + 1 = w.record.span) :
    d.reclaimLine c w r .ok = d.reclaimCommit w r := by
  simp [Device.reclaimLine, lineVerdict, hl]

/-- The record commits as R49 gives, the engine is IDLE, and a lock repair's mark is cleared. -/
theorem Device.reclaimCommit_system {d : Device} {w : Writer} {r : Reservation} (hk : w.record.kind = .data)
    (hj : d.reclaim.job = .bankMap w ∨ d.reclaim.job = .lockRepair w) :
    d.reclaimCommit w r =
      { d.commitEntry (committedRecord w r) with
        reclaim := { d.reclaim with
          job := .idle, repairDue := if d.reclaim.job = .bankMap w then d.reclaim.repairDue else false } } := by
  have hrecord : committedRecord w r =
      { key := w.record.key, cls := w.record.cls, state := .live, loc := some { bank := r.bank, line := r.line },
        length := w.record.payload.length, seq := r.seq, newBase := r.seq, increment := 0 } := by
    simp [committedRecord, hk]
  unfold Device.reclaimCommit
  dsimp only
  rw [← hrecord]
  rcases hj with hj | hj
  · rw [hj]
    dsimp only
    rw [if_pos rfl, Device.setJob, Device.commitEntry_reclaim]
  · rw [hj]
    dsimp only
    rw [if_neg (by simp), Device.mapReclaim, Device.commitEntry_reclaim]

/-- The second fault of a bank map raises BANK_MAP, that of a lock repair clears its mark. -/
theorem Device.reclaimFault_bankMap {c : Ctx} {d : Device} {w : Writer} (hf : w.faulted = true) (hj : d.reclaim.job = .bankMap w) :
    d.reclaimFault c w = (d.setJob .idle).degrade .bankMap := by
  unfold Device.reclaimFault Device.reclaimCannot
  rw [if_pos hf, hj]

theorem Device.reclaimFault_lockRepair {c : Ctx} {d : Device} {w : Writer} (hf : w.faulted = true)
    (hj : d.reclaim.job = .lockRepair w) :
    d.reclaimFault c w = d.mapReclaim fun r => { r with job := .idle, repairDue := false } := by
  unfold Device.reclaimFault Device.reclaimCannot
  rw [if_pos hf, hj]

/-- Settles O43: what the engine takes up ends in one request or none, and so does the outcome of its record's line. -/
theorem systemRecordsProgrammed : Obligations.SystemRecordsProgrammed := by
  refine ⟨fun s d hsteady hfree hn hs hj hdue hd => ⟨fun hbad hready => ?banks, fun husable hbad =>
      ⟨fun hq hready => ?noSequence, fun hq record a line hrecord hfit hline => ?placed⟩⟩,
    fun s hsteady hn hs hj hmap hdue e he => ⟨fun hdam hraise hrest => ?raising,
      fun hdam hraise hfree hq record a line hrecord hfit hline => ?repair, fun hsound => ?sound⟩,
    fun s job w r d hsteady hj hjob hr halone herased hd => ⟨fun hl hk => ?commits, fun bytes u hfaulted hne hu hother hframe => ?fault⟩⟩
  case banks =>
    subst hd
    refine exec_reclaimTakeUpWork ((Device.takeWork_map hn hs hj hdue).trans ((Device.takeMap_decides hj rfl).trans
      ((if_pos ((Device.mapImpossible_iff _).mpr hbad)).trans (Device.degrade_ready .banks hready hsteady.phase)))) ?_
    exact Device.settle_free (hsteady.same rfl rfl) hfree
  case noSequence =>
    have hpossible : ¬s.dev.mapImpossible = true := fun h => by have := (Device.mapImpossible_iff _).mp h; omega
    have hwork : s.dev.takeWork s.ctx = (d.setJob .idle).withCause .sequence := by
      rw [Device.takeWork_map hn hs hj hdue, Device.takeMap_decides hj hd, if_neg hpossible,
        Device.reclaimPlace_noSequence (by rw [hd]; exact hq) rfl, Device.bankMap_noSequence rfl]
      exact Device.degrade_ready .sequence (by rw [hd]; exact hready) (by rw [hd]; exact hsteady.phase)
    refine exec_reclaimTakeUpWork hwork ((Device.settle_free (hsteady.noRecord (by rw [hd]; rfl) rfl) (by rw [hd]; exact hfree)).trans ?_)
    have hidle : d.setJob .idle = d := by rw [hd, ← hj]; rfl
    rw [hidle, hd]
    rfl
  case placed =>
    have hpossible : ¬s.dev.mapImpossible = true := fun h => by have := (Device.mapImpossible_iff _).mp h; omega
    have hmap : mapRecord (s.dev.banksIn .bad) = record := hrecord.symm
    have hwork : s.dev.takeWork s.ctx = (d.setJob (.bankMap (writerAt record .waitOpen))).reclaimPlace s.ctx (writerAt record .waitOpen) := by
      rw [Device.takeWork_map hn hs hj hdue, Device.takeMap_decides hj hd, if_neg hpossible, hmap]
    subst hd hline
    refine exec_reclaimTakeUpWork (hwork.trans (Device.reclaimPlace_new (d := Device.setJob _ _) hq rfl hfit)) ?_
    exact Device.settle_granted_reclaim hn (Device.noWake_of_steady _ ⟨hsteady.command, fun w hw => by cases hw; simp⟩) hfree rfl
  case raising =>
    have hwork : s.dev.takeWork s.ctx = s.dev := by
      rw [Device.takeWork_repair hn hs hj hmap, Device.takeRepair, if_pos hdue, Device.lockDamaged_at he]
      simp [hdam, Device.raising, hraise]
    exact exec_reclaimTakeUpWork hwork (Device.settle_atRest _ _ hrest)
  case repair =>
    have hlock : lockRecord s.dev.level.number = record := hrecord.symm
    have hspan : record.span = 3 := by simp [hrecord, RecordSpec.span, spanOf]
    rw [← hspan] at hfit ⊢
    have hwork : s.dev.takeWork s.ctx =
        (s.dev.setJob (.lockRepair (writerAt record .waitOpen))).reclaimPlace s.ctx (writerAt record .waitOpen) := by
      rw [Device.takeWork_repair hn hs hj hmap, Device.takeRepair, if_pos hdue, Device.lockDamaged_at he]
      simp only [hdam, decide_true, Bool.not_true, Bool.false_eq_true, if_false, Device.raising, hraise]
      rw [Device.beginRepair, hlock]
      rfl
    subst hline
    refine exec_reclaimTakeUpWork (hwork.trans (Device.reclaimPlace_new (d := Device.setJob _ _) hq rfl hfit)) ?_
    exact Device.settle_granted_reclaim hn (Device.noWake_of_steady _ ⟨hsteady.command, fun w hw => by cases hw; simp⟩) hfree rfl
  case sound =>
    refine exec_reclaimTakeUpWork (e := s.dev.takeWork s.ctx) rfl (congrArg (Device.settle s.ctx) ?_)
    rw [Device.takeWork_repair hn hs hj hmap, Device.takeRepair, if_pos hdue, Device.lockDamaged_at he]
    exact (if_pos (by simp [hsound])).trans (Device.takeWork_erase (d := s.dev.mapReclaim fun r => { r with repairDue := false })
      hn hs hj hmap rfl).symm
  case commits =>
    have hjobs : d.reclaim.job = .bankMap w ∨ d.reclaim.job = .lockRepair w := by rw [hd]; exact hj ▸ hjob
    have hopDone : s.dev.opDone = d := hd.symm
    have hprog : s.dev.opDone.programmed s.ctx .reclaim .ok = d.reclaimCommit w r := by
      rw [hopDone, Device.programmed_record hjobs hr, Device.reclaimLine_last hl]
    refine exec_lineProgram_ends halone.op herased rfl (programOutcome_asIntended _ rfl)
      (hprog.trans (Device.reclaimCommit_system hk hjobs)) ?_
    obtain ⟨dir, banks, hframe⟩ := d.commitEntry_frame (committedRecord w r)
    subst hj
    rw [hframe, hd]
    exact Device.settle_free (hsteady.noRecord rfl rfl) halone.free
  case fault =>
    have hloses : s.dev.LosesSpan u w r.bank := ⟨hu, hother, by rw [hframe, hd]⟩
    have hfaults := RecordSpec.line_faults (.inl ⟨bytes, rfl, rfl, hne⟩)
    obtain ⟨hread, hdiffers, hinvalid⟩ := hfaults
    have hjobs : s.dev.opDone.reclaim.job = .bankMap w ∨ s.dev.opDone.reclaim.job = .lockRepair w := hj ▸ hjob
    have hprog : s.dev.opDone.programmed s.ctx .reclaim (.fault (.raw bytes) false) = u.reclaimFault s.ctx w := by
      rw [Device.programmed_record hjobs hr, Device.reclaimLine_fault hinvalid, hloses.eq]
    have hreclaim : u.reclaim = s.dev.reclaim := by rw [hframe, hd]
    have hsteady' : u.Steady := hsteady.same (by rw [hframe, hd]) (by rw [hreclaim])
    have hfree : u.fc.Free := by rw [hframe, hd]; exact halone.free
    refine ⟨fun hlock => ?_, fun hmap hready => ?_⟩
    · have hjob' : u.reclaim.job = .lockRepair w := by rw [hreclaim, hj, hlock]
      refine exec_lineProgram_ends halone.op herased hread (programOutcome_fault hread hdiffers)
        (hprog.trans (Device.reclaimFault_lockRepair hfaulted hjob')) ?_
      rw [Device.mapReclaim, hreclaim]
      exact Device.settle_free (hsteady'.noRecord rfl rfl) hfree
    · have hjob' : u.reclaim.job = .bankMap w := by rw [hreclaim, hj, hmap]
      have hstore : u.store = .ready := by rw [hframe, hd]; exact hready
      have hcauses : u.causes = s.dev.causes ∧ u.flags = s.dev.flags := by rw [hframe, hd]; exact ⟨rfl, rfl⟩
      obtain ⟨hc, hf⟩ := hcauses
      refine exec_lineProgram_ends halone.op herased hread (programOutcome_fault hread hdiffers)
        (hprog.trans ((Device.reclaimFault_bankMap hfaulted hjob').trans
          (Device.degrade_ready (d := u.setJob .idle) .bankMap hstore hsteady'.phase))) ?_
      rw [← hreclaim, ← hc, ← hf]
      exact Device.settle_free (hsteady'.noRecord rfl rfl) hfree

end Sys2Proof.Machine
end

section
/-! Groups opened and ended without commit (R110, R115, R118, R119), and what of that a power warning leaves that comes between the
taking of a group command and its step (R122, R182, R184). -/
namespace Sys2Proof.Machine
open Sys2Proof

/-! ## The end of a group without commit (R118) -/

/-- The lines that become dead in a bank when a member's group ends without commit: none where its record was found damaged. -/
def MemberEntry.deadIn (m : MemberEntry) (b : BankId) : Nat :=
  if (decide (m.state ≠ .damaged) && m.loc.any fun l => decide (l.bank = b)) = true then spanOf m.length else 0

theorem Device.bank_orphanMember (d : Device) (m : MemberEntry) (b : BankId) :
    (d.orphanMember m).bank b = { d.bank b with dead := (d.bank b).dead + m.deadIn b } := by
  unfold Device.orphanMember MemberEntry.deadIn
  split
  · next hs => simp [hs]
  · next loc hl hs =>
    have hne : m.state ≠ .damaged := hs
    rw [Device.bank_addDead_rises]
    simp [hne, hl]
  · next hl _ => simp [hl]

theorem Device.bank_orphans (l : List MemberEntry) (d : Device) (b : BankId) :
    (l.foldl Device.orphanMember d).bank b = { d.bank b with dead := (d.bank b).dead + (l.map fun m => m.deadIn b).sum } := by
  induction l generalizing d with
  | nil => rfl
  | cons m l ih =>
    rw [List.foldl_cons, ih, Device.bank_orphanMember, List.map_cons, List.sum_cons, Nat.add_assoc]

/-- The sum over the members that have lines to lose. -/
theorem sum_deadIn (l : List MemberEntry) (b : BankId) :
    (l.map fun m => m.deadIn b).sum =
      ((l.filter fun m => decide (m.state ≠ .damaged) && m.loc.any fun l => decide (l.bank = b)).map fun m => spanOf m.length).sum := by
  induction l with
  | nil => rfl
  | cons m l ih =>
    rw [List.map_cons, List.sum_cons, ih, List.filter_cons]
    unfold MemberEntry.deadIn
    split
    · rw [List.map_cons, List.sum_cons]
    · exact Nat.zero_add _

theorem Device.bank_endGroup {d : Device} {g : GroupContext} (hg : d.group = some g) (b : BankId) :
    d.endGroup.bank b = { d.bank b with dead := (d.bank b).dead + (g.members.map fun m => m.deadIn b).sum } := by
  rw [Device.endGroup_eq hg]
  exact Device.bank_orphans _ d b

theorem Device.userSlots_noGroup {d : Device} (h : d.group = none) : d.userSlots = (d.dir.filter fun x => isUserKey x.key).length := by
  unfold Device.userSlots
  rw [h]
  rfl

/-! ## Commands that end without a group -/

theorem Device.memberEnded_noGroup {d : Device} (h : d.group = none) : d.memberEnded = d := by
  simp only [Device.memberEnded, h]

theorem Device.groupTaken_noGroup {d : Device} (p : Posted) (h : d.group = none) : d.groupTaken p = none := by
  by_cases hc : p.code = .commitGroup
  · rw [Device.groupTaken_commitGroup d hc, h]
    rfl
  · rw [Device.groupTaken_other d hc, h]

/-- The end of a command: its group's end if that is bound to it, then its completion. -/
theorem Device.endCommand_groupEnded {d : Device} {x : Executing} (status : Status) (result : Nat) (hx : d.ex = some x) :
    d.endCommand status result =
      if x.detached then Device.groupEnded { d with ex := none } x
      else ((Device.groupEnded { d with ex := none } x).releaseBuffer x.code x.desc.buffer).placeCompletion x.desc.tag status
        result := by
  unfold Device.endCommand
  rw [hx]
  rfl

/-- Where no group is left the end of a command is its completion. -/
theorem Device.endCommand_noGroup {d : Device} {x : Executing} (status : Status) (result : Nat) (hx : d.ex = some x)
    (hg : d.group = none) : d.endCommand status result = d.executingEnded x status result := by
  have hm : Device.groupEnded { d with ex := none } x = { d with ex := none } := by
    have hc : Device.commitEnded { d with ex := none } x = { d with ex := none } := by
      simp only [Device.commitEnded, hg]
    rw [Device.groupEnded, hc, Device.memberEnded_noGroup (d := { d with ex := none }) hg, ite_self]
  rw [Device.endCommand_groupEnded status result hx, hm]
  rfl

/-- The end of the head command in its own step is that of the executing command. -/
theorem State.headTaken_executingEnded {s : State} {p : Posted} (rest : List Posted) (status : Status) (result : Nat)
    (hx : s.dev.ex = none) (hg : s.dev.group = none) :
    (s.headTaken p rest).executingEnded (s.headExecuting p) status result = s.dev.headEnded p rest status result := by
  have hgroup : s.dev.groupTaken p = s.dev.group := (Device.groupTaken_noGroup p hg).trans hg.symm
  have hidle : ({ s.headTaken p rest with ex := none } : Device) = { s.dev with queue := rest } := by
    rw [State.headTaken, hgroup, ← hx]
  show Device.placeCompletion (Device.releaseBuffer { s.headTaken p rest with ex := none } p.code p.desc.buffer) _ _ _ = _
  rw [hidle]
  rfl

/-- The head command ends without a group left, in the step in which it was taken. -/
theorem State.headTaken_endsGroupless {s : State} {p : Posted} (rest : List Posted) (status : Status) (result : Nat)
    (hx : s.dev.ex = none) (hg : s.dev.group = none) :
    (s.headTaken p rest).endCommand status result = s.dev.headEnded p rest status result := by
  have hgroup : (s.headTaken p rest).group = none := Device.groupTaken_noGroup p hg
  rw [Device.endCommand_noGroup (d := s.headTaken p rest) status result rfl hgroup, State.headTaken_executingEnded rest _ _ hx hg]

/-! ## OPEN_GROUP, DROP_GROUP and COMMIT_GROUP in their turn -/

theorem Device.firstRefusal_openGroupChecks (d : Device) (q : Descriptor) :
    firstRefusal (d.openGroupChecks q) = d.openGroupRefusal q := by
  unfold Device.openGroupChecks Device.openGroupRefusal
  simp [firstRefusal]
  rfl

/-- The end of OPEN_GROUP does not depend on the group it has opened. -/
theorem Device.openGroup_headEnded (d : Device) (p : Posted) (rest : List Posted) (t : Nat) :
    (d.openGroup t).headEnded p rest .ok 0 =
      { d.headEnded p rest .ok 0 with nextSeq := d.nextSeq + 1, group := (d.openGroup t).group } := by
  unfold Device.headEnded Device.releaseBuffer
  split
  · split <;> rfl
  · rfl

theorem State.headTaken_opensGroup {s : State} {p : Posted} (rest : List Posted) {c : Ctx} (hw : c.warning = false)
    (hc : p.code = .openGroup) (hr : s.dev.refusalFor p = none) (hq : s.dev.nextSeq ≤ 0xFFFFFF00) :
    (s.headTaken p rest).makeStep c =
      (State.headTaken { s with dev := s.dev.openGroup (groupTimeout s.cfg.groupTimeout p.desc) } p rest).endCommand .ok 0 := by
  obtain ⟨code, q⟩ := p
  subst hc
  have hchecks : firstRefusal ((s.headTaken ⟨.openGroup, q⟩ rest).openGroupChecks q) = none :=
    (Device.firstRefusal_openGroupChecks _ q).trans hr
  have hs : (s.headTaken ⟨.openGroup, q⟩ rest).sequenceLeft = true := decide_eq_true hq
  rw [Device.makeStep_taken c _ (x := s.headExecuting ⟨.openGroup, q⟩) rfl rfl]
  show Device.startOpenGroup c _ _ _ = _
  unfold Device.startOpenGroup
  dsimp only [State.headExecuting, Device.executing]
  rw [hchecks]
  dsimp only
  rw [if_neg (by simp [hs]), if_neg (by simp [hw])]
  rfl

theorem State.headTaken_dropsGroup {s : State} {p : Posted} (rest : List Posted) (c : Ctx) {g : GroupContext}
    (hc : p.code = .dropGroup) (hg : s.dev.group = some g) :
    (s.headTaken p rest).makeStep c = (State.headTaken { s with dev := s.dev.endGroup } p rest).endCommand .ok 0 := by
  obtain ⟨code, q⟩ := p
  subst hc
  have hgroup : (s.headTaken ⟨.dropGroup, q⟩ rest).group = some g := by
    rw [State.headTaken_other rest (by simp)]
    exact hg
  have hend : (s.headTaken ⟨.dropGroup, q⟩ rest).endGroup =
      State.headTaken { s with dev := s.dev.endGroup } ⟨.dropGroup, q⟩ rest := by
    rw [Device.endGroup_eq hgroup, Device.endGroup_eq hg,
      Device.orphans_banks g.members (d := s.headTaken ⟨.dropGroup, q⟩ rest) (e := s.dev) rfl]
    rfl
  rw [Device.makeStep_taken c _ (x := s.headExecuting ⟨.dropGroup, q⟩) rfl rfl, ← hend]
  exact if_neg (by simp [hgroup])

theorem State.headTaken_commitsEmpty {s : State} {p : Posted} (rest : List Posted) (c : Ctx) {g : GroupContext}
    (hc : p.code = .commitGroup) (hg : s.dev.group = some g) (hm : g.members = []) :
    (s.headTaken p rest).makeStep c = (State.headTaken { s with dev := { s.dev with group := none } } p rest).endCommand .ok 0 := by
  obtain ⟨code, q⟩ := p
  subst hc
  have hgroup : (s.headTaken ⟨.commitGroup, q⟩ rest).group = some { g with state := .committing, deadline := none } := by
    show s.dev.groupTaken _ = _
    rw [Device.groupTaken_commitGroup _ rfl, hg]
    rfl
  rw [Device.makeStep_taken c _ (x := s.headExecuting ⟨.commitGroup, q⟩) rfl rfl]
  show Device.startCommitGroup c _ = _
  unfold Device.startCommitGroup
  rw [hgroup]
  exact if_pos (by simp [hm])

/-- A head command that ends in the step in which it was taken leaves a device at rest. -/
theorem State.Turn.exec_endsWith {s : State} {p : Posted} {rest : List Posted} {e : Device} {status : Status} {result : Nat}
    (h : s.Turn p rest) (hrest : s.dev.AtRest)
    (he : ((s.headTaken p rest).makeStep { cfg := s.cfg, warning := false }) = e.headEnded p rest status result)
    (hx : e.ex = none) (hfc : e.fc = s.dev.fc) (hj : e.reclaim.job = s.dev.reclaim.job) :
    exec .takeCommand s = .next { s with dev := e.headEnded p rest status result } := by
  obtain ⟨fifo, buffers, hend⟩ := e.headEnded_frame p rest status result
  rw [h.exec_takeCommand, he, Device.settle_atRest]
  refine hrest.ended ?_ ?_ ?_
  all_goals rw [hend]
  · exact hx
  · exact hfc
  · exact hj

/-! ## A warning between the taking of a group command and its step (log entry 40) -/

theorem State.headExecuting_noMember {s : State} {p : Posted} {x : Executing} {code : CommandCode} (hx : x = s.headExecuting p)
    (hc : p.code = code) (hj : code.joinsGroup = false) : x.code = code ∧ x.member = false := by
  subst hx hc
  exact ⟨rfl, by simp [State.headExecuting, Device.executing, Device.joins, hj]⟩

/-- The entry leaves a command that is no member its step: an OPEN group has ended, an erase in progress is abandoned. -/
theorem State.MeetsWarning.underWarning_eq {s : State} {p : Posted} {rest : List Posted} (h : s.MeetsWarning p rest)
    (hm : (s.headExecuting p).member = false) :
    ∃ banks mark r, (s.headTaken p rest).underWarning (s.headExecuting p) =
        { (s.headTaken p rest).warnNoted.groupWarned with
          banks := banks, openMark := mark, reclaim := r
          fc := { s.dev.fc with erase := none, decided := none, fairness := 0 } } ∧ r.steady := by
  obtain ⟨group, banks, moved, hge⟩ := (s.headTaken p rest).warnNoted.groupWarned_frame
  obtain ⟨banks', mark, r, ha, _, hs⟩ :=
    (s.headTaken p rest).warnNoted.groupWarned.abandonErase_frame (by rw [hge]; exact h.erase)
      (by rw [hge]; exact fun _ => h.undecided)
  refine ⟨banks', mark, r, ?_, hs (by rw [hge]; exact h.rest.writer)⟩
  simp only [Device.underWarning, hm, Bool.false_eq_true, if_false]
  refine ha.trans ?_
  rw [hge]
  rfl

/-- The entry between the taking of such a command and its step is that step, on the device the entry leaves. -/
theorem State.MeetsWarning.warnBetween_step {s : State} {p : Posted} {rest : List Posted} {x : Executing} {d : Device}
    (h : s.MeetsWarning p rest) (hx : x = s.headExecuting p) (hd : d = (s.headTaken p rest).underWarning x) (hm : x.member = false) :
    d.ex = some x ∧
      s.dev.warnBetween s.cfg =
        d.startCommand { cfg := s.cfg, warning := true } x
          { payload := if p.code = .write then s.dev.taken256 p.desc else [], timeout := s.cfg.groupTimeout } := by
  subst hx
  obtain ⟨banks, mark, r, he, _⟩ := h.underWarning_eq hm
  rw [← hd] at he
  have hex : d.ex = some (s.headExecuting p) := by
    obtain ⟨group, banks', moved, hge⟩ := (s.headTaken p rest).warnNoted.groupWarned_frame
    rw [he, hge]
    rfl
  have hwarn : (s.headTaken p rest).warn = d := by
    have hgw : (s.headTaken p rest).warnNoted.endOpenGroup = (s.headTaken p rest).warnNoted.groupWarned :=
      Device.endOpenGroup_noMember hm
    have hunder : d = (s.headTaken p rest).warnNoted.groupWarned.abandonErase := by
      rw [hd]
      simp only [Device.underWarning, hm, Bool.false_eq_true, if_false]
      rfl
    rw [Device.warn_eq, hgw, ← hunder]
    exact Device.warnCommand_checking hex rfl
  refine ⟨hex, ?_⟩
  unfold Device.warnBetween
  rw [h.turn.takeHead, hwarn, Device.makeStep_taken _ d hex rfl]

/-- The entry where that step ends the command: nothing is left to the end of the step. -/
theorem State.MeetsWarning.exec_ended {s : State} {p : Posted} {rest : List Posted} {x : Executing} {d e : Device} {status : Status}
    {result : Nat} (cut : CutShort) (h : s.MeetsWarning p rest) (hx : x = s.headExecuting p)
    (hd : d = (s.headTaken p rest).underWarning x) (hm : x.member = false)
    (hstep : d.startCommand { cfg := s.cfg, warning := true } x
      { payload := if p.code = .write then s.dev.taken256 p.desc else [], timeout := s.cfg.groupTimeout } =
        e.executingEnded x status result)
    (hfc : e.fc = d.fc) (hj : e.reclaim.job = d.reclaim.job) :
    exec (.powerWarning (.pfw true) cut) s = .next (s.pfwLow cut (e.executingEnded x status result)) := by
  refine exec_powerWarning_entered cut h.supply h.turn.normal ?_
  simp only [if_true]
  rw [(h.warnBetween_step hx hd hm).2, hstep]
  obtain ⟨banks, mark, r, hu, hst⟩ := h.underWarning_eq (hx ▸ hm)
  rw [← hx, ← hd] at hu
  have hdfc : d.fc = { s.dev.fc with erase := none, decided := none, fairness := 0 } := by rw [hu]
  have hdr : d.reclaim = r := by rw [hu]
  have hsteady : e.reclaim.steady := by
    intro w hw
    rw [hj, hdr] at hw
    exact hst w hw
  rw [hdfc] at hfc
  refine Device.settle_atRest _ _ (Device.executingEnded_atRest ?_ ?_ ?_ ?_ hsteady) <;> rw [hfc]
  · exact h.rest.command
  · exact h.rest.reclaim
  · exact h.rest.mount

/-- Where no group is left, the end of a command is the same with the next sequence another. -/
theorem Device.executingEnded_nextSeq (d : Device) (x : Executing) (status : Status) (result n : Nat) (hg : d.group = none) :
    ({ d with nextSeq := n } : Device).executingEnded x status result =
      { d.executingEnded x status result with nextSeq := n, group := none } := by
  obtain ⟨fifo, buffers, h⟩ := d.executingEnded_frame x status result
  have hsame : ({ d with nextSeq := n } : Device).executingEnded x status result =
      { d.executingEnded x status result with nextSeq := n } := by
    unfold Device.executingEnded Device.releaseBuffer
    split
    · rfl
    · split
      · split <;> rfl
      · rfl
  rw [hsame, h, ← hg]

/-- The end of a command does not depend on the store being DEGRADED. -/
theorem Device.executingEnded_withCause (d : Device) (x : Executing) (status : Status) (result : Nat) (c : Cause) :
    (d.withCause c).executingEnded x status result =
      { d.executingEnded x status result with
        store := .degraded, causes := d.causes.add c, flags := { d.flags with degraded := true } } := by
  unfold Device.executingEnded Device.releaseBuffer
  split
  · rfl
  · split
    · split <;> rfl
    · rfl

theorem Device.groupWarned_opened {d : Device} (h : ∀ g, d.group = some g → g.state = .opened) : d.groupWarned.group = none := by
  unfold Device.groupWarned
  split
  · next g hg =>
    rw [if_pos (h g hg), Device.endGroup_eq hg]
  · next hg => exact hg

theorem Device.groupWarned_noGroup {d : Device} (hg : d.group = none) : d.groupWarned = d := by
  simp only [Device.groupWarned, hg]

theorem Device.groupWarned_committing {d : Device} {g : GroupContext} (hg : d.group = some g) (hs : g.state = .committing) :
    d.groupWarned = d := by
  unfold Device.groupWarned
  simp only [hg]
  exact if_neg (by simp [hs])

/-- Under the warning a COMMIT_GROUP with members ends without commit, and its group with it (R117, R184). -/
theorem Device.endCommand_aborts {d : Device} {x : Executing} {g : GroupContext} (status : Status) (result : Nat) (hx : d.ex = some x)
    (hc : x.code = .commitGroup) (hm : x.member = false) (hg : d.group = some g) (hs : g.state = .committing) :
    d.endCommand status result = d.endGroup.executingEnded x status result := by
  have hcommit : Device.commitEnded { d with ex := none } x = { d.endGroup with ex := none } := by
    have hg' : ({ d with ex := none } : Device).group = some g := hg
    have hends : ({ d with ex := none } : Device).endGroup = { d.endGroup with ex := none } := by
      rw [Device.endGroup_eq hg', Device.endGroup_eq hg, Device.orphans_banks g.members (d := { d with ex := none }) (e := d) rfl]
    rw [← hends]
    unfold Device.commitEnded
    split
    · next g' hg'' =>
      cases hg'.symm.trans hg''
      exact if_pos ⟨hc, hs⟩
    · next hn => cases hn.symm.trans hg'
  have hgroup : Device.groupEnded { d with ex := none } x = { d.endGroup with ex := none } := by
    rw [Device.groupEnded, if_neg (by simp [hm]), hcommit]
  rw [Device.endCommand_groupEnded status result hx, hgroup]
  rfl

/-- OPEN_GROUP's step under the warning: the sequence is consumed, or there is none left (R184). -/
theorem Device.startOpenGroup_warned {c : Ctx} {d : Device} {x : Executing} {timeout : Nat} (hw : c.warning = true)
    (hr : d.openGroupRefusal x.desc = none) :
    (d.nextSeq ≤ 0xFFFFFF00 →
      d.startOpenGroup c x timeout = ({ d with nextSeq := d.nextSeq + 1 } : Device).endCommand .powerAbort 0) ∧
    (0xFFFFFF00 < d.nextSeq → d.startOpenGroup c x timeout = (d.degrade .sequence).endCommand .readOnly 0) := by
  unfold Device.startOpenGroup
  rw [Device.firstRefusal_openGroupChecks, hr]
  constructor
  · intro hq
    have hs : d.sequenceLeft = true := decide_eq_true hq
    dsimp only
    rw [if_neg (by simp [hs]), if_pos hw]
  · intro hq
    have hs : d.sequenceLeft = false := decide_eq_false (Nat.not_le.mpr hq)
    exact if_pos (by simp [hs])

/-- What the entry leaves of the group that the step then sees. -/
theorem State.MeetsWarning.group_underWarning {s : State} {p : Posted} {rest : List Posted} {x : Executing} {d : Device}
    (h : s.MeetsWarning p rest) (hx : x = s.headExecuting p) (hd : d = (s.headTaken p rest).underWarning x) (hm : x.member = false) :
    (p.code ≠ .commitGroup → d.group = none) ∧
      (p.code = .commitGroup → d.group = s.dev.group.map fun g => { g with state := .committing, deadline := none }) := by
  subst hx
  obtain ⟨banks, mark, r, hu, _⟩ := h.underWarning_eq hm
  have hgroup : d.group = (s.headTaken p rest).warnNoted.groupWarned.group := by rw [hd, hu]
  have htaken : (s.headTaken p rest).warnNoted.group = s.dev.groupTaken p := rfl
  constructor
  · intro hc
    rw [hgroup]
    refine Device.groupWarned_opened fun g hg => h.turn.group_opened g ?_
    rw [← hg, htaken, Device.groupTaken_other _ hc]
  · intro hc
    rw [Device.groupTaken_commitGroup _ hc] at htaken
    rw [hgroup, ← htaken]
    cases hg : s.dev.group with
    | none =>
      rw [hg] at htaken
      rw [Device.groupWarned_noGroup htaken, htaken]
    | some g =>
      rw [hg] at htaken
      rw [Device.groupWarned_committing htaken rfl]

/-- Settles O20: each command's step on the group, and the group's end bank by bank; under the warning the group has ended before the step,
but for COMMIT_GROUP's own. -/
theorem groupOpenedAndEnded : Obligations.GroupOpenedAndEnded := by
  refine ⟨fun s p rest ht hrest hc hr hq timeout htime => ?opens,
    fun s p rest g ht hrest hg => ⟨fun hc => ?drops, fun hc hm => ?empty⟩,
    fun d g hg => ?ends, fun s p rest cut x d h hx hd =>
      ⟨fun hc hr => ⟨fun hq => ?aborts, fun hq => ?exhausted⟩, fun hc => ?dropsNone,
        fun g hc hg => ⟨fun hm => ?commits, fun hm => ?commitAborts⟩⟩⟩
  case opens =>
    have htaken : groupTimeout s.cfg.groupTimeout p.desc = timeout := htime.symm
    have hstep := State.headTaken_opensGroup (s := s) rest (c := { cfg := s.cfg, warning := false }) rfl hc hr hq
    rw [htaken, State.headTaken_ends (s := { s with dev := s.dev.openGroup timeout }) rest _ _ ht.idle
      (Device.openGroup_grp _ _ ht.groups) (by simp [hc])] at hstep
    rw [ht.exec_endsWith hrest hstep ht.idle rfl rfl, Device.openGroup_headEnded]
    rfl
  case drops =>
    have hstep := State.headTaken_dropsGroup rest { cfg := s.cfg, warning := false } hc hg
    obtain ⟨banks, moved, hend⟩ := s.dev.endGroup_frame
    have hidle : s.dev.endGroup.ex = none := by
      rw [hend]
      exact ht.idle
    rw [State.headTaken_endsGroupless (s := { s with dev := s.dev.endGroup }) rest _ _ hidle (by rw [hend])] at hstep
    exact ht.exec_endsWith hrest hstep hidle (by rw [hend]) (by rw [hend])
  case empty =>
    have hstep := State.headTaken_commitsEmpty rest { cfg := s.cfg, warning := false } hc hg hm
    rw [State.headTaken_endsGroupless (s := { s with dev := { s.dev with group := none } }) rest _ _ ht.idle rfl] at hstep
    exact ht.exec_endsWith hrest hstep ht.idle rfl rfl
  case ends =>
    refine ⟨_, rfl, ?_, fun b => ?_, ?_⟩
    · rw [Device.endGroup_eq hg]
    · rw [Device.bank_endGroup hg, sum_deadIn]
      rfl
    · rw [Device.userSlots_noGroup (d := d.endGroup) (by rw [Device.endGroup_eq hg]), Device.endGroup_eq hg]
  case aborts =>
    obtain ⟨hxc, hm⟩ := State.headExecuting_noMember hx hc rfl
    have hg := (h.group_underWarning hx hd hm).1 (by simp [hc])
    rw [← Device.executingEnded_nextSeq d x .powerAbort 0 (d.nextSeq + 1) hg]
    refine h.exec_ended cut hx hd hm ?_ rfl rfl
    rw [← Device.endCommand_noGroup (d := { d with nextSeq := d.nextSeq + 1 }) _ _ (h.warnBetween_step hx hd hm).1 hg]
    simp only [Device.startCommand, hxc]
    refine (Device.startOpenGroup_warned rfl ?_).1 hq
    rw [Device.refusalFor, hc] at hr
    rw [hx]
    exact hr
  case exhausted =>
    obtain ⟨hxc, hm⟩ := State.headExecuting_noMember hx hc rfl
    have hg := (h.group_underWarning hx hd hm).1 (by simp [hc])
    have hex := (h.warnBetween_step hx hd hm).1
    refine (h.exec_ended (e := d.withCause .sequence) cut hx hd hm ?_ rfl rfl).trans
      (by rw [Device.executingEnded_withCause]; rfl)
    have hready : d.store = .ready := by
      obtain ⟨banks, mark, r, hu, _⟩ := h.underWarning_eq (hx ▸ hm)
      obtain ⟨group, banks', moved, hge⟩ := (s.headTaken p rest).warnNoted.groupWarned_frame
      rw [hd, hx, hu, hge]
      exact h.turn.ready (by rw [hc]; rfl)
    have hphase : d.commandPhase ≠ .waitingSpace := by
      unfold Device.commandPhase
      rw [hex, hx]
      exact nofun
    rw [← Device.endCommand_noGroup (d := d.withCause .sequence) _ _ hex hg, ← Device.degrade_ready .sequence hready hphase]
    simp only [Device.startCommand, hxc]
    refine (Device.startOpenGroup_warned rfl ?_).2 hq
    rw [Device.refusalFor, hc] at hr
    rw [hx]
    exact hr
  case dropsNone =>
    obtain ⟨hxc, hm⟩ := State.headExecuting_noMember hx hc rfl
    have hg := (h.group_underWarning hx hd hm).1 (by simp [hc])
    refine h.exec_ended cut hx hd hm ?_ rfl rfl
    rw [← Device.endCommand_noGroup _ _ (h.warnBetween_step hx hd hm).1 hg]
    simp only [Device.startCommand, hxc]
    exact if_pos (by simp [hg])
  case commits =>
    obtain ⟨hxc, hmx⟩ := State.headExecuting_noMember hx hc rfl
    have hdg := (h.group_underWarning hx hd hmx).2 hc
    rw [hg] at hdg
    refine h.exec_ended (e := { d with group := none }) cut hx hd hmx ?_ rfl rfl
    rw [← Device.endCommand_noGroup (d := { d with group := none }) _ _ (h.warnBetween_step hx hd hmx).1 rfl]
    simp only [Device.startCommand, hxc, Device.startCommitGroup, hdg, Option.map_some, hm, List.isEmpty_nil, if_true]
  case commitAborts =>
    obtain ⟨hxc, hmx⟩ := State.headExecuting_noMember hx hc rfl
    have hdg := (h.group_underWarning hx hd hmx).2 hc
    rw [hg] at hdg
    have hex := (h.warnBetween_step hx hd hmx).1
    have hf : x.format = none := by rw [hx]; rfl
    refine h.exec_ended (e := d.endGroup) cut hx hd hmx ?_ (by rw [Device.endGroup_eq hdg]) (by rw [Device.endGroup_eq hdg])
    rw [← Device.endCommand_aborts _ _ hex hxc hmx hdg rfl, ← Device.commandPowerEnd_noFormat (Device.formatProgress_of hex hf)]
    simp only [Device.startCommand, hxc]
    rw [Device.startCommitGroup_places _ hdg hm, Device.commandPlace_warned _ _ rfl]

end Sys2Proof.Machine
end

section
/-! The commit of a group (R51, R116, R123): each member applied to the Directory, the needed records counted in their banks, the Commit
Table's new entry, and the context removed. -/
namespace Sys2Proof.Machine
open Sys2Proof

/-! ## What changes the counts of banks -/

/-- From one device to the next only the Directory and the banks change, in each bank the tagged count by `n`, and no dead line lives
again. -/
structure Device.Counts (d e : Device) (n : BankId → Nat) : Prop where
  frame : e = { d with dir := e.dir, banks := e.banks }
  tagged : ∀ b, (e.bank b).tagged = (d.bank b).tagged + n b
  dead : ∀ b, (d.bank b).dead ≤ (e.bank b).dead

theorem Device.Counts.refl (d : Device) : d.Counts d fun _ => 0 := ⟨rfl, fun _ => rfl, fun _ => Nat.le_refl _⟩

theorem Device.Counts.trans {d e f : Device} {m n : BankId → Nat} (h : d.Counts e m) (k : e.Counts f n) :
    d.Counts f fun b => m b + n b :=
  ⟨k.frame.trans (by rw [h.frame]), fun b => by rw [k.tagged, h.tagged, Nat.add_assoc], fun b => (h.dead b).trans (k.dead b)⟩

theorem Device.Counts.group {d e : Device} {n : BankId → Nat} (h : d.Counts e n) : e.group = d.group := by rw [h.frame]

theorem Device.Counts.reclaim {d e : Device} {n : BankId → Nat} (h : d.Counts e n) : e.reclaim = d.reclaim := by rw [h.frame]

theorem Device.commitEntry_counts (d : Device) (c : Committed) : d.Counts (d.commitEntry c) fun _ => 0 := by
  obtain ⟨dir, banks, h⟩ := d.commitEntry_frame c
  have hbanks := (d.commitEntry_effect c rfl).2
  refine ⟨by rw [h], fun b => by rw [hbanks]; rfl, fun b => ?_⟩
  rw [hbanks]
  exact Nat.le_add_right_of_le (Nat.le_add_right _ _)

theorem Device.putEntry_counts (d : Device) (e : DirEntry) : d.Counts (d.putEntry e) fun _ => 0 :=
  ⟨rfl, fun _ => rfl, fun _ => Nat.le_refl _⟩

/-! ## A member applied to the Directory (R51, R116 step 1) -/

/-- What a member's record commits. -/
def MemberEntry.committed (m : MemberEntry) (gid : Nat) : Committed :=
  { key := m.key, cls := m.cls, state := m.state, loc := m.loc, length := m.length, seq := m.seq, newBase := gid
    increment := m.staleIncrement }

/-- The entry that the group's commit leaves of a member's key: none for a spent TOMBSTONE, and a copy counted where its record has moved. -/
def MemberEntry.shown (m : MemberEntry) (gid : Nat) (moved : List (Key × Nat)) (before : Option DirEntry) : Option DirEntry :=
  let e := (m.committed gid).entry before
  if e.spentTombstone = true then none else some { e with copies := if (m.key, m.seq) ∈ moved then 1 else 0 }

theorem Committed.entry_copies (c : Committed) (before : Option DirEntry) : (c.entry before).copies = 0 := by
  cases before <;> rfl

/-- One more valid copy of a key's record (R50). -/
def Device.countCopy (d : Device) (k : Key) : Device :=
  match d.entry k with
  | some e => d.putEntry { e with copies := e.copies + 1 }
  | none => d

theorem Device.countCopy_counts (d : Device) (k : Key) : d.Counts (d.countCopy k) fun _ => 0 := by
  unfold Device.countCopy
  split
  · exact d.putEntry_counts _
  · exact .refl d

theorem Device.entry_countCopy (d : Device) (k k' : Key) :
    (d.countCopy k).entry k' = if k' = k then (d.entry k).map fun e => { e with copies := e.copies + 1 } else d.entry k' := by
  unfold Device.countCopy
  split
  · next e he =>
    have hkey : e.key = k := Device.entry_key he
    rw [Device.entry_putEntry, he]
    exact if_congr (by rw [← hkey]) rfl rfl
  · next he =>
    rw [he]
    split
    · next hk => rw [hk, he]; rfl
    · rfl

theorem Device.applyMember_eq (d : Device) (gid : Nat) (m : MemberEntry) :
    d.applyMember gid m =
      if (m.key, m.seq) ∈ d.reclaim.moved then (d.commitEntry (m.committed gid)).countCopy m.key
      else d.commitEntry (m.committed gid) := by
  have hmoved : (d.commitEntry (m.committed gid)).reclaim.moved = d.reclaim.moved := by rw [(d.commitEntry_counts _).reclaim]
  have hcontains : (d.commitEntry (m.committed gid)).reclaim.moved.contains (m.key, m.seq) = true ↔
      (m.key, m.seq) ∈ d.reclaim.moved := by
    rw [hmoved, List.contains_iff_mem]
  show (if (d.commitEntry (m.committed gid)).reclaim.moved.contains (m.key, m.seq) = true then
    (d.commitEntry (m.committed gid)).countCopy m.key else d.commitEntry (m.committed gid)) = _
  exact if_congr hcontains rfl rfl

theorem Device.applyMember_counts (d : Device) (gid : Nat) (m : MemberEntry) : d.Counts (d.applyMember gid m) fun _ => 0 := by
  rw [Device.applyMember_eq]
  split
  · exact (d.commitEntry_counts _).trans (Device.countCopy_counts _ _)
  · exact d.commitEntry_counts _

/-- Applying a member changes its key's entry alone. -/
theorem Device.entry_applyMember (d : Device) (gid : Nat) (m : MemberEntry) (k : Key) :
    (d.applyMember gid m).entry k = if k = m.key then m.shown gid d.reclaim.moved (d.entry m.key) else d.entry k := by
  obtain ⟨e, he⟩ : ∃ e, (m.committed gid).entry (d.entry m.key) = e := ⟨_, rfl⟩
  have hentries : ∀ k, (d.commitEntry (m.committed gid)).entry k =
      if k = m.key then (if e.spentTombstone = true then none else some e) else d.entry k :=
    (d.commitEntry_effect (m.committed gid) he).1
  have hcopies : e.copies = 0 := he ▸ (m.committed gid).entry_copies _
  have hshown : m.shown gid d.reclaim.moved (d.entry m.key) =
      if (m.key, m.seq) ∈ d.reclaim.moved then
        ((d.commitEntry (m.committed gid)).entry m.key).map fun e => { e with copies := e.copies + 1 }
      else (d.commitEntry (m.committed gid)).entry m.key := by
    rw [hentries, if_pos rfl, MemberEntry.shown, he]
    obtain ⟨key, cls, state, loc, length, seq, base, stale, copies⟩ := e
    cases hcopies
    by_cases hmem : (m.key, m.seq) ∈ d.reclaim.moved
    · simp only [if_pos hmem]
      split <;> rfl
    · simp only [if_neg hmem]
  rw [hshown, Device.applyMember_eq]
  by_cases hmem : (m.key, m.seq) ∈ d.reclaim.moved
  · rw [if_pos hmem, if_pos hmem, Device.entry_countCopy]
    by_cases hk : k = m.key
    · rw [if_pos hk, if_pos hk]
    · rw [if_neg hk, if_neg hk, hentries, if_neg hk]
  · rw [if_neg hmem, if_neg hmem]
    by_cases hk : k = m.key
    · rw [if_pos hk, hk]
    · rw [if_neg hk, hentries, if_neg hk]

theorem Device.applyMembers_counts (l : List MemberEntry) (d : Device) (gid : Nat) :
    d.Counts (l.foldl (fun d m => d.applyMember gid m) d) fun _ => 0 := by
  induction l generalizing d with
  | nil => exact .refl d
  | cons m l ih => exact (d.applyMember_counts gid m).trans (ih _)

/-- Members of different keys are applied independently. -/
theorem Device.entry_applyMembers (l : List MemberEntry) (d : Device) (gid : Nat) (hl : (l.map fun m => m.key).Nodup) :
    (∀ k, (∀ m ∈ l, m.key ≠ k) → (l.foldl (fun d m => d.applyMember gid m) d).entry k = d.entry k) ∧
      ∀ m ∈ l, (l.foldl (fun d m => d.applyMember gid m) d).entry m.key = m.shown gid d.reclaim.moved (d.entry m.key) := by
  induction l generalizing d with
  | nil => exact ⟨fun _ _ => rfl, nofun⟩
  | cons m l ih =>
    obtain ⟨hm, hl⟩ := List.nodup_cons.mp hl
    obtain ⟨hother, hself⟩ := ih (d.applyMember gid m) hl
    have hreclaim := (d.applyMember_counts gid m).reclaim
    have hne : ∀ n ∈ l, n.key ≠ m.key := fun n hn he => hm (List.mem_map.mpr ⟨n, hn, he⟩)
    refine ⟨fun k hk => ?_, fun n hn => ?_⟩
    · refine (hother k fun n hn => hk n (List.mem_cons_of_mem _ hn)).trans ?_
      rw [Device.entry_applyMember, if_neg (hk m List.mem_cons_self).symm]
    · rcases List.mem_cons.mp hn with rfl | hn
      · refine (hother n.key hne).trans ?_
        rw [Device.entry_applyMember, if_pos rfl]
      · refine (hself n hn).trans ?_
        rw [Device.entry_applyMember, if_neg (hne n hn), hreclaim]

/-! ## The needed records and the Commit Table (R116 steps 2 and 3) -/

theorem Device.addTagged_counts (d : Device) (c : BankId) :
    d.Counts (d.addTagged c 1) fun b => if c = b then 1 else 0 := by
  refine ⟨rfl, fun b => ?_, fun b => ?_⟩ <;> rw [Device.addTagged]
  all_goals
    by_cases hb : b = c
    · subst hb
      simp
    · simp [Device.bank_setBank_other _ _ hb, Ne.symm hb]

theorem Device.addTaggeds_counts (l : List Location) (d : Device) :
    d.Counts (l.foldl (fun d l => d.addTagged l.bank 1) d) fun b => (l.filter fun x => Decidable.decide (x.bank = b)).length := by
  induction l generalizing d with
  | nil => exact .refl d
  | cons x l ih =>
    have h := (d.addTagged_counts x.bank).trans (ih (d.addTagged x.bank 1))
    refine ⟨h.frame, fun b => (h.tagged b).trans ?_, h.dead⟩
    rw [List.filter_cons]
    by_cases hb : x.bank = b
    · simp [hb, Nat.add_comm]
    · simp [hb]

theorem Device.entry_addTaggeds (l : List Location) (d : Device) (k : Key) :
    (l.foldl (fun d l => d.addTagged l.bank 1) d).entry k = d.entry k := by
  induction l generalizing d with
  | nil => rfl
  | cons x l ih => exact ih (d.addTagged x.bank 1)

/-- The device with a group's members applied and its needed records counted. -/
def Device.membersShown (d : Device) (g : GroupContext) : Device :=
  g.records.foldl (fun d l => d.addTagged l.bank 1) (g.members.foldl (fun d m => d.applyMember g.id m) d)

theorem Device.membersShown_counts (d : Device) (g : GroupContext) :
    d.Counts (d.membersShown g) fun b => (g.records.filter fun l => Decidable.decide (l.bank = b)).length := by
  have h := (Device.applyMembers_counts g.members d g.id).trans (Device.addTaggeds_counts g.records _)
  exact ⟨h.frame, fun b => (h.tagged b).trans (by rw [Nat.zero_add]), h.dead⟩

theorem Device.entry_membersShown {d : Device} {g : GroupContext} (hl : (g.members.map fun m => m.key).Nodup) :
    (∀ k, (∀ m ∈ g.members, m.key ≠ k) → (d.membersShown g).entry k = d.entry k) ∧
      ∀ m ∈ g.members, (d.membersShown g).entry m.key = m.shown g.id d.reclaim.moved (d.entry m.key) := by
  obtain ⟨hother, hself⟩ := Device.entry_applyMembers g.members d g.id hl
  refine ⟨fun k hk => ?_, fun m hm => ?_⟩ <;> rw [Device.membersShown, Device.entry_addTaggeds]
  · exact hother k hk
  · exact hself m hm

/-- The Reclaim Engine once a group has committed: no member has moved, and the victim notes the group (R123, R124). -/
def Reclaim.groupCommitted (r : Reclaim) (gid : Nat) : Reclaim :=
  { r with moved := [], victim := r.victim.map fun v => { v with committedSince := v.committedSince ++ [gid] } }

/-- The device without the group's context. -/
def Device.contextRemoved (d : Device) (gid : Nat) : Device := { d with group := none, reclaim := d.reclaim.groupCommitted gid }

theorem Device.commitGroup_eq {d : Device} {g : GroupContext} (loc : Location) (hg : d.group = some g) :
    d.commitGroup loc =
      (if g.records.length ≥ 1 then
        { d.membersShown g with
          commits := (d.membersShown g).commits ++
            [{ gid := g.id, loc := loc, memberCount := g.members.length, remaining := g.records.length }] }
      else (d.membersShown g).addDead loc.bank 3).contextRemoved g.id := by
  unfold Device.commitGroup
  rw [hg]
  rfl

/-- What the commit of a group leaves of the device. -/
structure Device.GroupShown (d e : Device) (g : GroupContext) (loc : Location) : Prop where
  frame : e =
    { d with dir := e.dir, banks := e.banks, commits := e.commits, group := none, reclaim := d.reclaim.groupCommitted g.id }
  commits : g.records ≠ [] →
    e.commits = d.commits ++ [{ gid := g.id, loc := loc, memberCount := g.members.length, remaining := g.records.length }]
  unneeded : g.records = [] → e.commits = d.commits ∧ (d.bank loc.bank).dead + 3 ≤ (e.bank loc.bank).dead
  tagged : ∀ b, (e.bank b).tagged = (d.bank b).tagged + (g.records.filter fun l => Decidable.decide (l.bank = b)).length
  entry : ∀ k, e.entry k = (d.membersShown g).entry k

theorem Device.commitGroup_shows {d : Device} {g : GroupContext} (loc : Location) (hg : d.group = some g) :
    d.GroupShown (d.commitGroup loc) g loc := by
  have hcounts := d.membersShown_counts g
  have hcommits : (d.membersShown g).commits = d.commits := by rw [hcounts.frame]
  have hframe := hcounts.frame
  rw [Device.commitGroup_eq loc hg]
  by_cases hr : g.records = []
  · have hbank (b : BankId) := Device.bank_addDead_rises (d.membersShown g) loc.bank b 3
    rw [if_neg (by simp [hr])]
    refine ⟨?_, fun hn => absurd hr hn, fun _ => ⟨hcommits, ?_⟩, fun b => ?_, fun k => rfl⟩
    · rw [Device.contextRemoved, hframe]
      rfl
    · show _ ≤ (((d.membersShown g).addDead loc.bank 3).bank loc.bank).dead
      rw [hbank, if_pos rfl]
      exact Nat.add_le_add_right (hcounts.dead _) 3
    · show (((d.membersShown g).addDead loc.bank 3).bank b).tagged = _
      rw [hbank]
      exact hcounts.tagged b
  · have hlen : g.records.length ≥ 1 := List.length_pos_iff.mpr hr
    rw [if_pos hlen, hcommits]
    refine ⟨?_, fun _ => rfl, fun hn => absurd hn hr, hcounts.tagged, fun k => rfl⟩
    rw [Device.contextRemoved, hframe]

/-- The completion that a command's end places, unless it is detached (R79, R85). -/
theorem Device.executingEnded_fifo (d : Device) (x : Executing) (status : Status) (result : Nat) :
    (d.executingEnded x status result).fifo =
      if x.detached then d.fifo else d.fifo ++ [{ tag := x.desc.tag, status := status, result := result }] := by
  obtain ⟨buffers, h⟩ := Device.releaseBuffer_frame { d with ex := none } x.code x.desc.buffer
  unfold Device.executingEnded
  split
  · rfl
  · rw [h]
    rfl

/-- Settles O32: the commit of the group, then the command's end with no group left. -/
theorem groupCommitShowsMembers : Obligations.GroupCommitShowsMembers := by
  intro s x w r g h hc hm hl hg hnodup _
  have hshows := s.dev.opDone.commitGroup_shows { bank := r.bank, line := r.line } (g := g) hg
  obtain ⟨e, he⟩ : ∃ e, s.dev.opDone.commitGroup { bank := r.bank, line := r.line } = e := ⟨_, rfl⟩
  rw [he] at hshows
  obtain ⟨fifo, buffers, hend⟩ := e.executingEnded_frame x .ok 0
  have hex : e.ex = some x := by
    rw [hshows.frame]
    exact h.command
  have hgroup : e.group = none := by rw [hshows.frame]
  have hfc : e.fc = s.dev.opDone.fc := by rw [hshows.frame]
  have hreclaim : e.reclaim = s.dev.reclaim.groupCommitted g.id := by rw [hshows.frame]; rfl
  have hcommit : s.dev.opDone.commandLine s.ctx x w r .ok = e.executingEnded x .ok 0 := by
    rw [Device.commandLine_last h.inProgress.formatProgress hl, Device.commandCommit, hc]
    dsimp only
    rw [he, Device.endCommand_noGroup _ _ hex hgroup]
  have hsettle : (e.executingEnded x .ok 0).settle s.ctx = e.executingEnded x .ok 0 := by
    refine Device.settle_atRest _ _ (Device.executingEnded_atRest ?_ ?_ ?_ ?_ ?_) <;> try rw [hfc]
    · exact h.alone.command
    · exact h.alone.reclaim
    · exact h.alone.mount
    · exact h.alone.erase
    · rw [hreclaim]
      exact h.writer
  have hfifo : e.fifo = s.dev.fifo := by rw [hshows.frame]; rfl
  have hline : r.at_ = w.record.span - 1 := by omega
  obtain ⟨hother, hself⟩ := Device.entry_membersShown (d := s.dev.opDone) hnodup
  refine ⟨e.executingEnded x .ok 0, ?_, ?_, Device.executingEnded_ex _ _ _ _, ?_, ?_, ?_, ?_, ?_, ?_, ?_⟩
  · rw [h.inProgress.exec_asIntended, hcommit, hsettle, hline, RecordSpec.line_last]
  · rw [hend, ← hgroup]
  · rw [hend]
    exact hreclaim
  · rw [Device.executingEnded_fifo, hfifo]
  · rw [hend]
    exact hshows.commits
  · rw [hend]
    exact hshows.unneeded
  · rw [hend]
    exact hshows.tagged
  · intro k hk
    rw [hend]
    exact (hshows.entry k).trans (hother k hk)
  · rintro m hmem entry hentry
    rw [hend]
    have hcommitted : (m.committed g.id).entry (s.dev.opDone.entry m.key) = entry := by
      rw [hentry]
      show (m.committed g.id).entry (s.dev.entry m.key) = _
      cases s.dev.entry m.key with
      | none => rfl
      | some old => by_cases hb : old.state = .damaged <;> simp [Committed.entry, MemberEntry.committed, hb]
    have hspent : entry.spentTombstone = true ↔ entry.state = .tombstone ∧ entry.stale = 0 := by simp [DirEntry.spentTombstone]
    refine ((hshows.entry m.key).trans (hself m hmem)).trans ?_
    rw [MemberEntry.shown, hcommitted]
    exact if_congr hspent rfl rfl

end Sys2Proof.Machine
end

section
/-! The Directory as a list in ascending order of key (R44): an entry put or changed where its key has one, entries removed, entry by entry.
And what the retire of a victim makes of the tables (R55, R124, R125). -/
namespace Sys2Proof.Machine
open Sys2Proof

/-! ## The ordered Directory (R44) -/

theorem dirPut_eq_map {e : DirEntry} {l : List DirEntry} (h : l.Pairwise fun a b => a.key < b.key) (hm : ∃ x ∈ l, x.key = e.key) :
    dirPut e l = l.map fun x => if x.key = e.key then e else x := by
  induction l with
  | nil => exact absurd hm (by simp)
  | cons y l ih =>
    obtain ⟨hy, hl⟩ := List.pairwise_cons.mp h
    obtain ⟨x, hx, hxe⟩ := hm
    have hle : y.key ≤ e.key := by
      rcases List.mem_cons.mp hx with rfl | hx
      · exact BitVec.le_of_eq hxe
      · exact BitVec.le_of_lt (hxe ▸ hy x hx)
    unfold dirPut
    rw [if_neg (BitVec.not_lt.mpr hle), List.map_cons]
    by_cases he : e.key = y.key
    · rw [if_pos he, if_pos he.symm]
      refine congrArg _ (Eq.symm ?_)
      have hne : ∀ z ∈ l, z.key ≠ y.key := fun z hz hzy => BitVec.lt_irrefl y.key (by simpa only [hzy] using hy z hz)
      have hrest : ∀ z ∈ l, (if z.key = e.key then e else z) = z := fun z hz =>
        if_neg fun hze => hne z hz (Eq.trans hze he)
      exact (List.map_congr_left hrest).trans (List.map_id l)
    · rw [if_neg he, if_neg (Ne.symm he)]
      refine congrArg _ (ih hl ⟨x, ?_, hxe⟩)
      exact (List.mem_cons.mp hx).resolve_left fun hxy => he (hxy ▸ hxe.symm)

/-- In order, an entry is the one of its key. -/
theorem find?_of_mem {l : List DirEntry} {e : DirEntry} (h : l.Pairwise fun a b => a.key < b.key) (he : e ∈ l) :
    l.find? (fun x => x.key = e.key) = some e := by
  induction l with
  | nil => cases he
  | cons y l ih =>
    obtain ⟨hy, hl⟩ := List.pairwise_cons.mp h
    rcases List.mem_cons.mp he with rfl | he
    · simp
    · have hne : y.key ≠ e.key := fun hk => BitVec.lt_irrefl _ (hk ▸ hy e he)
      simp [hne, ih hl he]

theorem Device.entry_of_mem {d : Device} {e : DirEntry} (h : d.ordered) (he : e ∈ d.dir) : d.entry e.key = some e := find?_of_mem h he

theorem Device.mem_of_entry {d : Device} {k : Key} {e : DirEntry} (h : d.entry k = some e) : e ∈ d.dir := List.mem_of_find?_eq_some h

/-- In order, an entry put under the key of another replaces it. -/
theorem Device.putEntry_replaces {d : Device} {k : Key} {e : DirEntry} (f : DirEntry → DirEntry) (h : d.ordered)
    (he : d.entry k = some e) (hf : (f e).key = e.key) :
    d.putEntry (f e) = { d with dir := d.dir.map fun x => if x.key = k then f x else x } := by
  have hk : e.key = k := Device.entry_key he
  have hmem := Device.mem_of_entry he
  unfold Device.putEntry
  rw [dirPut_eq_map h ⟨e, hmem, hf.symm⟩]
  refine congrArg (fun dir => { d with dir := dir }) (List.map_congr_left fun x hx => ?_)
  rw [hf, hk]
  by_cases hxk : x.key = k
  · have hxe : x = e := Option.some.inj ((Device.entry_of_mem h hx).symm.trans (hxk ▸ he))
    rw [if_pos hxk, if_pos hxk, hxe]
  · rw [if_neg hxk, if_neg hxk]

/-- Entries changed under their keys, and some removed: what each key then has. -/
theorem find?_filter_map {l : List DirEntry} (f : DirEntry → DirEntry) (p : DirEntry → Bool) (k : Key)
    (h : l.Pairwise fun a b => a.key < b.key) (hf : ∀ e, (f e).key = e.key) :
    ((l.map f).filter p).find? (fun x => x.key = k) = ((l.find? fun x => x.key = k).map f).filter p := by
  induction l with
  | nil => rfl
  | cons y l ih =>
    obtain ⟨hy, hl⟩ := List.pairwise_cons.mp h
    rw [List.map_cons, List.filter_cons, List.find?_cons]
    by_cases hk : y.key = k
    · have hnone : l.find? (fun x => x.key = k) = none :=
        List.find?_eq_none.mpr fun x hx hxk => BitVec.lt_irrefl k (by
          have := hy x hx
          rw [hk, of_decide_eq_true hxk] at this
          exact this)
      have hrest := ih hl
      rw [hnone] at hrest
      simp only [hk, decide_true]
      cases hp : p (f y) with
      | true => simp [hf, hk, Option.filter, hp]
      | false => simpa [Option.filter, hp] using hrest
    · simp only [hk, decide_false]
      rw [← ih hl]
      split
      · simp [hf, hk]
      · rfl

/-! ## Sums of dead lines -/

/-- Acts that each raise the dead lines of banks raise them together. -/
theorem Device.bank_foldl_dead {α : Type} (f : Device → α → Device) (w : α → BankId → Nat)
    (hf : ∀ d a b, (f d a).bank b = { d.bank b with dead := (d.bank b).dead + w a b }) (l : List α) (d : Device) (b : BankId) :
    (l.foldl f d).bank b = { d.bank b with dead := (d.bank b).dead + (l.map fun a => w a b).sum } := by
  induction l generalizing d with
  | nil => rfl
  | cons a l ih => rw [List.foldl_cons, ih, hf, List.map_cons, List.sum_cons, Nat.add_assoc]

theorem sum_map_ite {α : Type} (p : α → Bool) (n : Nat) (l : List α) :
    (l.map fun a => if p a then n else 0).sum = n * (l.filter p).length := by
  induction l with
  | nil => rfl
  | cons a l ih =>
    rw [List.map_cons, List.sum_cons, ih, List.filter_cons]
    split
    · rw [List.length_cons]
      ring
    · exact Nat.zero_add _

/-! ## The victim's records leave the Directory (R55) -/

/-- An entry after the retire of one valid record: a record of its key below its sequence leaves its stale count, one of its sequence its
copy count, unless it lies at the entry's own location. -/
def DirEntry.retireRecord (bank : BankId) (e : DirEntry) (r : WalkRecord) : DirEntry :=
  if e.key = r.header.key ∧ e.loc ≠ some { bank := bank, line := r.line } then
    { e with
      stale := e.stale - if e.base ≤ r.header.seq ∧ r.header.seq < e.seq then 1 else 0
      copies := e.copies - if r.header.seq = e.seq then 1 else 0 }
  else e

theorem Device.retireRecord_eq {d : Device} (bank : BankId) (r : WalkRecord) (h : d.ordered) :
    d.retireRecord bank r = { d with dir := d.dir.map fun e => e.retireRecord bank r } := by
  have hmap (f : DirEntry → DirEntry)
      (hf : ∀ x, d.entry r.header.key = some x → f x = x.retireRecord bank r) :
      ({ d with dir := d.dir.map fun x => if x.key = r.header.key then f x else x } : Device) =
        { d with dir := d.dir.map fun e => e.retireRecord bank r } := by
    refine congrArg (fun dir => { d with dir := dir }) (List.map_congr_left fun x hx => ?_)
    by_cases hk : x.key = r.header.key
    · rw [if_pos hk, hf x (hk ▸ Device.entry_of_mem h hx)]
    · rw [if_neg hk, DirEntry.retireRecord, if_neg fun hn => hk hn.1]
  have hid : ({ d with dir := d.dir.map fun x => if x.key = r.header.key then x else x } : Device) = d := by simp
  unfold Device.retireRecord
  cases he : d.entry r.header.key with
  | none => exact hid.symm.trans (hmap id fun x hx => nomatch he.symm.trans hx)
  | some e =>
    have hkey : e.key = r.header.key := Device.entry_key he
    have hself (x : DirEntry) (hx : d.entry r.header.key = some x) : x = e := Option.some.inj (hx.symm.trans he)
    dsimp only
    by_cases hl : e.loc = some { bank := bank, line := r.line }
    · rw [if_pos hl]
      refine hid.symm.trans (hmap id fun x hx => ?_)
      rw [hself x hx, DirEntry.retireRecord, if_neg fun hn => hn.2 hl]
      rfl
    · rw [if_neg hl]
      have hretire : e.retireRecord bank r = _ := if_pos ⟨hkey, hl⟩
      by_cases hstale : e.base ≤ r.header.seq ∧ r.header.seq < e.seq
      · have hseq : r.header.seq ≠ e.seq := by omega
        rw [if_pos hstale, Device.putEntry_replaces (fun x => { x with stale := x.stale - 1 }) h he rfl]
        refine hmap _ fun x hx => ?_
        rw [hself x hx, hretire, if_pos hstale, if_neg hseq]
        rfl
      · rw [if_neg hstale]
        by_cases hseq : r.header.seq = e.seq
        · rw [if_pos hseq, Device.putEntry_replaces (fun x => { x with copies := x.copies - 1 }) h he rfl]
          refine hmap _ fun x hx => ?_
          rw [hself x hx, hretire, if_neg hstale, if_pos hseq]
          rfl
        · rw [if_neg hseq]
          refine hid.symm.trans (hmap id fun x hx => ?_)
          rw [hself x hx, hretire, if_neg hstale, if_neg hseq]
          rfl

/-- An entry after the retire of all valid records. -/
def DirEntry.retireRecords (bank : BankId) (valid : List WalkRecord) (e : DirEntry) : DirEntry :=
  valid.foldl (DirEntry.retireRecord bank) e

theorem Device.retireRecords_eq {d : Device} (bank : BankId) (valid : List WalkRecord) (h : d.ordered) :
    valid.foldl (fun d r => d.retireRecord bank r) d = { d with dir := d.dir.map (DirEntry.retireRecords bank valid) } := by
  induction valid generalizing d with
  | nil =>
    have hid : d.dir.map (DirEntry.retireRecords bank []) = d.dir := List.map_id d.dir
    rw [hid]
    rfl
  | cons r valid ih =>
    rw [List.foldl_cons, ih (Device.retireRecord_ord d bank r h), Device.retireRecord_eq bank r h]
    simp only [List.map_map]
    rfl

/-- The retire leaves an entry its key, class, state, location and sequences. -/
theorem DirEntry.retireRecords_frame (bank : BankId) (valid : List WalkRecord) (e : DirEntry) :
    ∃ stale copies, e.retireRecords bank valid = { e with stale := stale, copies := copies } := by
  induction valid generalizing e with
  | nil => exact ⟨e.stale, e.copies, rfl⟩
  | cons r valid ih =>
    have hstep : ∃ stale copies, e.retireRecord bank r = { e with stale := stale, copies := copies } := by
      unfold DirEntry.retireRecord
      split
      · exact ⟨_, _, rfl⟩
      · exact ⟨e.stale, e.copies, rfl⟩
    obtain ⟨stale, copies, he⟩ := hstep
    obtain ⟨stale', copies', he'⟩ := ih (e.retireRecord bank r)
    exact ⟨stale', copies', he'.trans (by rw [he])⟩

/-- An entry located outside the victim loses the victim's records of its key, by their sequence (R55 step 1). -/
theorem DirEntry.retireRecords_outside {bank : BankId} (valid : List WalkRecord) {e : DirEntry}
    (hl : ∀ l, e.loc = some l → l.bank ≠ bank) :
    e.retireRecords bank valid =
      { e with
        stale := e.stale - (valid.filter fun r =>
          Decidable.decide (r.header.key = e.key ∧ e.base ≤ r.header.seq ∧ r.header.seq < e.seq)).length
        copies := e.copies - (valid.filter fun r => Decidable.decide (r.header.key = e.key ∧ r.header.seq = e.seq)).length } := by
  induction valid generalizing e with
  | nil => rfl
  | cons r valid ih =>
    have hloc : e.loc ≠ some { bank := bank, line := r.line } := fun h => hl _ h rfl
    show (e.retireRecord bank r).retireRecords bank valid = _
    unfold DirEntry.retireRecord
    by_cases hk : e.key = r.header.key
    · rw [if_pos ⟨hk, hloc⟩, List.filter_cons, List.filter_cons]
      refine (ih ?_).trans ?_
      · exact hl
      have hk' : r.header.key = e.key := hk.symm
      by_cases hstale : e.base ≤ r.header.seq ∧ r.header.seq < e.seq <;> by_cases hseq : r.header.seq = e.seq <;>
        simp [hk', hstale, hseq, Nat.sub_sub, Nat.add_comm]
    · have hk' : r.header.key ≠ e.key := fun h => hk h.symm
      rw [if_neg fun h => hk h.1, ih hl, List.filter_cons, List.filter_cons]
      simp [hk']

/-- The lines of a removed TOMBSTONE in a bank. -/
theorem Device.bank_tombstoneDead (d : Device) (victim : BankId) (e : DirEntry) (b : BankId) :
    (d.tombstoneDead victim e).bank b =
      { d.bank b with
        dead := (d.bank b).dead + if Decidable.decide (b ≠ victim) && e.loc.any fun l => Decidable.decide (l.bank = b) then 2 else 0 } := by
  unfold Device.tombstoneDead
  cases hl : e.loc with
  | none => simp
  | some loc =>
    by_cases hv : loc.bank = victim
    · by_cases hb : loc.bank = b
      · simp [hv, ← hb]
      · simp [hv, hv ▸ hb]
    · by_cases hb : loc.bank = b
      · subst hb
        simp [hv, Device.bank_addDead_rises]
      · simp [hv, hb, Device.bank_addDead_rises]

/-- The entry that the retire leaves of a key (R55): none where a TOMBSTONE is spent by it. -/
theorem Device.retireDirectory_effect {d : Device} (bank : BankId) (valid : List WalkRecord) (h : d.ordered) :
    d.retireDirectory bank valid =
        { d with dir := (d.retireDirectory bank valid).dir, banks := (d.retireDirectory bank valid).banks } ∧
      (∀ k, (d.retireDirectory bank valid).entry k =
        ((d.entry k).map (DirEntry.retireRecords bank valid)).filter fun e => !e.spentTombstone) ∧
      ∀ b, (d.retireDirectory bank valid).bank b =
        { d.bank b with
          dead := (d.bank b).dead +
            2 * (((d.dir.map (DirEntry.retireRecords bank valid)).filter DirEntry.spentTombstone).filter fun e =>
              Decidable.decide (b ≠ bank) && e.loc.any fun l => Decidable.decide (l.bank = b)).length } := by
  have hframe (l : List DirEntry) (u : Device) :
      l.foldl (fun d e => d.tombstoneDead bank e) u = { u with banks := (l.foldl (fun d e => d.tombstoneDead bank e) u).banks } := by
    induction l generalizing u with
    | nil => rfl
    | cons e l ih =>
      have hstep : u.tombstoneDead bank e = { u with banks := (u.tombstoneDead bank e).banks } := by
        unfold Device.tombstoneDead
        repeat' split
        all_goals rfl
      rw [List.foldl_cons, ih, hstep]
  have hfold := Device.retireRecords_eq bank valid h
  unfold Device.retireDirectory
  rw [hfold]
  dsimp only
  have hkey (e : DirEntry) : (e.retireRecords bank valid).key = e.key := by
    obtain ⟨stale, copies, he⟩ := e.retireRecords_frame bank valid
    rw [he]
  refine ⟨?_, fun k => ?_, fun b => ?_⟩
  · rw [hframe]
  · rw [hframe]
    exact find?_filter_map _ _ k h hkey
  · refine (Device.bank_foldl_dead _ _ (fun d e b => d.bank_tombstoneDead bank e b) _ _ b).trans ?_
    rw [sum_map_ite]
    rfl

/-! ## The victim's records leave the group and the Commit Table (R124, R125) -/

/-- A member after the retire of the pending records of its group (R124). -/
theorem GroupContext.retireRecords_eq (l : List WalkRecord) (g : GroupContext) :
    l.foldl GroupContext.retireRecord g =
      { g with
        members := g.members.map fun m =>
          { m with
            staleIncrement := m.staleIncrement -
              (l.filter fun r => Decidable.decide (r.header.key = m.key ∧ r.header.seq < m.seq)).length } } := by
  induction l generalizing g with
  | nil => simp
  | cons r l ih =>
    rw [List.foldl_cons, ih]
    unfold GroupContext.retireRecord mapMember
    dsimp only
    rw [List.map_map]
    refine congrArg (fun members => { g with members := members }) (List.map_congr_left fun m _ => ?_)
    rw [Function.comp_apply, List.filter_cons]
    by_cases hk : m.key = r.header.key
    · have hk' : r.header.key = m.key := hk.symm
      by_cases hs : r.header.seq < m.seq
      · simp [hk', hs, Nat.sub_sub, Nat.add_comm]
      · simp [hk', hs]
    · have hk' : r.header.key ≠ m.key := fun h => hk h.symm
      simp [hk, hk']

theorem Device.retireGroup_eq (d : Device) (bank : BankId) (walk : List WalkRecord) :
    d.retireGroup bank walk =
      { d with
        group := d.group.map fun g =>
          { g with
            members := g.members.map fun m =>
              { m with
                staleIncrement := m.staleIncrement -
                  (walk.filter fun r => Decidable.decide (r.verdict = .pending ∧ r.header.gid = some g.id ∧ r.header.key = m.key ∧
                    r.header.seq < m.seq)).length }
            records := g.records.filter fun l => Decidable.decide (l.bank ≠ bank) }
        reclaim := { d.reclaim with moved := [] } } := by
  have hfilter (g : GroupContext) (m : MemberEntry) :
      ((walk.filter fun r => Decidable.decide (r.verdict = .pending) && Decidable.decide (r.header.gid = some g.id)).filter fun r =>
          Decidable.decide (r.header.key = m.key ∧ r.header.seq < m.seq)) =
        walk.filter fun r =>
          Decidable.decide (r.verdict = .pending ∧ r.header.gid = some g.id ∧ r.header.key = m.key ∧ r.header.seq < m.seq) := by
    rw [List.filter_filter]
    refine List.filter_congr fun r _ => ?_
    simp only [Bool.decide_and]
    cases Decidable.decide (r.verdict = .pending) <;> cases Decidable.decide (r.header.gid = some g.id) <;> simp
  unfold Device.retireGroup Device.mapGroup Device.mapReclaim
  cases d.group with
  | none => rfl
  | some g =>
    simp only [Option.map_some, GroupContext.retireRecords_eq, hfilter]

/-- The victim's valid records of a group. -/
def groupRecords (valid : List WalkRecord) (gid : Nat) : Nat :=
  (valid.filter fun r => Decidable.decide (r.header.gid = some gid)).length

/-- The Commit Table after the retire (R125): the victim's valid records leave their groups' entries; one left with none, or whose COMMIT
record lies in the victim, is removed, its lines dead where they stay. -/
theorem Device.retireCommits_effect (d : Device) (bank : BankId) (valid : List WalkRecord) :
    d.retireCommits bank valid =
        { d with
          commits := (d.commits.map fun c => { c with remaining := c.remaining - groupRecords valid c.gid }).filter
            fun c => Decidable.decide (c.remaining ≠ 0 ∧ c.loc.bank ≠ bank)
          banks := (d.retireCommits bank valid).banks } ∧
      ∀ b, (d.retireCommits bank valid).bank b =
        { d.bank b with
          dead := (d.bank b).dead +
            3 * (d.commits.filter fun c => Decidable.decide (b ≠ bank) &&
              Decidable.decide (c.loc.bank = b ∧ c.remaining ≤ groupRecords valid c.gid)).length } := by
  have hframe (l : List CommitEntry) (u : Device) :
      l.foldl (fun d (c : CommitEntry) => d.addDead c.loc.bank 3) u =
        { u with banks := (l.foldl (fun d (c : CommitEntry) => d.addDead c.loc.bank 3) u).banks } := by
    induction l generalizing u with
    | nil => rfl
    | cons c l ih =>
      rw [List.foldl_cons, ih]
      rfl
  have hcount (b : BankId) :
      (((d.commits.map fun c => { c with remaining := c.remaining - groupRecords valid c.gid }).filter fun c =>
          Decidable.decide (c.remaining = 0) && Decidable.decide (c.loc.bank ≠ bank)).filter fun c =>
        Decidable.decide (c.loc.bank = b)).length =
      (d.commits.filter fun c => Decidable.decide (b ≠ bank) &&
        Decidable.decide (c.loc.bank = b ∧ c.remaining ≤ groupRecords valid c.gid)).length := by
    rw [List.filter_filter, List.filter_map, List.length_map]
    refine congrArg List.length (List.filter_congr fun c _ => ?_)
    by_cases hb : c.loc.bank = b
    · simp [hb, Nat.sub_eq_zero_iff_le, Bool.and_comm]
    · simp [hb]
  unfold Device.retireCommits
  refine ⟨?_, fun b => ?_⟩
  · dsimp only
    rw [hframe]
    simp only [Bool.decide_and]
    rfl
  · have hdead := Device.bank_foldl_dead (fun d (c : CommitEntry) => d.addDead c.loc.bank 3)
      (fun c b => if Decidable.decide (c.loc.bank = b) then 3 else 0)
      (fun d c b => by rw [Device.bank_addDead_rises]; simp)
    refine (hdead _ _ b).trans ?_
    rw [sum_map_ite]
    exact congrArg (fun n => { d.bank b with dead := (d.bank b).dead + 3 * n }) (hcount b)

end Sys2Proof.Machine
end

section
/-! The retire line of a victim (R55, R124, R125, R136, R143, R144, R146): what its verify makes of every table, and its fault. -/
namespace Sys2Proof.Machine
open Sys2Proof

/-! ## RECLAIM's answer (R136) -/

/-- The Reclaim Engine once it has answered the request it held. -/
def Reclaim.answered (r : Reclaim) : Reclaim :=
  { r with request := none, victim := r.victim.map fun v => { v with forRequest := false } }

/-- A held RECLAIM is answered: it ends. -/
theorem Device.answerReclaim_held {d : Device} {x : Executing} (status : Status) (result : Nat) (hq : d.reclaim.request ≠ none)
    (hx : d.ex = some x) (hs : x.stage = .reclaimHeld) (hc : x.code = .reclaim) (hm : x.member = false) :
    d.answerReclaim status result = ({ d with reclaim := d.reclaim.answered } : Device).executingEnded x status result := by
  obtain ⟨n, hn⟩ := Option.ne_none_iff_exists'.mp hq
  unfold Device.answerReclaim
  simp only [hn, hx, hs]
  rw [Device.endCommand_eq (d := d.mapReclaim _) status result (x := x) hx (by simp [hc]) hm]
  rfl

theorem Device.answerReclaim_idle {d : Device} (status : Status) (result : Nat) (hx : d.ex = none) :
    d.answerReclaim status result = d := by
  unfold Device.answerReclaim
  rw [hx]
  split
  · next h => cases h
  · rfl

/-- What the answer reaches: the request, and a RECLAIM that waits on it. -/
theorem Device.answerReclaim_frame {d : Device} (status : Status) (result : Nat)
    (h : ∀ x, d.ex = some x → x.stage = .reclaimHeld → x.code = .reclaim ∧ x.member = false) :
    ∃ ex fifo buffers request victim,
      d.answerReclaim status result =
          { d with ex := ex, fifo := fifo, buffers := buffers, reclaim := { d.reclaim with request := request, victim := victim } } ∧
        (ex = none ∨ ex = d.ex) := by
  cases hx : d.ex with
  | none =>
    refine ⟨none, d.fifo, d.buffers, d.reclaim.request, d.reclaim.victim, ?_, .inl rfl⟩
    rw [Device.answerReclaim_idle _ _ hx, ← hx]
  | some x =>
    by_cases hq : d.reclaim.request = none
    · refine ⟨d.ex, d.fifo, d.buffers, d.reclaim.request, d.reclaim.victim, ?_, .inr hx⟩
      unfold Device.answerReclaim
      simp only [hq]
      rw [← hq]
    by_cases hs : x.stage = .reclaimHeld
    · obtain ⟨hc, hm⟩ := h x hx hs
      obtain ⟨fifo, buffers, hend⟩ := Device.executingEnded_frame { d with reclaim := d.reclaim.answered } x status result
      exact ⟨none, fifo, buffers, _, _, (Device.answerReclaim_held _ _ hq hx hs hc hm).trans hend, .inl rfl⟩
    · obtain ⟨n, hn⟩ := Option.ne_none_iff_exists'.mp hq
      refine ⟨d.ex, d.fifo, d.buffers, none, d.reclaim.answered.victim, ?_, .inr hx⟩
      unfold Device.answerReclaim
      simp only [hn, hx]
      rw [Device.mapReclaim, hx]
      rfl

/-! ## The tables after the retire (R55, R124, R125, R143) -/

theorem Victim.validAtRetire_eq (v : Victim) (r : WalkRecord) :
    v.validAtRetire r = Decidable.decide (r.verdict = .valid ∨
      (r.verdict = .pending ∧ ∃ gid ∈ v.committedSince, r.header.gid = some gid)) := by
  unfold Victim.validAtRetire
  cases r.header.gid with
  | none => simp
  | some gid => simp

/-- The device with the victim retired, the tables without its records, and no request answered yet. -/
def Device.tablesRetired (d : Device) (v : Victim) : Device :=
  let d := (d.emptyInto v.bank .retired).mapReclaim fun r => { r with eraseList := r.eraseList ++ [v.bank] }
  ((d.retireDirectory v.bank (v.walk.filter v.validAtRetire)).retireGroup v.bank v.walk).retireCommits v.bank
    (v.walk.filter v.validAtRetire)

theorem Device.retired_eq (d : Device) (v : Victim) :
    d.retired v =
      (if answersRequest v (d.tablesRetired v).reclaim.request then (d.tablesRetired v).answerReclaim .ok v.bank.val
        else d.tablesRetired v).mapReclaim fun r => { r with victim := none, job := .idle } := rfl

/-- What the retire makes of the tables. -/
structure Device.VictimGone (d e : Device) (v : Victim) (valid : List WalkRecord) : Prop where
  frame : e = { d with
    dir := e.dir, banks := e.banks
    commits := (d.commits.map fun c => { c with remaining := c.remaining - groupRecords valid c.gid }).filter fun c =>
      Decidable.decide (c.remaining ≠ 0 ∧ c.loc.bank ≠ v.bank)
    group := d.group.map fun g =>
      { g with
        members := g.members.map fun m =>
          { m with
            staleIncrement := m.staleIncrement -
              (v.walk.filter fun r => Decidable.decide (r.verdict = .pending ∧ r.header.gid = some g.id ∧ r.header.key = m.key ∧
                r.header.seq < m.seq)).length }
        records := g.records.filter fun l => Decidable.decide (l.bank ≠ v.bank) }
    reclaim := { d.reclaim with eraseList := d.reclaim.eraseList ++ [v.bank], moved := [] } }
  entry : ∀ k, e.entry k = ((d.entry k).map (DirEntry.retireRecords v.bank valid)).filter fun e => !e.spentTombstone
  victim : e.bank v.bank = { d.bank v.bank with state := .retired, used := 0, dead := 0, tagged := 0 }
  bank : ∀ b, b ≠ v.bank → e.bank b =
    { d.bank b with
      dead := (d.bank b).dead +
        2 * (((d.dir.map (DirEntry.retireRecords v.bank valid)).filter DirEntry.spentTombstone).filter fun e =>
          e.loc.any fun l => Decidable.decide (l.bank = b)).length +
        3 * (d.commits.filter fun c => Decidable.decide (c.loc.bank = b ∧ c.remaining ≤ groupRecords valid c.gid)).length }

theorem Device.tablesRetired_gone {d : Device} (v : Victim) (h : d.ordered) :
    d.VictimGone (d.tablesRetired v) v (v.walk.filter v.validAtRetire) := by
  obtain ⟨valid, hvalid⟩ : ∃ valid, v.walk.filter v.validAtRetire = valid := ⟨_, rfl⟩
  obtain ⟨d1, hd1⟩ : ∃ d1 : Device,
      ((d.emptyInto v.bank .retired).mapReclaim fun r => { r with eraseList := r.eraseList ++ [v.bank] }) = d1 := ⟨_, rfl⟩
  have hbank1 (b : BankId) : d1.bank b =
      if b = v.bank then { d.bank v.bank with state := .retired, used := 0, dead := 0, tagged := 0 } else d.bank b := by
    rw [← hd1]
    exact Device.bank_setBank d v.bank b _
  have hframe1 : d1 = { d with
      banks := d1.banks, reclaim := { d.reclaim with eraseList := d.reclaim.eraseList ++ [v.bank] } } := by
    rw [← hd1]
    rfl
  have hord : d1.ordered := by
    rw [hframe1]
    exact h
  have hdir : d1.dir = d.dir := by rw [hframe1]
  obtain ⟨hframe2, hentry2, hbank2⟩ := Device.retireDirectory_effect v.bank valid hord
  obtain ⟨hframe4, hbank4⟩ := Device.retireCommits_effect ((d1.retireDirectory v.bank valid).retireGroup v.bank v.walk) v.bank valid
  rw [Device.retireGroup_eq] at hframe4 hbank4
  have he : d.tablesRetired v =
      ((d1.retireDirectory v.bank valid).retireGroup v.bank v.walk).retireCommits v.bank valid := by
    rw [← hd1, ← hvalid]
    rfl
  rw [hvalid, he, Device.retireGroup_eq]
  refine ⟨?_, fun k => ?_, ?_, fun b hb => ?_⟩
  · rw [hframe4, hframe2, hframe1]
  · rw [hframe4]
    exact (hentry2 k).trans (by rw [Device.entry_congr hdir])
  · refine (hbank4 v.bank).trans ?_
    show ({ (d1.retireDirectory v.bank valid).bank v.bank with
      dead := ((d1.retireDirectory v.bank valid).bank v.bank).dead + _ } : BankEntry) = _
    rw [hbank2, hbank1, if_pos rfl]
    simp
  · have hcommits : (d1.retireDirectory v.bank valid).commits = d.commits := by rw [hframe2, hframe1]
    refine (hbank4 b).trans ?_
    show ({ (d1.retireDirectory v.bank valid).bank b with
      dead := ((d1.retireDirectory v.bank valid).bank b).dead +
        3 * ((d1.retireDirectory v.bank valid).commits.filter _).length } : BankEntry) = _
    rw [hbank2, hbank1, if_neg hb, hcommits, hdir]
    simp only [hb, ne_eq, not_false_eq_true, decide_true, Bool.true_and]

/-- The entries that the retire removed. -/
theorem Device.VictimGone.removed {d e : Device} {v : Victim} {valid : List WalkRecord} (h : d.VictimGone e v valid) (ho : d.ordered)
    (b : BankId) :
    (((d.dir.map (DirEntry.retireRecords v.bank valid)).filter DirEntry.spentTombstone).filter fun e =>
        e.loc.any fun l => Decidable.decide (l.bank = b)).length =
      (d.dir.filter fun x => (e.entry x.key).isNone && x.loc.any fun l => Decidable.decide (l.bank = b)).length := by
  rw [List.filter_filter, List.filter_map, List.length_map]
  refine congrArg List.length (List.filter_congr fun x hx => ?_)
  have hloc : (x.retireRecords v.bank valid).loc = x.loc := by
    obtain ⟨stale, copies, hx⟩ := x.retireRecords_frame v.bank valid
    rw [hx]
  have hnone : (e.entry x.key).isNone = (x.retireRecords v.bank valid).spentTombstone := by
    rw [h.entry, Device.entry_of_mem ho hx, Option.map_some]
    cases hs : (x.retireRecords v.bank valid).spentTombstone <;> simp [Option.filter, hs]
  rw [Function.comp_apply, hloc, hnone, Bool.and_comm]

/-- The retired device differs from its tables' device in the request answered, the engine IDLE without victim. -/
theorem Device.retired_frame {d : Device} (v : Victim)
    (h : ∀ x, d.ex = some x → x.stage = .reclaimHeld → x.code = .reclaim ∧ x.member = false) (hx : (d.tablesRetired v).ex = d.ex) :
    ∃ ex fifo buffers request,
      d.retired v =
          { d.tablesRetired v with
            ex := ex, fifo := fifo, buffers := buffers
            reclaim := { (d.tablesRetired v).reclaim with request := request, victim := none, job := .idle } } ∧
        (ex = none ∨ ex = d.ex) := by
  rw [Device.retired_eq]
  split
  · obtain ⟨ex, fifo, buffers, request, victim, he, hex⟩ :=
      (d.tablesRetired v).answerReclaim_frame .ok v.bank.val (by rw [hx]; exact h)
    exact ⟨ex, fifo, buffers, request, by rw [he]; rfl, hx ▸ hex⟩
  · exact ⟨_, _, _, _, rfl, .inr hx⟩

/-- The RECLAIM that waits on the victim ends OK with its number; any other request stays held (R136). -/
theorem Device.retired_answers {d : Device} {v : Victim} {n : Nat} {x : Executing} (hq : (d.tablesRetired v).reclaim.request = some n)
    (hx : (d.tablesRetired v).ex = some x) (hs : x.stage = .reclaimHeld) (hc : x.code = .reclaim) (hm : x.member = false) :
    (answersRequest v (some n) = true →
      (d.retired v).ex = none ∧ (d.retired v).reclaim.request = none ∧
      (d.retired v).fifo = (if x.detached then (d.tablesRetired v).fifo
        else (d.tablesRetired v).fifo ++ [{ tag := x.desc.tag, status := .ok, result := v.bank.val }])) ∧
    (answersRequest v (some n) = false →
      (d.retired v).ex = some x ∧ (d.retired v).reclaim.request = some n ∧ (d.retired v).fifo = (d.tablesRetired v).fifo) := by
  rw [Device.retired_eq, hq]
  refine ⟨fun ha => ?_, fun ha => ?_⟩
  · have hheld := Device.answerReclaim_held (d := d.tablesRetired v) .ok v.bank.val (by simp [hq]) hx hs hc hm
    have hfifo := Device.executingEnded_fifo { d.tablesRetired v with reclaim := (d.tablesRetired v).reclaim.answered } x .ok v.bank.val
    obtain ⟨fifo, buffers, hend⟩ :=
      Device.executingEnded_frame { d.tablesRetired v with reclaim := (d.tablesRetired v).reclaim.answered } x .ok v.bank.val
    rw [if_pos ha, hheld]
    refine ⟨?_, ?_, hfifo⟩
    · rw [hend]
      rfl
    · rw [hend]
      rfl
  · rw [if_neg (by simp [ha])]
    exact ⟨hx, hq, rfl⟩

theorem answersRequest_iff (v : Victim) (n : Nat) :
    answersRequest v (some n) = true ↔ if n = 255 then v.forRequest = true else n = v.bank.val := by
  unfold answersRequest
  by_cases hn : n = 255
  · simp [hn, Config.anyBank]
  · simp [hn, Config.anyBank]

/-! ## The retire line's fault (R144, R146) -/

/-- The device whose engine is HALTED by the fault of the retire line of the victim. -/
def Device.retireFaulted (d : Device) (v : Victim) : Device :=
  (({ d.setBank v.bank { d.bank v.bank with suspect := true } with
    reclaim := { d.reclaim with job := .halted .fault } } : Device)).withCause .reclaim

theorem Device.retireOutcome_fault {c : Ctx} {d : Device} {v : Victim} {read : Line} {pre : Bool} (hv : d.reclaim.victim = some v)
    (hs : d.store = .ready) (hp : d.commandPhase ≠ .waitingSpace) (hw : c.warning = false) :
    d.retireOutcome c (.fault read pre) = (d.retireFaulted v).answerReclaim .ok Config.anyBank := by
  unfold Device.retireOutcome
  rw [hv]
  dsimp only
  unfold Device.reclaimHalt
  rw [Device.degrade_ready (d := (d.markSuspect v.bank).setJob (.halted .fault)) _ hs hp]
  dsimp only
  rw [if_neg (by simp [hw])]
  rfl

/-- The retire line read back as other bytes: the engine is HALTED, and the step ends. -/
theorem exec_retireFaults {s : State} {v : Victim} {data : Line} {bytes : RawLine} {d : Device} (hj : s.dev.reclaim.job = .retire)
    (hv : s.dev.reclaim.victim = some v) (ha : s.dev.fc.Alone .reclaim (.program v.bank 2 data))
    (hl : s.flash.line v.bank 2 = Line.erased) (hne : data ≠ .raw bytes) (hs : s.dev.store = .ready) (hw : s.power.warning = false)
    (hp : s.dev.commandPhase ≠ .waitingSpace) (hd : (s.dev.opDone.retireFaulted v).answerReclaim .ok Config.anyBank = d)
    (hsettle : d.settle s.ctx = d) :
    exec (.lineProgramOutcome (.other bytes)) s = .next { s with flash := s.flash.setLine v.bank 2 (.raw bytes), dev := d } := by
  refine exec_lineProgram_ends ha.op hl rfl (programOutcome_fault rfl (Ne.symm hne)) ?_ hsettle
  unfold Device.programmed Device.reclaimProgrammed
  simp only [Device.opDone_reclaim, hj]
  exact (Device.retireOutcome_fault (c := s.ctx) (d := s.dev.opDone) hv hs hp hw).trans hd

/-- Settles O45: the retire of the tables, then RECLAIM's answer; and the fault, which halts the engine. -/
theorem victimRetired : Obligations.VictimRetired := by
  refine ⟨fun s v data valid count hsteady hj hv ha hl hord hheld hvalid hcount => ?verifies,
    fun s v data bytes u hsteady hj hv ha hl hne hs hw hu => ⟨fun hx => ?faultsIdle, fun x hx hc hm hst hq => ?faultsAnswers⟩⟩
  case verifies =>
    have hvalid' : v.walk.filter v.validAtRetire = v.walk.filter valid := by
      refine List.filter_congr fun r _ => ?_
      rw [hvalid, Victim.validAtRetire_eq]
    have hcount' (g : Nat) : groupRecords (v.walk.filter v.validAtRetire) g = count g := by
      rw [hcount, groupRecords, hvalid', List.filter_filter]
      exact congrArg List.length (List.filter_congr fun r _ => Bool.and_comm _ _)
    have hgone := Device.tablesRetired_gone (d := s.dev.opDone) v hord
    obtain ⟨e, he⟩ : ∃ e, s.dev.opDone.tablesRetired v = e := ⟨_, rfl⟩
    have hex : e.ex = s.dev.ex := by rw [← he, hgone.frame]; rfl
    obtain ⟨ex, fifo, buffers, request, hretired, hexs⟩ :=
      Device.retired_frame (d := s.dev.opDone) v hheld (by rw [he]; exact hex)
    rw [he] at hretired hgone
    have hfc : e.fc = { s.dev.fc with op := none } := by rw [hgone.frame]; rfl
    have hprogrammed : s.dev.opDone.programmed s.ctx .reclaim .ok = s.dev.opDone.retired v := by
      unfold Device.programmed Device.reclaimProgrammed
      simp only [Device.opDone_reclaim, hj]
      unfold Device.retireOutcome
      simp only [Device.opDone_reclaim, hv]
    have hsettle : (s.dev.opDone.retired v).settle s.ctx = s.dev.opDone.retired v := by
      refine Device.settle_free ⟨?_, ?_⟩ ?_ <;> rw [hretired]
      · rintro y (hy : ex = some y)
        rcases hexs with h | h
        · cases h.symm.trans hy
        · exact hsteady.command y (h.symm.trans hy)
      · exact fun _ hw => nomatch hw
      · show e.fc.Free
        rw [hfc]
        exact ha.free
    refine ⟨s.dev.opDone.retired v, ?_, ?_, ?_, ?_, ?_, ?_, ?_, ?_, ?_, ?_, ?_, ?_⟩
    · exact exec_lineProgram_ends ha.op hl rfl (programOutcome_asIntended data rfl) hprogrammed hsettle
    · rw [hretired]
      exact hgone.victim
    · rw [hretired]
    · rw [hretired]
    · rw [hretired, hgone.frame]
    · rw [hretired, hgone.frame]
      rfl
    · rw [hretired]
      exact hfc
    · intro k entry entry' hk hloc hentry'
      have hkey : entry.key = k := Device.entry_key hk
      have hafter : entry.retireRecords v.bank (v.walk.filter v.validAtRetire) = entry' := by
        rw [DirEntry.retireRecords_outside _ hloc, hvalid', List.filter_filter, List.filter_filter, hentry', ← hkey]
        simp only [Bool.and_comm]
      have hspent : entry'.spentTombstone = true ↔ entry'.state = .tombstone ∧ entry'.stale = 0 := by simp [DirEntry.spentTombstone]
      rw [hretired]
      refine (hgone.entry k).trans ?_
      rw [show s.dev.opDone.entry k = some entry from hk, Option.map_some, hafter]
      cases hb : entry'.spentTombstone with
      | true => rw [if_pos (hspent.mp hb)]; simp [Option.filter, hb]
      | false => rw [if_neg fun h => by simp [hspent.mpr h] at hb]; simp [Option.filter, hb]
    · rw [hretired, hgone.frame]
      simp only [hcount']
      rfl
    · intro b hb
      rw [hretired]
      refine (hgone.bank b hb).trans ?_
      rw [hgone.removed hord]
      simp only [hcount']
      rfl
    · rw [hretired, hgone.frame]
      rfl
    · intro n x hn hx hst
      obtain ⟨hc, hm⟩ := hheld x hx hst
      have hq : (s.dev.opDone.tablesRetired v).reclaim.request = some n := by
        rw [he, hgone.frame]
        exact hn
      have hfifo : (s.dev.opDone.tablesRetired v).fifo = s.dev.fifo := by
        rw [he, hgone.frame]
        rfl
      obtain ⟨hanswers, hholds⟩ := Device.retired_answers hq (by rw [he, hex, hx]) hst hc hm
      rw [hfifo] at hanswers hholds
      rw [← answersRequest_iff v n]
      refine ⟨hanswers, fun hn => ?_⟩
      rw [hx]
      exact hholds (Bool.eq_false_iff.mpr hn)
  case faultsIdle =>
    have hfaulted : s.dev.opDone.retireFaulted v = u := hu.symm
    refine exec_retireFaults hj hv ha hl hne hs hw (by simp [Device.commandPhase, hx]) ?_ ?_
    · rw [← hfaulted]
      exact Device.answerReclaim_idle _ _ hx
    · rw [← hfaulted]
      exact Device.settle_free (hsteady.noRecord rfl rfl) ha.free
  case faultsAnswers =>
    have hheld : (s.dev.opDone.retireFaulted v).answerReclaim .ok Config.anyBank =
        ({ u with reclaim := { u.reclaim with request := none, victim := some { v with forRequest := false } } } :
          Device).executingEnded x .ok 0xFF := by
      have hvictim : u.reclaim.victim = some v := by
        rw [hu]
        exact hv
      rw [Device.answerReclaim_held (d := s.dev.opDone.retireFaulted v) _ _ hq hx hst hc hm,
        show s.dev.opDone.retireFaulted v = u from hu.symm]
      simp only [Reclaim.answered, hvictim, Option.map_some, Config.anyBank]
    refine exec_retireFaults hj hv ha hl hne hs hw (by simp [Device.commandPhase, hx, hst]) hheld ?_
    obtain ⟨fifo, buffers, hend⟩ := Device.executingEnded_frame
      { u with reclaim := { u.reclaim with request := none, victim := some { v with forRequest := false } } } x .ok 0xFF
    rw [hend, hu]
    exact Device.settle_free ⟨fun y hy => (nomatch hy), fun _ hw => (nomatch hw)⟩ ha.free

end Sys2Proof.Machine
end

section
/-! The copy walk at its cursor (R139, R143): the retire past the last record, and the decision on a record, row by row of R139. -/
namespace Sys2Proof.Machine
open Sys2Proof

/-! ## The end of the walk (R143) -/

/-- Past the last record the retire line is requested. -/
theorem Device.walk_retires {d : Device} {v : Victim} (hv : d.reclaim.victim = some v) (hc : v.walk.length ≤ v.cursor) :
    d.walk =
      { d with
        reclaim := { d.reclaim with job := .retire, victim := some { v with point := .retiring } }
        fc := { d.fc with waitReclaim := some (.program v.bank 2 (.retireLine ((d.bank v.bank).eraseCount.getD 0) 0)) } } := by
  unfold Device.walk
  simp only [hv, List.drop_eq_nil_of_le hc, Device.walkOn, Device.beginRetire]
  unfold Device.mapVictim
  rw [hv]
  rfl

/-! ## What a table loses or passes (R139) -/

/-- The cursor moved past a record. -/
theorem Device.advanceCursor_eq {d : Device} {v : Victim} (hv : d.reclaim.victim = some v) :
    d.advanceCursor = { d with reclaim := { d.reclaim with victim := some { v with cursor := v.cursor + 1 } } } := by
  unfold Device.advanceCursor Device.mapVictim
  rw [hv]
  rfl

theorem Device.entryUnlocated_eq {d : Device} {k : Key} {e : DirEntry} (ho : d.ordered) (he : d.entry k = some e) :
    d.entryUnlocated k = { d with dir := d.dir.map fun y => if y.key = k then { y with loc := none } else y } := by
  unfold Device.entryUnlocated
  rw [he]
  exact Device.putEntry_replaces (fun y => { y with loc := none }) ho he rfl

theorem Device.memberUnlocated_eq (d : Device) (k : Key) :
    d.memberUnlocated k =
      { d with
        group := d.group.map fun g =>
          { g with members := g.members.map fun y => if y.key = k then { y with loc := none } else y } } := rfl

theorem Device.member_key {d : Device} {k : Key} {m : MemberEntry} (h : d.member k = some m) : m.key = k := by
  obtain ⟨g, _, hm⟩ := Option.bind_eq_some_iff.mp h
  simpa using List.find?_some hm

/-! ## The decision, row by row (R139) -/

theorem Device.decide_entry {d : Device} {v : Victim} {r : WalkRecord} {e : DirEntry} (he : d.entry r.header.key = some e)
    (hl : e.loc = some { bank := v.bank, line := r.line }) :
    (e.state = .damaged → d.decide v r = .entryLoses) ∧
    (e.state = .live → e.seq = r.header.seq → d.decide v r = .copy .directory) ∧
    (e.state = .tombstone → e.seq = r.header.seq →
      d.decide v r = if countOf v.lower e.key < e.stale then .copy .directory else .pass) := by
  have hfilter : ((d.entry r.header.key).filter fun e => e.loc = some { bank := v.bank, line := r.line }) = some e := by
    simp [he, Option.filter, hl]
  unfold Device.decide
  dsimp only
  rw [hfilter]
  refine ⟨fun hs => ?_, fun hs hq => ?_, fun hs hq => ?_⟩ <;> simp only [hs]
  · exact if_pos hq
  · exact if_pos hq

/-- Rows 4 to 7 are for a record that the entry of its key does not decide. -/
theorem Device.decide_noEntry {d : Device} {v : Victim} {r : WalkRecord}
    (h : ∀ e, d.entry r.header.key = some e → e.loc = some { bank := v.bank, line := r.line } →
      e.state ≠ .damaged ∧ e.seq ≠ r.header.seq) :
    d.decide v r = d.decideMember v r { bank := v.bank, line := r.line } := by
  unfold Device.decide
  dsimp only
  split
  · next e he =>
    obtain ⟨he, hl⟩ := Option.filter_eq_some_iff.mp he
    obtain ⟨hd, hq⟩ := h e he (by simpa using hl)
    split
    · next hs => exact absurd hs hd
    · exact if_neg hq
    · exact if_neg hq
  · rfl

theorem Device.decideMember_member {d : Device} {v : Victim} {r : WalkRecord} {m : MemberEntry} {loc : Location}
    (hm : d.member r.header.key = some m) (hl : m.loc = some loc) :
    (m.state = .damaged → d.decideMember v r loc = .memberLoses) ∧
    (m.state ≠ .damaged → m.seq = r.header.seq → d.decideMember v r loc = .copy .member) := by
  have hfilter : ((d.member r.header.key).filter fun m => m.loc = some loc) = some m := by simp [hm, Option.filter, hl]
  unfold Device.decideMember
  rw [hfilter]
  exact ⟨fun hs => if_pos hs, fun hs hq => (if_neg hs).trans (if_pos hq)⟩

/-- Rows 6 and 7 are for a record that no member decides. -/
theorem Device.decideMember_noMember {d : Device} {v : Victim} {r : WalkRecord} {loc : Location}
    (h : ∀ m, d.member r.header.key = some m → m.loc = some loc → m.state ≠ .damaged ∧ m.seq ≠ r.header.seq) :
    d.decideMember v r loc = d.decideCommit v loc := by
  unfold Device.decideMember
  split
  · next m hm =>
    obtain ⟨hm, hl⟩ := Option.filter_eq_some_iff.mp hm
    obtain ⟨hd, hq⟩ := h m hm (by simpa using hl)
    rw [if_neg hd, if_neg hq]
  · rfl

theorem find?_of_filter_singleton {α : Type} {p : α → Bool} {l : List α} {a : α} (h : l.filter p = [a]) : l.find? p = some a := by
  rw [← List.head?_filter, h]
  rfl

theorem Device.decideCommit_entry {d : Device} {v : Victim} {c : CommitEntry} {loc : Location}
    (h : d.commits.filter (fun y => Decidable.decide (y.loc = loc)) = [c]) :
    d.decideCommit v loc = if countOf v.grouped c.gid < c.remaining then .copy .commitTable else .pass := by
  unfold Device.decideCommit
  rw [find?_of_filter_singleton h]

theorem Device.decideCommit_none {d : Device} {v : Victim} {loc : Location} (h : ∀ c ∈ d.commits, c.loc ≠ loc) :
    d.decideCommit v loc = .pass := by
  unfold Device.decideCommit
  rw [List.find?_eq_none.mpr fun c hc => by simpa using h c hc]

/-! ## The walk at a record (R139, R140) -/

section AtRecord
variable {d : Device} {v : Victim} {r : WalkRecord}

/-- A record to be copied is read whole. -/
theorem Device.walk_copies {owner : CopyOwner} (hv : d.reclaim.victim = some v) (hr : v.walk[v.cursor]? = some r)
    (h : d.decide v r = .copy owner) :
    d.walk =
      { d with
        reclaim := { d.reclaim with job := .copyRead owner }
        fc := { d.fc with waitReclaim := some (.read v.bank r.line (2 + (r.header.length + 15) / 16)) } } := by
  rw [Device.walk_at hv hr, h]
  rfl

theorem Device.walk_passes (hv : d.reclaim.victim = some v) (hr : v.walk[v.cursor]? = some r) (h : d.decide v r = .pass) :
    d.walk = Device.walk { d with reclaim := { d.reclaim with victim := some { v with cursor := v.cursor + 1 } } } := by
  rw [Device.walk_at hv hr, h]
  dsimp only
  rw [Device.advanceCursor_eq hv]

theorem Device.walk_ite {p : Prop} [Decidable p] {owner : CopyOwner} (hv : d.reclaim.victim = some v) (hr : v.walk[v.cursor]? = some r)
    (h : d.decide v r = if p then .copy owner else .pass) :
    d.walk =
      if p then
        { d with
          reclaim := { d.reclaim with job := .copyRead owner }
          fc := { d.fc with waitReclaim := some (.read v.bank r.line (2 + (r.header.length + 15) / 16)) } }
      else Device.walk { d with reclaim := { d.reclaim with victim := some { v with cursor := v.cursor + 1 } } } := by
  by_cases hp : p
  · rw [if_pos hp] at h ⊢
    exact Device.walk_copies hv hr h
  · rw [if_neg hp] at h ⊢
    exact Device.walk_passes hv hr h

end AtRecord

/-- A DAMAGED entry at the record loses its location, and the walk goes on. -/
theorem Device.walk_entryLoses {d : Device} {v : Victim} {r : WalkRecord} {e : DirEntry} (hv : d.reclaim.victim = some v)
    (hr : v.walk[v.cursor]? = some r) (ho : d.ordered) (he : d.entry r.header.key = some e) (h : d.decide v r = .entryLoses) :
    d.walk = Device.walk { d with
      dir := d.dir.map fun y => if y.key = e.key then { y with loc := none } else y
      reclaim := { d.reclaim with victim := some { v with cursor := v.cursor + 1 } } } := by
  rw [Device.walk_at hv hr, h]
  dsimp only
  rw [Device.entryUnlocated_eq ho he, ← Device.entry_key he]
  exact congrArg Device.walk (Device.advanceCursor_eq (d := { d with dir := _ }) hv)

/-- A DAMAGED member at the record loses its location, and the walk goes on. -/
theorem Device.walk_memberLoses {d : Device} {v : Victim} {r : WalkRecord} {m : MemberEntry} (hv : d.reclaim.victim = some v)
    (hr : v.walk[v.cursor]? = some r) (hm : d.member r.header.key = some m) (h : d.decide v r = .memberLoses) :
    d.walk = Device.walk { d with
      group := d.group.map fun g =>
        { g with members := g.members.map fun y => if y.key = m.key then { y with loc := none } else y }
      reclaim := { d.reclaim with victim := some { v with cursor := v.cursor + 1 } } } := by
  rw [Device.walk_at hv hr, h]
  dsimp only
  rw [Device.memberUnlocated_eq, ← Device.member_key hm]
  exact congrArg Device.walk (Device.advanceCursor_eq (d := { d with group := _ }) hv)

end Sys2Proof.Machine
end

section
/-! The copy read (R140, R141): an intact record begun as a copy and placed, and what a record found damaged leaves of the tables. -/
namespace Sys2Proof.Machine
open Sys2Proof

/-! ## A copy placed (R141) -/

/-- Case 2: the copy waits on another open. -/
theorem Device.reclaimPlace_waitsOpen {c : Ctx} {d : Device} {j : CopyJob} {w : Writer} {mark : BankId × Opener}
    (hj : d.reclaim.job = .copy j) (hq : w.fixedSeq ≠ none) (hf : d.fitsNowhere w.record.span) (hm : d.openMark = some mark) :
    d.reclaimPlace c w =
      { d with reclaim := { d.reclaim with job := .copy { j with writer := { w with stage := .waitOpen } } } } := by
  have hn : w.fixedSeq.isNone = false := Option.isNone_eq_false_iff.mpr (Option.isSome_iff_ne_none.mpr hq)
  unfold Device.reclaimPlace
  rw [if_neg (by simp [hn]), Device.fitting_of_fitsNowhere hf]
  dsimp only
  rw [if_pos (by simp [hm])]
  unfold Device.setWriter
  rw [hj]
  rfl

/-- The engine HALTED with cause RECLAIM, where no RECLAIM is held (R146). -/
theorem Device.reclaimHalt_unanswered {d : Device} (c : Ctx) (hs : d.store = .ready) (hp : d.commandPhase ≠ .waitingSpace)
    (hq : d.reclaim.request = none) : d.reclaimHalt c = (d.setJob (.halted .fault)).withCause .reclaim := by
  have hanswer (status : Status) (result : Nat) : ((d.setJob (.halted .fault)).withCause .reclaim).answerReclaim status result =
      (d.setJob (.halted .fault)).withCause .reclaim := by
    unfold Device.answerReclaim
    rw [show ((d.setJob (.halted .fault)).withCause .reclaim).reclaim.request = none from hq]
  unfold Device.reclaimHalt
  rw [Device.degrade_ready (d := d.setJob (.halted .fault)) _ hs hp]
  dsimp only
  rw [hanswer, hanswer]
  exact ite_self _

/-- Case 4: without a bank to open the engine is HALTED. -/
theorem Device.reclaimPlace_halts {c : Ctx} {d : Device} {j : CopyJob} {w : Writer} (hj : d.reclaim.job = .copy j)
    (hq : w.fixedSeq ≠ none) (hf : d.fitsNowhere w.record.span) (hm : d.openMark = none) (hb : d.freeToOpen = none) :
    d.reclaimPlace c w = d.reclaimHalt c := by
  have hn : w.fixedSeq.isNone = false := Option.isNone_eq_false_iff.mpr (Option.isSome_iff_ne_none.mpr hq)
  unfold Device.reclaimPlace
  rw [if_neg (by simp [hn]), Device.fitting_of_fitsNowhere hf]
  dsimp only
  rw [if_neg (by simp [hm]), hb]
  dsimp only
  rw [Device.reclaimCannot, hj]

/-! ## A record read intact (R140) -/

/-- The job of a copy whose own record is at a stage. -/
def WalkRecord.copyJob (r : WalkRecord) (owner : CopyOwner) (record : RecordSpec) (stage : WriterStage) : ReclaimJob :=
  .copy
    { line := r.line, header := r.header, owner := owner
      writer := { record := record, fixedSeq := some r.header.seq, faulted := false, stage := stage } }

/-- The copy's place is decided with its job begun. -/
theorem Device.beginCopy_eq {c : Ctx} {d : Device} {r : WalkRecord} {owner : CopyOwner} {payload : List Byte} {record : RecordSpec}
    (hrec : copyRecord r.header owner payload = record) :
    d.beginCopy c r owner payload =
      (d.setJob (r.copyJob owner record .waitOpen)).reclaimPlace c
        { record := record, fixedSeq := some r.header.seq, faulted := false, stage := .waitOpen } := by
  subst hrec
  rfl

theorem Device.beginCopy_fits {c : Ctx} {d : Device} {r : WalkRecord} {owner : CopyOwner} {payload : List Byte} {record : RecordSpec}
    {a : BankId} (hrec : copyRecord r.header owner payload = record) (hf : d.fitsIn a record.span) :
    d.beginCopy c r owner payload =
      { d.setBank a { d.bank a with used := (d.bank a).used + record.span } with
        reclaim := { d.reclaim with
          job := r.copyJob owner record (.programming { bank := a, line := 3 + (d.bank a).used, seq := r.header.seq, at_ := 0 }) }
        fc := { d.fc with waitReclaim := some (.program a (3 + (d.bank a).used) (record.line r.header.seq 0)) } } := by
  have hreserve := Device.reclaimReserve_copy (d := d.setJob (r.copyJob owner record .waitOpen))
    (w := { record := record, fixedSeq := some r.header.seq, faulted := false, stage := .waitOpen }) a rfl rfl
  rw [Device.beginCopy_eq hrec, Device.reclaimPlace_fits (b := a) (.inl rfl) hf, hreserve]
  rfl

theorem Device.beginCopy_opens {c : Ctx} {d : Device} {r : WalkRecord} {owner : CopyOwner} {payload : List Byte} {record : RecordSpec}
    {b : BankId} (hrec : copyRecord r.header owner payload = record) (hf : d.fitsNowhere record.span) (hm : d.openMark = none)
    (hb : d.freeToOpen = some b) (he : d.nextEpoch ≤ 0xFFFFFF00) :
    d.beginCopy c r owner payload =
      { d with
        openMark := some (b, .reclaim)
        nextEpoch := d.nextEpoch + 1
        reclaim := { d.reclaim with job := r.copyJob owner record (.opening b d.nextEpoch) }
        fc := { d.fc with waitReclaim := some (.program b 1 (.openLine d.nextEpoch 0)) } } := by
  have hopens := Device.reclaimPlace_opens (c := c) (d := d.setJob (r.copyJob owner record .waitOpen))
    (w := { record := record, fixedSeq := some r.header.seq, faulted := false, stage := .waitOpen }) rfl (by simp) hf hm hb he
  rw [Device.beginCopy_eq hrec, hopens]
  rfl

theorem Device.beginCopy_waitsOpen {c : Ctx} {d : Device} {r : WalkRecord} {owner : CopyOwner} {payload : List Byte}
    {record : RecordSpec} {mark : BankId × Opener} (hrec : copyRecord r.header owner payload = record)
    (hf : d.fitsNowhere record.span) (hm : d.openMark = some mark) :
    d.beginCopy c r owner payload = { d with reclaim := { d.reclaim with job := r.copyJob owner record .waitOpen } } := by
  have hwaits := Device.reclaimPlace_waitsOpen (c := c) (d := d.setJob (r.copyJob owner record .waitOpen))
    (w := { record := record, fixedSeq := some r.header.seq, faulted := false, stage := .waitOpen }) rfl (by simp) hf hm
  rw [Device.beginCopy_eq hrec, hwaits]
  rfl

theorem Device.beginCopy_halts {c : Ctx} {d : Device} {r : WalkRecord} {owner : CopyOwner} {payload : List Byte} {record : RecordSpec}
    (hrec : copyRecord r.header owner payload = record) (hf : d.fitsNowhere record.span) (hm : d.openMark = none)
    (hb : d.freeToOpen = none) (hs : d.store = .ready) (hp : d.commandPhase ≠ .waitingSpace) (hq : d.reclaim.request = none) :
    d.beginCopy c r owner payload = (d.setJob (.halted .fault)).withCause .reclaim := by
  have hhalts := Device.reclaimPlace_halts (c := c) (d := d.setJob (r.copyJob owner record .waitOpen))
    (w := { record := record, fixedSeq := some r.header.seq, faulted := false, stage := .waitOpen }) rfl (by simp) hf hm hb
  rw [Device.beginCopy_eq hrec, hhalts]
  exact Device.reclaimHalt_unanswered (d := d.setJob (r.copyJob owner record .waitOpen)) c hs hp hq

/-! ## Entries found damaged (R52, R140) -/

theorem Device.setBank_self (d : Device) (b : BankId) : d.setBank b (d.bank b) = d := by
  have hbanks : (d.setBank b (d.bank b)).banks = d.banks := by
    refine Device.banks_ext fun c => ?_
    rw [Device.bank_setBank]
    split
    · next h => rw [h]
    · rfl
  show { d with banks := (d.setBank b (d.bank b)).banks } = d
  rw [hbanks]

/-- In order, an entry put under its own key changes nothing. -/
theorem Device.putEntry_self {d : Device} {k : Key} {e : DirEntry} (ho : d.ordered) (he : d.entry k = some e) : d.putEntry e = d := by
  refine (Device.putEntry_replaces id ho he rfl).trans ?_
  simp

/-- An entry becomes DAMAGED in its place, and its record's span dead, once. -/
theorem Device.damageEntry_eq {d : Device} {k : Key} {e : DirEntry} {loc : Location} (ho : d.ordered) (he : d.entry k = some e)
    (hl : e.loc = some loc) :
    d.damageEntry k =
      { d.addDead loc.bank (if e.state = .damaged then 0 else spanOf e.length) with
        dir := d.dir.map fun y => if y.key = k then { y with state := .damaged } else y } := by
  have hput := Device.putEntry_replaces (fun y => { y with state := .damaged }) ho he rfl
  unfold Device.damageEntry
  simp only [he]
  by_cases hs : e.state = .damaged
  · have hsame : ({ e with state := .damaged } : DirEntry) = e := by rw [← hs]
    have hbanks : d.addDead loc.bank 0 = d := d.setBank_self loc.bank
    rw [hsame, Device.putEntry_self ho he] at hput
    rw [if_pos hs, if_pos hs, hbanks]
    exact hput
  · rw [if_neg hs, if_neg hs, hput]
    unfold Device.supersede
    split
    · next hd => exact absurd hd hs
    · next hl' _ =>
      cases hl.symm.trans hl'
      rfl
    · next hl' _ => cases hl.symm.trans hl'

/-- The entry of a record found damaged loses its location (R52, R177). -/
theorem Device.entryFoundDamaged_eq {d : Device} {k : Key} {e : DirEntry} {loc : Location} (ho : d.ordered) (he : d.entry k = some e)
    (hl : e.loc = some loc) :
    d.entryFoundDamaged k loc =
      { d.addDead loc.bank (if e.state = .damaged then 0 else spanOf e.length) with
        dir := d.dir.map fun y => if y.key = k then { y with state := .damaged, loc := none } else y
        reclaim := { d.reclaim with repairDue := d.reclaim.repairDue || Decidable.decide (k = 0xFF01) } } := by
  have hfilter : ((d.entry k).filter fun e => e.loc = some loc) = some e := by simp [he, Option.filter, hl]
  have hunlocated : (d.damageEntry k).entryUnlocated k =
      { d.addDead loc.bank (if e.state = .damaged then 0 else spanOf e.length) with
        dir := d.dir.map fun y => if y.key = k then { y with state := .damaged, loc := none } else y } := by
    have hentry := (Device.damageEntry_at he).1 k
    rw [if_pos rfl] at hentry
    rw [Device.entryUnlocated_eq (Device.damageEntry_ord d k ho) hentry, Device.damageEntry_eq ho he hl]
    simp only [List.map_map]
    refine congrArg (fun dir => { d.addDead loc.bank _ with dir := dir }) (List.map_congr_left fun y _ => ?_)
    rw [Function.comp_apply]
    by_cases hy : y.key = k
    · simp only [if_pos hy]
    · simp only [if_neg hy]
  unfold Device.entryFoundDamaged
  rw [hfilter]
  dsimp only
  rw [hunlocated, show Config.lockKey = (0xFF01 : Key) from rfl]
  by_cases hk : k = 0xFF01
  · rw [if_pos hk]
    simp [hk, Device.mapReclaim]
  · have hdue : (d.reclaim.repairDue || Decidable.decide (k = 0xFF01)) = d.reclaim.repairDue := by
      rw [decide_eq_false hk, Bool.or_false]
    rw [if_neg hk, hdue]
    rfl

theorem Device.entryFoundDamaged_none {d : Device} {k : Key} {loc : Location} (h : ∀ e, d.entry k = some e → e.loc ≠ some loc) :
    d.entryFoundDamaged k loc = d := by
  unfold Device.entryFoundDamaged
  split
  · rfl
  · next e he =>
    obtain ⟨he, hl⟩ := Option.filter_eq_some_iff.mp he
    exact absurd (by simpa using hl) (h e he)

/-! ## Members found damaged (R113, R140) -/

theorem Device.memberFoundDamaged_none {d : Device} {k : Key} {loc : Location} (h : ∀ m, d.member k = some m → m.loc ≠ some loc) :
    d.memberFoundDamaged k loc = d := by
  unfold Device.memberFoundDamaged
  split
  · rfl
  · next m hm =>
    obtain ⟨hm, hl⟩ := Option.filter_eq_some_iff.mp hm
    exact absurd (by simpa using hl) (h m hm)

/-- The member of a record found damaged loses its location, and the record leaves the records the group needs. -/
theorem Device.memberFoundDamaged_eq {d : Device} {k : Key} {m : MemberEntry} {loc : Location} (hm : d.member k = some m)
    (hl : m.loc = some loc) (hs : m.state ≠ .damaged) :
    d.memberFoundDamaged k loc =
      { (d.markWalkDamaged loc).addDead loc.bank (spanOf m.length) with
        group := d.group.map fun g => { g with
          members := g.members.map fun y => if y.key = k then { y with state := .damaged, loc := none } else y
          records := g.records.filter fun l => Decidable.decide (l ≠ loc) } } := by
  have hfilter : ((d.member k).filter fun m => m.loc = some loc) = some m := by simp [hm, Option.filter, hl]
  have hmembers (l : List MemberEntry) :
      mapMember k (fun m => { m with loc := none }) (mapMember k (fun m => { m with state := .damaged }) l) =
        l.map fun y => if y.key = k then { y with state := .damaged, loc := none } else y := by
    unfold mapMember
    rw [List.map_map]
    refine List.map_congr_left fun y _ => ?_
    rw [Function.comp_apply]
    by_cases hy : y.key = k
    · simp only [if_pos hy]
    · simp only [if_neg hy]
  unfold Device.memberFoundDamaged Device.damageMember
  rw [hfilter]
  simp only [hm, hs, hl, if_false]
  unfold Device.memberUnlocated Device.mapGroup Device.markWalkDamaged Device.mapVictim
  simp only [← hmembers, Device.addDead, Device.setBank, Option.map_map]
  rfl

end Sys2Proof.Machine
end

section
/-! The step in which a copy read comes back (R140, R141): a copy begun, or a record found damaged passed. -/
namespace Sys2Proof.Machine
open Sys2Proof

/-! ## What the copy read gives the engine (R140) -/

theorem Device.readLines_copyRead {c : Ctx} {d : Device} {v : Victim} {r : WalkRecord} {owner : CopyOwner} {lines : List Line}
    (hj : d.reclaim.job = .copyRead owner) (hv : d.reclaim.victim = some v) (hr : v.walk[v.cursor]? = some r) :
    (∀ payload, recordPayload r.line lines = some payload → d.readLines c .reclaim lines = d.beginCopy c r owner payload) ∧
    (recordPayload r.line lines = none → d.readLines c .reclaim lines = d.copyFoundDamaged c v r) := by
  have hread : d.readLines c .reclaim lines = d.copyReadDone c owner lines := by
    unfold Device.readLines Device.reclaimRead
    rw [hj]
  unfold Device.copyReadDone at hread
  simp only [hv, hr] at hread
  refine ⟨fun payload hp => ?_, fun hp => ?_⟩ <;> rw [hread, hp]

/-- The victim with its record at a line known damaged. -/
def Victim.foundDamaged (v : Victim) (line : Nat) : Victim :=
  { v with walk := v.walk.map fun y => if y.line = line then { y with verdict := .damaged } else y }

theorem Device.markWalkDamaged_eq {d : Device} {v : Victim} {loc : Location} (hv : d.reclaim.victim = some v) (hb : v.bank = loc.bank) :
    d.markWalkDamaged loc = { d with reclaim := { d.reclaim with victim := some (v.foundDamaged loc.line) } } := by
  unfold Device.markWalkDamaged Device.mapVictim
  rw [hv, Option.map_some, if_pos hb]
  rfl

/-- A record marked twice is marked. -/
theorem Victim.foundDamaged_twice (v : Victim) (line : Nat) : (v.foundDamaged line).foundDamaged line = v.foundDamaged line := by
  unfold Victim.foundDamaged
  dsimp only
  rw [List.map_map]
  refine congrArg (fun walk => { v with walk := walk }) (List.map_congr_left fun y _ => ?_)
  rw [Function.comp_apply]
  by_cases hy : y.line = line
  · simp only [if_pos hy]
  · simp only [if_neg hy]

theorem Device.rebuildCommit_none {c : Ctx} {d : Device} {v : Victim} {r : WalkRecord} {loc : Location}
    (hv : d.reclaim.victim = some v) (h : ∀ e ∈ d.commits, e.loc ≠ loc) :
    d.rebuildCommit c r loc = Device.walk { d with reclaim := { d.reclaim with victim := some { v with cursor := v.cursor + 1 } } } := by
  unfold Device.rebuildCommit
  rw [List.find?_eq_none.mpr fun e he => by simpa using h e he]
  dsimp only
  rw [Device.advanceCursor_eq hv]

theorem Device.rebuildCommit_entry {c : Ctx} {d : Device} {r : WalkRecord} {loc : Location} {e : CommitEntry}
    (h : d.commits.filter (fun y => Decidable.decide (y.loc = loc)) = [e]) :
    d.rebuildCommit c r loc = d.beginCopy c r .commitTable (commitRecord e.gid e.memberCount).payload := by
  unfold Device.rebuildCommit
  rw [find?_of_filter_singleton h]

section FoundDamaged
variable {c : Ctx} {d : Device} {v : Victim} {r : WalkRecord} {place : Location}

/-- The record at an entry's location alone: the entry is DAMAGED without location, and the record is passed. -/
theorem Device.copyFoundDamaged_entry {e : DirEntry} (hv : d.reclaim.victim = some v) (hp : place = { bank := v.bank, line := r.line })
    (ho : d.ordered) (he : d.entry r.header.key = some e) (hl : e.loc = some place)
    (hm : ∀ m, d.member r.header.key = some m → m.loc ≠ some place) (hc : ∀ c ∈ d.commits, c.loc ≠ place) :
    d.copyFoundDamaged c v r =
      Device.walk { d.addDead v.bank (if e.state = .damaged then 0 else spanOf e.length) with
        dir := d.dir.map fun y => if y.key = e.key then { y with state := .damaged, loc := none } else y
        reclaim := { d.reclaim with
          victim := some { v.foundDamaged r.line with cursor := v.cursor + 1 }
          repairDue := d.reclaim.repairDue || Decidable.decide (e.key = 0xFF01) } } := by
  subst hp
  have hkey : e.key = r.header.key := Device.entry_key he
  have hmark := Device.markWalkDamaged_eq (loc := { bank := v.bank, line := r.line }) hv rfl
  have hentry := Device.entryFoundDamaged_eq (d := { d with reclaim := { d.reclaim with victim := some (v.foundDamaged r.line) } })
    ho he hl
  obtain ⟨u, hu⟩ : ∃ u, Device.entryFoundDamaged { d with reclaim := { d.reclaim with victim := some (v.foundDamaged r.line) } }
    r.header.key { bank := v.bank, line := r.line } = u := ⟨_, rfl⟩
  rw [hu] at hentry
  have hmember : u.memberFoundDamaged r.header.key { bank := v.bank, line := r.line } = u :=
    Device.memberFoundDamaged_none (by rw [hentry]; exact hm)
  unfold Device.copyFoundDamaged
  dsimp only
  rw [hmark, hu, hmember,
    Device.rebuildCommit_none (v := v.foundDamaged r.line) (by rw [hentry]) (by rw [hentry]; exact hc), hentry, hkey]
  rfl

/-- The record at a member's location alone: the member is DAMAGED without location, and the record is passed. -/
theorem Device.copyFoundDamaged_member {m : MemberEntry} (hv : d.reclaim.victim = some v)
    (hp : place = { bank := v.bank, line := r.line }) (hm : d.member r.header.key = some m) (hl : m.loc = some place)
    (hs : m.state ≠ .damaged) (he : ∀ e, d.entry r.header.key = some e → e.loc ≠ some place)
    (hc : ∀ c ∈ d.commits, c.loc ≠ place) :
    d.copyFoundDamaged c v r =
      Device.walk { d.addDead v.bank (spanOf m.length) with
        group := d.group.map fun g => { g with
          members := g.members.map fun y => if y.key = m.key then { y with state := .damaged, loc := none } else y
          records := g.records.filter fun l => Decidable.decide (l ≠ place) }
        reclaim := { d.reclaim with victim := some { v.foundDamaged r.line with cursor := v.cursor + 1 } } } := by
  subst hp
  have hkey : m.key = r.header.key := Device.member_key hm
  have hmark := Device.markWalkDamaged_eq (loc := { bank := v.bank, line := r.line }) hv rfl
  have hmember := Device.memberFoundDamaged_eq (d := { d with reclaim := { d.reclaim with victim := some (v.foundDamaged r.line) } })
    hm hl hs
  rw [Device.markWalkDamaged_eq (v := v.foundDamaged r.line) rfl rfl, Victim.foundDamaged_twice] at hmember
  obtain ⟨u, hu⟩ : ∃ u, Device.memberFoundDamaged { d with reclaim := { d.reclaim with victim := some (v.foundDamaged r.line) } }
    r.header.key { bank := v.bank, line := r.line } = u := ⟨_, rfl⟩
  rw [hu] at hmember
  have hentry := Device.entryFoundDamaged_none
    (d := { d with reclaim := { d.reclaim with victim := some (v.foundDamaged r.line) } }) he
  unfold Device.copyFoundDamaged
  dsimp only
  rw [hmark, hentry, hu,
    Device.rebuildCommit_none (v := v.foundDamaged r.line) (by rw [hmember]; rfl) (by rw [hmember]; exact hc), hmember, hkey]
  rfl

/-- A COMMIT record is rebuilt from its Commit Table entry. -/
theorem Device.copyFoundDamaged_commit {e : CommitEntry} (hv : d.reclaim.victim = some v)
    (hp : place = { bank := v.bank, line := r.line }) (he : ∀ e, d.entry r.header.key = some e → e.loc ≠ some place)
    (hm : ∀ m, d.member r.header.key = some m → m.loc ≠ some place)
    (hc : d.commits.filter (fun y => Decidable.decide (y.loc = place)) = [e]) :
    d.copyFoundDamaged c v r =
      Device.beginCopy c { d with reclaim := { d.reclaim with victim := some (v.foundDamaged r.line) } } r .commitTable
        (commitRecord e.gid e.memberCount).payload := by
  subst hp
  have hmark := Device.markWalkDamaged_eq (loc := { bank := v.bank, line := r.line }) hv rfl
  unfold Device.copyFoundDamaged
  dsimp only
  have hentry := Device.entryFoundDamaged_none
    (d := { d with reclaim := { d.reclaim with victim := some (v.foundDamaged r.line) } }) he
  have hmember := Device.memberFoundDamaged_none
    (d := { d with reclaim := { d.reclaim with victim := some (v.foundDamaged r.line) } }) hm
  rw [hmark, hentry, hmember]
  exact Device.rebuildCommit_entry hc

end FoundDamaged

/-! ## The end of the read's step -/

section ReadStep
variable {s : State} {b : BankId} {first count : Nat}

/-- The engine's next request is granted in the same step. -/
theorem exec_read_requests {e : Device} {q : Request} (ha : s.dev.fc.Alone .reclaim (.read b first count)) (hw : s.power.warning = false)
    (he : s.dev.opDone.readLines s.ctx .reclaim (s.flash.lines b first count) = e) (hsteady : e.Steady)
    (hfc : e.fc = { s.dev.fc with op := none, waitReclaim := some q }) :
    exec .multiLineReadOutcome s = .next { s with dev := { e with fc := s.dev.fc.regranted .reclaim q } } :=
  exec_read_ends ha.op he (Device.settle_granted_reclaim hw (Device.noWake_of_steady _ hsteady) ha.free hfc)

/-- The walk goes on to its next request. -/
theorem exec_read_walks {u : Device} {v : Victim} (ha : s.dev.fc.Alone .reclaim (.read b first count)) (hw : s.power.warning = false)
    (hsteady : s.dev.Steady) (he : s.dev.opDone.readLines s.ctx .reclaim (s.flash.lines b first count) = u.walk)
    (hv : u.reclaim.victim = some v) (hx : u.ex = s.dev.ex) (hfc : u.fc = { s.dev.fc with op := none }) :
    ∃ q, u.walk.fc.waitReclaim = some q ∧
      exec .multiLineReadOutcome s = .next { s with dev := { u.walk with fc := s.dev.fc.regranted .reclaim q } } := by
  obtain ⟨dir, group, reclaim, q, hwalk, hst⟩ := Device.walk_requests hv
  refine ⟨q, by rw [hwalk], exec_read_requests ha hw he ?_ ?_⟩ <;> rw [hwalk]
  · exact ⟨fun x hxx => hsteady.command x (hx ▸ hxx), hst⟩
  · rw [hfc]

end ReadStep

end Sys2Proof.Machine
end

section
/-! A copy's verify (R50, R123, R125, R142): what each kind of record's copy leaves of the tables, and the walk's end after the last. -/
namespace Sys2Proof.Machine
open Sys2Proof

/-! ## Entries, members and commits (R50, R123, R125) -/

/-- What a copy's verify changes: tables, counts of dead and tagged lines, and the moved-member list. -/
structure Device.CopyTables (d e : Device) : Prop where
  frame : e = { d with
    dir := e.dir, banks := e.banks, group := e.group, commits := e.commits, reclaim := { d.reclaim with moved := e.reclaim.moved } }
  eraseCount : ∀ b, (e.bank b).eraseCount = (d.bank b).eraseCount

theorem Device.CopyTables.refl (d : Device) : d.CopyTables d := ⟨rfl, fun _ => rfl⟩

theorem Device.CopyTables.trans {d e f : Device} (h : d.CopyTables e) (k : e.CopyTables f) : d.CopyTables f :=
  ⟨k.frame.trans (by rw [h.frame]), fun b => (k.eraseCount b).trans (h.eraseCount b)⟩

theorem Device.addDead_tables (d : Device) (b : BankId) (n : Nat) : d.CopyTables (d.addDead b n) :=
  ⟨rfl, fun c => by rw [Device.bank_addDead_rises]⟩

theorem Device.putEntry_tables (d : Device) (e : DirEntry) : d.CopyTables (d.putEntry e) := ⟨rfl, fun _ => rfl⟩

theorem Device.addTagged_tables (d : Device) (b : BankId) : d.CopyTables (d.addTagged b 1) := by
  refine ⟨rfl, fun c => ?_⟩
  rw [Device.addTagged, Device.bank_setBank]
  split
  · next h => rw [h]
  · rfl

theorem Device.copyTakesOver_tables (d : Device) (h : Header) (original copy : Location) :
    d.CopyTables (d.copyTakesOver h original copy) := by
  unfold Device.copyTakesOver
  split
  · split
    · dsimp only
      split
      · exact d.putEntry_tables _
      · exact (d.putEntry_tables _).trans (Device.addDead_tables _ _ _)
    · exact (d.putEntry_tables _).trans (Device.addDead_tables _ _ _)
  · exact d.addDead_tables _ _

theorem Device.addDead_counts (d : Device) (b : BankId) (n : Nat) : d.Counts (d.addDead b n) fun _ => 0 :=
  ⟨rfl, fun c => by rw [Device.bank_addDead_rises]; rfl, fun c => by rw [Device.bank_addDead_rises]; exact Nat.le_add_right _ _⟩

theorem Device.copyTakesOver_counts (d : Device) (h : Header) (original copy : Location) :
    d.Counts (d.copyTakesOver h original copy) fun _ => 0 := by
  unfold Device.copyTakesOver
  split
  · split
    · dsimp only
      split
      · exact d.putEntry_counts _
      · exact (d.putEntry_counts _).trans (Device.addDead_counts _ _ _)
    · exact (d.putEntry_counts _).trans (Device.addDead_counts _ _ _)
  · exact d.addDead_counts _ _

/-- A copy of a Directory entry's record (R50): where the entry still names the original it names the copy, one copy more valid, and the
original's span is dead unless it was DAMAGED; else the copy is stale, its span dead. -/
theorem Device.copyTakesOver_at {d : Device} {h : Header} {original copy : Location} {e : DirEntry} (he : d.entry h.key = some e)
    {taken : Bool} (ht : taken = Decidable.decide (e.loc = some original ∧ e.seq = h.seq)) :
    (∀ k, (d.copyTakesOver h original copy).entry k =
      if k = h.key then
        some (if taken then { e with loc := some copy, copies := e.copies + 1 }
          else { e with stale := e.stale + if e.base ≤ h.seq then 1 else 0 })
      else d.entry k) ∧
    ∀ b, (d.copyTakesOver h original copy).bank b =
      { d.bank b with
        dead := (d.bank b).dead +
          if taken then (if b = original.bank ∧ e.state ≠ .damaged then h.span else 0) else if b = copy.bank then h.span else 0 } := by
  have hkey : e.key = h.key := Device.entry_key he
  unfold Device.copyTakesOver
  simp only [he]
  by_cases htaken : e.loc = some original ∧ e.seq = h.seq
  · rw [ht, decide_eq_true htaken]
    simp only [if_pos htaken, if_true]
    by_cases hs : e.state = .damaged
    · simp only [if_pos hs]
      exact ⟨fun k => by rw [Device.entry_putEntry, hkey], fun b => by simp [hs]⟩
    · simp only [if_neg hs]
      refine ⟨fun k => by rw [Device.entry_addDead, Device.entry_putEntry, hkey], fun b => ?_⟩
      rw [Device.bank_addDead_rises, Device.bank_putEntry]
      simp [hs, eq_comm]
  · rw [ht, decide_eq_false htaken]
    simp only [if_neg htaken, Bool.false_eq_true, if_false]
    refine ⟨fun k => by rw [Device.entry_addDead, Device.entry_putEntry, hkey], fun b => ?_⟩
    rw [Device.bank_addDead_rises, Device.bank_putEntry]
    simp [eq_comm]

section Member
variable {d : Device} {h : Header} {gid : Nat} {original copy : Location}

theorem Device.openGid_eq {g : GroupContext} (hg : d.group = some g) (hi : g.id = gid) : d.openGid = some gid := by
  rw [Device.openGid, hg, ← hi]
  rfl

/-- A copy of a record of the open group whose member still names the original (R123). -/
theorem Device.memberCopyVerifies_taken {g : GroupContext} {m : MemberEntry} (hg : d.group = some g) (hi : g.id = gid)
    (hm : d.member h.key = some m) (hl : m.loc = some original) (hq : m.seq = h.seq) :
    d.memberCopyVerifies h gid original copy =
      { d.addDead original.bank (if m.state = .damaged then 0 else h.span) with
        group := some
          { g with
            members := g.members.map fun y => if y.key = h.key then { y with loc := some copy } else y
            records := g.records ++ [copy] }
        reclaim := { d.reclaim with moved := d.reclaim.moved ++ [(h.key, h.seq)] } } := by
  unfold Device.memberCopyVerifies
  rw [if_pos (Device.openGid_eq hg hi)]
  simp only [hm]
  rw [if_pos ⟨hl, hq⟩]
  unfold Device.mapGroup
  simp only [hg]
  by_cases hs : m.state = .damaged
  · rw [if_pos hs, if_pos hs, show d.addDead original.bank 0 = d from d.setBank_self original.bank]
    rfl
  · rw [if_neg hs, if_neg hs]
    rfl

/-- A copy of a record of the open group that its member no longer names. -/
theorem Device.memberCopyVerifies_stale {g : GroupContext} {m : MemberEntry} (hg : d.group = some g) (hi : g.id = gid)
    (hm : d.member h.key = some m) (hn : m.loc ≠ some original ∨ m.seq ≠ h.seq) :
    d.memberCopyVerifies h gid original copy =
      { d.addDead copy.bank h.span with
        group := some
          { g with
            members := g.members.map fun y => if y.key = h.key then { y with staleIncrement := y.staleIncrement + 1 } else y
            records := g.records ++ [copy] } } := by
  have hnot : ¬(m.loc = some original ∧ m.seq = h.seq) := fun k => hn.elim (fun h => h k.1) fun h => h k.2
  unfold Device.memberCopyVerifies
  rw [if_pos (Device.openGid_eq hg hi)]
  simp only [hm]
  rw [if_neg hnot]
  unfold Device.mapGroup
  simp only [hg]
  rfl

theorem Device.openGid_ne (hg : ∀ g, d.group = some g → g.id ≠ gid) : d.openGid ≠ some gid := by
  unfold Device.openGid
  cases h : d.group with
  | none => simp
  | some g => simpa using hg g h

theorem Device.committedSince_iff {v : Victim} (hv : d.reclaim.victim = some v) :
    d.committedSince gid = true ↔ gid ∈ v.committedSince := by
  rw [Device.committedSince, hv]
  simp

/-- A copy of a record whose group has committed since the plan (R50, R123, R124). -/
theorem Device.memberCopyVerifies_committed {v : Victim} (hv : d.reclaim.victim = some v) (hg : ∀ g, d.group = some g → g.id ≠ gid)
    (hc : gid ∈ v.committedSince) :
    d.memberCopyVerifies h gid original copy =
      ((d.copyTakesOver h original copy).mapCommit gid fun c => { c with remaining := c.remaining + 1 }).addTagged copy.bank 1 := by
  unfold Device.memberCopyVerifies
  rw [if_neg (Device.openGid_ne hg), if_pos ((Device.committedSince_iff hv).mpr hc)]

/-- A copy of a record whose group has ended without commit. -/
theorem Device.memberCopyVerifies_ended {v : Victim} (hv : d.reclaim.victim = some v) (hg : ∀ g, d.group = some g → g.id ≠ gid)
    (hc : gid ∉ v.committedSince) : d.memberCopyVerifies h gid original copy = d.addDead copy.bank h.span := by
  unfold Device.memberCopyVerifies
  rw [if_neg (Device.openGid_ne hg), if_neg fun k => hc ((Device.committedSince_iff hv).mp k)]

end Member

theorem Device.memberCopyVerifies_tables (d : Device) (h : Header) (gid : Nat) (original copy : Location) :
    d.CopyTables (d.memberCopyVerifies h gid original copy) := by
  have hgroup (f : GroupContext → GroupContext) : d.CopyTables (d.mapGroup f) := ⟨rfl, fun _ => rfl⟩
  have hmoved (e : Device) (l : List (Key × Nat)) : e.CopyTables (e.mapReclaim fun r => { r with moved := r.moved ++ l }) :=
    ⟨rfl, fun _ => rfl⟩
  have hcommit (e : Device) (f : CommitEntry → CommitEntry) : e.CopyTables (e.mapCommit gid f) := ⟨rfl, fun _ => rfl⟩
  unfold Device.memberCopyVerifies
  split
  · split
    · split
      · dsimp only
        split
        · exact (hgroup _).trans (hmoved _ _)
        · exact ((hgroup _).trans (hmoved _ _)).trans (Device.addDead_tables _ _ _)
      · exact (hgroup _).trans (Device.addDead_tables _ _ _)
    · exact d.addDead_tables _ _
  · split
    · exact ((d.copyTakesOver_tables h original copy).trans (hcommit _ _)).trans (Device.addTagged_tables _ _)
    · exact d.addDead_tables _ _

/-- A copy of a COMMIT record (R125): the entry that named the original names the copy; without one the copy's lines are dead. -/
theorem Device.commitCopyVerifies_eq (d : Device) (original copy : Location) :
    d.commitCopyVerifies original copy =
      { d.addDead (if d.commits.any (fun x => Decidable.decide (x.loc = original)) = true then original.bank else copy.bank) 3 with
        commits := d.commits.map fun x => if x.loc = original then { x with loc := copy } else x } := by
  unfold Device.commitCopyVerifies
  by_cases h : d.commits.any (fun x => Decidable.decide (x.loc = original)) = true
  · rw [if_pos h, if_pos h]
    rfl
  · have hid : (d.commits.map fun x => if x.loc = original then { x with loc := copy } else x) = d.commits := by
      refine (List.map_congr_left fun x hx => if_neg fun hl => h ?_).trans (List.map_id _)
      exact List.any_eq_true.mpr ⟨x, hx, decide_eq_true hl⟩
    rw [if_neg h, if_neg h, hid]
    rfl

theorem Device.copyVerified_tables (d : Device) (v : Victim) (cj : CopyJob) (r : Reservation) :
    d.CopyTables (d.copyVerified v cj r) := by
  unfold Device.copyVerified
  dsimp only
  split
  · exact d.copyTakesOver_tables _ _ _
  · exact d.memberCopyVerifies_tables _ _ _ _
  · rw [Device.commitCopyVerifies_eq]
    exact ⟨rfl, fun b => by
      show (Device.bank (Device.addDead d _ _) b).eraseCount = _
      rw [Device.bank_addDead_rises]⟩

/-! ## The step of the last copy's verify (R142, R143) -/

/-- The last copy verifies: its rule, then the retire line's program granted. -/
theorem exec_copyVerifies {s : State} {cj : CopyJob} {r : Reservation} {v : Victim} {u : Device} (hsteady : s.dev.Steady)
    (hw : s.power.warning = false) (hj : s.dev.reclaim.job = .copy cj) (hr : cj.writer.stage = .programming r)
    (hl : r.at_ + 1 = cj.writer.record.span) (hv : s.dev.reclaim.victim = some v) (hc : v.cursor + 1 = v.walk.length)
    (ha : s.dev.fc.Alone .reclaim (.program r.bank (r.line + r.at_) (cj.writer.record.line r.seq r.at_)))
    (he : s.flash.line r.bank (r.line + r.at_) = Line.erased) (hu : s.dev.opDone.copyVerified v cj r = u) :
    exec (.lineProgramOutcome .asIntended) s =
      .next { s with
        flash := s.flash.setLine r.bank (r.line + r.at_) (.commitLine r.seq (.over cj.writer.record.payload) 0)
        dev := { u with
          reclaim := { u.reclaim with job := .retire, victim := some { v with cursor := v.cursor + 1, point := .retiring } }
          fc := s.dev.fc.regranted .reclaim (.program v.bank 2 (.retireLine ((s.dev.bank v.bank).eraseCount.getD 0) 0)) } } := by
  have htables := s.dev.opDone.copyVerified_tables v cj r
  rw [hu] at htables
  have hframe := htables.frame
  have hvictim : u.reclaim.victim = some v := by
    rw [hframe]
    exact hv
  have hwalk : s.dev.opDone.programmed s.ctx .reclaim .ok = u.advanceCursor.walk := by
    rw [Device.programmed_copyLine (d := s.dev.opDone) hj hr, Device.reclaimLine_last hl]
    unfold Device.reclaimCommit
    simp only [Device.opDone_reclaim, hj, hv, hu]
  have hline : cj.writer.record.line r.seq r.at_ = .commitLine r.seq (.over cj.writer.record.payload) 0 := by
    rw [show r.at_ = cj.writer.record.span - 1 by omega]
    exact RecordSpec.line_last _ _
  have hfc : u.fc = { s.dev.fc with op := none } := by
    rw [hframe]
    rfl
  have hcount : (u.bank v.bank).eraseCount = (s.dev.bank v.bank).eraseCount := htables.eraseCount v.bank
  have hend : u.advanceCursor.walk =
      { u with
        reclaim := { u.reclaim with job := .retire, victim := some { v with cursor := v.cursor + 1, point := .retiring } }
        fc := { s.dev.fc with
          op := none
          waitReclaim := some (.program v.bank 2 (.retireLine ((s.dev.bank v.bank).eraseCount.getD 0) 0)) } } := by
    rw [Device.advanceCursor_eq hvictim, Device.walk_retires (v := { v with cursor := v.cursor + 1 }) rfl hc.ge, ← hcount]
    simp only [hfc]
    rfl
  have hex : u.ex = s.dev.ex := by
    rw [hframe]
    rfl
  exact exec_lineProgram_ends ha.op he hline (programOutcome_asIntended _ rfl) (hwalk.trans hend)
    (Device.settle_granted_reclaim (fc := { s.dev.fc with op := none }) hw
      (Device.noWake_of_steady _ (hsteady.noRecord hex rfl)) ha.free rfl)

end Sys2Proof.Machine
end

section
/-! The copy walk as the statement of O44 gives it: its decisions, the copy read, and the verify of a copy. -/
namespace Sys2Proof.Machine
open Sys2Proof

/-- The decisions of R139, and the retire past the last record. -/
theorem walkDecides (d : Device) (v : Victim) (r : WalkRecord) (place : Location) (past : Reclaim) (reads : CopyOwner → Device)
    (hv : d.reclaim.victim = some v) (hr : v.walk[v.cursor]? = some r) (ho : d.ordered) (hp : place = { bank := v.bank, line := r.line })
    (hpast : past = { d.reclaim with victim := some { v with cursor := v.cursor + 1 } })
    (hreads : reads = fun owner => { d with
      reclaim := { d.reclaim with job := .copyRead owner }
      fc := { d.fc with waitReclaim := some (.read v.bank r.line (2 + (r.header.length + 15) / 16)) } }) :
    (∀ e, d.entry r.header.key = some e → e.loc = some place →
      (e.state = .damaged →
        d.walk = Device.walk { d with
          dir := d.dir.map fun y => if y.key = e.key then { y with loc := none } else y, reclaim := past }) ∧
      (e.seq = r.header.seq →
        (e.state = .live → d.walk = reads .directory) ∧
        (e.state = .tombstone →
          d.walk = if countOf v.lower e.key < e.stale then reads .directory else Device.walk { d with reclaim := past }))) ∧
    ((∀ e, d.entry r.header.key = some e → e.loc = some place → e.state ≠ .damaged ∧ e.seq ≠ r.header.seq) →
      (∀ m, d.member r.header.key = some m → m.loc = some place →
        (m.state = .damaged →
          d.walk = Device.walk { d with
            group := d.group.map fun g => { g with
              members := g.members.map fun y => if y.key = m.key then { y with loc := none } else y }
            reclaim := past }) ∧
        (m.state ≠ .damaged → m.seq = r.header.seq → d.walk = reads .member)) ∧
      ((∀ m, d.member r.header.key = some m → m.loc = some place → m.state ≠ .damaged ∧ m.seq ≠ r.header.seq) →
        (∀ c, d.commits.filter (fun y => decide (y.loc = place)) = [c] →
          d.walk = if countOf v.grouped c.gid < c.remaining then reads .commitTable else Device.walk { d with reclaim := past }) ∧
        ((∀ c ∈ d.commits, c.loc ≠ place) → d.walk = Device.walk { d with reclaim := past }))) := by
  subst hp hpast hreads
  refine ⟨fun e he hl => ?_, fun hne => ⟨fun m hm hl => ?_, fun hnm => ⟨fun c hc => ?_, fun hc => ?_⟩⟩⟩
  · obtain ⟨hdamaged, hlive, htomb⟩ := Device.decide_entry (v := v) he hl
    exact ⟨fun hs => Device.walk_entryLoses hv hr ho he (hdamaged hs),
      fun hq => ⟨fun hs => Device.walk_copies hv hr (hlive hs hq), fun hs => Device.walk_ite hv hr (htomb hs hq)⟩⟩
  all_goals have hdecide := Device.decide_noEntry hne
  · obtain ⟨hdamaged, hcopy⟩ := Device.decideMember_member (v := v) hm hl
    exact ⟨fun hs => Device.walk_memberLoses hv hr hm (hdecide.trans (hdamaged hs)),
      fun hs hq => Device.walk_copies hv hr (hdecide.trans (hcopy hs hq))⟩
  all_goals have hcommit := hdecide.trans (Device.decideMember_noMember hnm)
  · exact Device.walk_ite hv hr (hcommit.trans (Device.decideCommit_entry hc))
  · exact Device.walk_passes hv hr (hcommit.trans (Device.decideCommit_none hc))

section Verified
variable {d : Device} {v : Victim} {cj : CopyJob} {r : Reservation}

theorem Device.copyVerified_directory (ho : cj.owner = .directory) :
    d.copyVerified v cj r =
      d.copyTakesOver cj.header { bank := v.bank, line := cj.line } { bank := r.bank, line := r.line } := by
  rw [Device.copyVerified, ho]

theorem Device.copyVerified_member {gid : Nat} (ho : cj.owner = .member) (hg : cj.header.gid = some gid) :
    d.copyVerified v cj r =
      d.memberCopyVerifies cj.header gid { bank := v.bank, line := cj.line } { bank := r.bank, line := r.line } := by
  rw [Device.copyVerified, ho, hg]
  rfl

theorem Device.copyVerified_commit (ho : cj.owner = .commitTable) :
    d.copyVerified v cj r = d.commitCopyVerifies { bank := v.bank, line := cj.line } { bank := r.bank, line := r.line } := by
  rw [Device.copyVerified, ho]

end Verified

theorem Device.bank_addDead_at (d : Device) (b c : BankId) (n : Nat) :
    (d.addDead b n).bank c = { d.bank c with dead := (d.bank c).dead + if c = b then n else 0 } := by
  rw [Device.bank_addDead_rises]
  simp only [eq_comm]

/-- A copy that waits on another open is not woken while that open is in progress. -/
theorem Device.noWake_waitsOpen {c : Ctx} {d : Device} {r : WalkRecord} {owner : CopyOwner} {record : RecordSpec}
    {mark : BankId × Opener} (hx : ∀ x, d.ex = some x → x.stage.steady = true)
    (hj : d.reclaim.job = r.copyJob owner record .waitOpen) (hm : d.openMark = some mark) : d.NoWake c := by
  constructor
  · unfold Device.wakeReclaim
    rw [hj]
    exact if_neg (by simp [hm])
  · cases hex : d.ex with
    | none => exact Device.wakeCommand_of_idle c d hex
    | some x => exact Device.wakeCommand_of_steady c d hex (hx x hex)

/-- Settles O44: the walk's decisions, the copy read intact or damaged, and the verify of the last copy. -/
theorem copyVerifies : Obligations.CopyVerifies := by
  refine ⟨fun d v count hv hc he => ?retires, walkDecides,
    fun s v r owner payload record first count job hsteady hw hj hv hr hp hrec hjob => ⟨fun ha => ⟨fun a line hf hl => ?fits,
      fun b hf hm hb he => ?opens, fun hf hm hb hs hq => ?halts⟩, fun b who q hf hm hop her hwc hwr hwm hd hne hx => ?waits⟩,
    fun s v r owner first count place found hsteady hw hj hv hr hp ha ho hplace hfound =>
      ⟨fun hm hc e he hl => ?entry, fun he hc m hm hl hs => ?member, fun he hm c a line record hc hrec hf hl => ?commit⟩,
    fun s c r v e count hsteady hw hj hown hst hl hv hcur ha hera he hcount taken htaken => ?directory,
    fun s c r v original copy hsteady hw hj hst hl hv hcur ha hera horig hcopy => ?others⟩
  case retires => rw [Device.walk_retires hv hc, he, Option.getD_some]
  case fits =>
    have hread := (Device.readLines_copyRead (c := s.ctx) (d := s.dev.opDone) hj hv hr).1 payload hp
    subst hjob hl
    refine exec_read_requests ha hw (hread.trans (Device.beginCopy_fits hrec.symm hf)) ?_ rfl
    exact ⟨hsteady.command, fun w hw => by cases hw; simp⟩
  case opens =>
    have hread := (Device.readLines_copyRead (c := s.ctx) (d := s.dev.opDone) hj hv hr).1 payload hp
    subst hjob
    refine exec_read_requests ha hw (hread.trans (Device.beginCopy_opens hrec.symm hf hm hb he)) ?_ rfl
    exact ⟨hsteady.command, fun w hw => by cases hw; simp⟩
  case halts =>
    have hread := (Device.readLines_copyRead (c := s.ctx) (d := s.dev.opDone) hj hv hr).1 payload hp
    have hhalt := Device.beginCopy_halts (c := s.ctx) (d := s.dev.opDone) (r := r) (owner := owner) hrec.symm hf hm hb hs
      hsteady.phase hq
    exact exec_read_ends ha.op (hread.trans hhalt) (Device.settle_free (hsteady.noRecord rfl rfl) ha.free)
  case waits =>
    have hread := (Device.readLines_copyRead (c := s.ctx) (d := s.dev.opDone) hj hv hr).1 payload hp
    subst hjob
    refine exec_read_ends hop (hread.trans (Device.beginCopy_waitsOpen hrec.symm hf hm)) ?_
    have hfree : ({ s.dev.fc with op := none, waitCommand := none } : FlashController).Free := ⟨rfl, her, rfl, hwr, hwm, hd⟩
    have hfc : ({ s.dev.fc with op := none } : FlashController) = { s.dev.fc with op := none, waitCommand := some q } := by rw [← hwc]
    have hgrant : ({ s.dev.fc with op := none, waitCommand := none } : FlashController).granted .command q =
        { s.dev.fc with op := some (.command, q), waitCommand := none, fairness := 0 } := by
      cases q with
      | erase c => exact absurd rfl (hne c)
      | read | program => rfl
    rw [← hgrant]
    exact Device.settle_granted_command (fc := { s.dev.fc with op := none, waitCommand := none }) hw
      (Device.noWake_waitsOpen (r := r) hsteady.command rfl hm) hx hfree hfc
  case entry =>
    have hread := (Device.readLines_copyRead (c := s.ctx) (d := s.dev.opDone) hj hv hr).2 hp
    have hdamaged := Device.copyFoundDamaged_entry (c := s.ctx) (d := s.dev.opDone) hv hplace ho he hl hm hc
    obtain ⟨q, hq, hexec⟩ := exec_read_walks ha hw hsteady (hread.trans hdamaged) rfl rfl rfl
    subst hfound
    exact ⟨_, q, rfl, hq, hexec⟩
  case member =>
    have hread := (Device.readLines_copyRead (c := s.ctx) (d := s.dev.opDone) hj hv hr).2 hp
    have hdamaged := Device.copyFoundDamaged_member (c := s.ctx) (d := s.dev.opDone) hv hplace hm hl hs he hc
    obtain ⟨q, hq, hexec⟩ := exec_read_walks ha hw hsteady (hread.trans hdamaged) rfl rfl rfl
    subst hfound
    exact ⟨_, q, rfl, hq, hexec⟩
  case commit =>
    have hread := (Device.readLines_copyRead (c := s.ctx) (d := s.dev.opDone) hj hv hr).2 hp
    have hrebuilt := Device.copyFoundDamaged_commit (c := s.ctx) (d := s.dev.opDone) hv hplace he hm hc
    subst hfound hl
    refine exec_read_requests ha hw ((hread.trans hrebuilt).trans (Device.beginCopy_fits hrec.symm hf)) ?_ rfl
    exact ⟨hsteady.command, fun w hw => by cases hw; simp⟩
  case directory =>
    obtain ⟨u, hu⟩ : ∃ u, s.dev.opDone.copyVerified v c r = u := ⟨_, rfl⟩
    have hcopy := (Device.copyVerified_directory hown).symm.trans hu
    have hexec := exec_copyVerifies hsteady hw hj hst hl hv hcur ha hera hu
    have hcounts := s.dev.opDone.copyTakesOver_counts c.header { bank := v.bank, line := c.line } { bank := r.bank, line := r.line }
    obtain ⟨hentries, hbanks⟩ := Device.copyTakesOver_at (d := s.dev.opDone) (copy := { bank := r.bank, line := r.line }) he htaken
    rw [hcopy] at hcounts hentries hbanks
    have hframe := hcounts.frame
    refine ⟨_, hexec, ?_, fun k hk => ?_, hbanks, by rw [hframe]; rfl, by rw [hframe]; rfl, by rw [hframe]; rfl, by rw [hcount]; rfl⟩
    · exact (hentries c.header.key).trans (if_pos rfl)
    · exact (hentries k).trans (if_neg hk)
  case others =>
    obtain ⟨u, hu⟩ : ∃ u, s.dev.opDone.copyVerified v c r = u := ⟨_, rfl⟩
    have hexec := exec_copyVerifies hsteady hw hj hst hl hv hcur ha hera hu
    subst horig hcopy
    refine ⟨_, hexec, rfl, rfl, fun hown gid hgid => ⟨fun g m hg hi hm => ?_, fun hg => ?_⟩, fun hown => ?_⟩
    · have hverify := (Device.copyVerified_member hown hgid).symm.trans hu
      by_cases htaken : m.loc = some { bank := v.bank, line := c.line } ∧ m.seq = c.header.seq
      · have htakes := hverify.symm.trans (Device.memberCopyVerifies_taken (d := s.dev.opDone) hg hi hm htaken.1 htaken.2)
        rw [htakes]
        refine ⟨rfl, rfl, fun _ _ => ⟨rfl, rfl, fun b => ?_⟩,
          fun hn => absurd htaken fun k => hn.elim (fun h => h k.1) fun h => h k.2⟩
        refine (Device.bank_addDead_at s.dev.opDone _ b _).trans ?_
        refine congrArg (fun n => { s.dev.bank b with dead := (s.dev.bank b).dead + n }) ?_
        by_cases hs : m.state = .damaged <;> simp [hs, Header.span, spanOf]
      · have hn : m.loc ≠ some { bank := v.bank, line := c.line } ∨ m.seq ≠ c.header.seq := by
          by_contra h
          exact htaken (by simpa only [not_or, not_not, ne_eq] using h)
        have hstale := hverify.symm.trans (Device.memberCopyVerifies_stale (d := s.dev.opDone) hg hi hm hn)
        rw [hstale]
        refine ⟨rfl, rfl, fun hl hq => absurd ⟨hl, hq⟩ htaken, fun _ => ⟨rfl, rfl, fun b => ?_⟩⟩
        exact Device.bank_addDead_at s.dev.opDone r.bank b _
    · have hverify := (Device.copyVerified_member hown hgid).symm.trans hu
      by_cases hc : gid ∈ v.committedSince
      · have hcounts := s.dev.opDone.copyTakesOver_counts c.header { bank := v.bank, line := c.line } { bank := r.bank, line := r.line }
        have hframe := hcounts.frame
        rw [Device.memberCopyVerifies_committed (d := s.dev.opDone) hv hg hc] at hverify
        subst hverify
        refine ⟨by rw [hframe]; rfl, by rw [hframe]; rfl, fun _ => ⟨by rw [hframe]; rfl, fun b => ?_, fun e he => ?_⟩,
          fun hn => absurd hc hn⟩
        · refine ((Device.addTagged_counts _ r.bank).tagged b).trans (congrArg₂ (· + ·) (hcounts.tagged b) ?_)
          simp only [eq_comm]
        · refine ((Device.copyTakesOver_at (d := s.dev.opDone) he rfl).1 c.header.key).trans ((if_pos rfl).trans ?_)
          simp only [decide_eq_true_eq]
      · have hended := hverify.symm.trans (Device.memberCopyVerifies_ended (d := s.dev.opDone) hv hg hc)
        rw [hended]
        exact ⟨rfl, rfl, fun hn => absurd hn hc, fun _ => ⟨rfl, rfl, fun b => Device.bank_addDead_at s.dev.opDone r.bank b _⟩⟩
    · have hverify := (Device.copyVerified_commit hown).symm.trans hu
      rw [← hverify, Device.commitCopyVerifies_eq]
      exact ⟨rfl, rfl, rfl, fun b => Device.bank_addDead_at s.dev.opDone _ b 3⟩

end Sys2Proof.Machine
end

section
/-! What a command leaves of the laws of the host's side: the commands waiting, the law of credits (R67), the canonical memories with the
configuration's ranges (R71, R194), and OVERRUN (R68). One relation of the states before and after, and one case analysis of `exec`. -/
namespace Sys2Proof.Machine
open Sys2Proof

/-! ## The laws before and after -/

/-- The commands at which OVERRUN can fall: a write to the flags register that clears it, a port reset, and the resets. -/
def Instr.clearsOverrun (s : State) (i : Instr) : Prop :=
  (∃ v : Byte, i = .notificationFlagsClear v ∧ v.getLsbD 7 = true ∧ s.writingAt 0x50) ∨
    (i = .portReset 0xC3 ∧ s.writingAt 0x7F) ∨ Instr.resets s i

/-- The state `t` has the laws that `s` has, and OVERRUN if `s` has it, unless `clears`. -/
structure State.Follows (clears : Prop) (s t : State) : Prop where
  pending : t.pending = s.pending
  credits : s.creditLaw → t.creditLaw
  lawful : s.lawful → t.lawful
  overrun : s.dev.flags.overrun = true → t.dev.flags.overrun = true ∨ clears

theorem State.Follows.refl (c : Prop) (s : State) : State.Follows c s s := ⟨rfl, id, id, .inl⟩

theorem State.Follows.trans {c : Prop} {s t u : State} (h : State.Follows c s t) (k : State.Follows c t u) : State.Follows c s u :=
  ⟨k.pending.trans h.pending, k.credits ∘ h.credits, k.lawful ∘ h.lawful, fun ho => (h.overrun ho).elim k.overrun .inr⟩

/-- What the engines keep of the host's side (R67, R71, R195). -/
structure Device.HostKept (d e : Device) : Prop where
  load : e.load = d.load
  bufs : d.bufs → e.bufs
  flags : d.flags.within e.flags

theorem Device.HostKept.settle {d e : Device} (h : d.HostKept e) (c : Ctx) : d.HostKept (e.settle c) :=
  ⟨(Device.settle_load c e).trans h.load, Device.settle_bufs c e ∘ h.bufs, Device.settle_flg _ c e h.flags⟩

theorem State.lawful_iff (s : State) :
    s.lawful ↔ (Store.wf Line.erased s.flash = true ∧ s.dev.bufs) ∧ s.cfg.inRange := by
  have hb : (s.dev.buffers.all fun b => Store.wf 0 b.bytes) = true ↔ s.dev.bufs := by
    simp only [Vector.all_eq_true, Device.bufs, Device.buffer, Buffer.wf, Fin.forall_iff]
    rfl
  unfold State.lawful State.memoryWf
  rw [Bool.and_eq_true, hb]

/-! ## The parts of a step -/

/-- The port, the pins, the power condition, the descriptor, the select and the mask are under none of these laws. -/
theorem State.follows_outside (c : Prop) (s : State) (port : Port) (low : Bool) (power : Power) (desc : Descriptor) (select : Fin 4)
    (mask : Byte) :
    State.Follows c s { s with port := port, rstLow := low, power := power, desc := desc, select := select, mask := mask } :=
  ⟨rfl, id, id, .inl⟩

theorem State.follows_flash (c : Prop) (s : State) (f : Flash) (h : Store.wf Line.erased s.flash = true → Store.wf Line.erased f = true) :
    State.Follows c s { s with flash := f } := by
  refine ⟨rfl, id, fun hl => ?_, .inl⟩
  rw [State.lawful_iff] at hl ⊢
  obtain ⟨⟨hf, hb⟩, hg⟩ := hl
  exact ⟨⟨h hf, hb⟩, hg⟩

theorem State.follows_cfg (c : Prop) (s : State) (g : Configuration) (h : s.cfg.inRange → g.inRange) :
    State.Follows c s { s with cfg := g } := ⟨rfl, id, fun hl => ⟨hl.1, h hl.2⟩, .inl⟩

theorem State.follows_dev (c : Prop) (s : State) (d : Device) (hload : s.dev.load ≤ 8 → d.load ≤ 8) (hbufs : s.dev.bufs → d.bufs)
    (hover : s.dev.flags.overrun = true → d.flags.overrun = true ∨ c) : State.Follows c s { s with dev := d } := by
  refine ⟨rfl, hload, fun hl => ?_, hover⟩
  rw [State.lawful_iff] at hl ⊢
  obtain ⟨⟨hf, hb⟩, hg⟩ := hl
  exact ⟨⟨hf, hbufs hb⟩, hg⟩

/-- An event of the engines and the end of its step. -/
theorem State.follows_engines (c : Prop) (s : State) (f : Device → Device) (h : s.dev.HostKept (f s.dev)) :
    State.Follows c s (s.engines f) := by
  obtain ⟨hload, hbufs, hflags⟩ := h.settle s.ctx
  obtain ⟨_, _, _, _, _, _, hover⟩ := hflags
  exact s.follows_dev c _ (le_of_eq_of_le hload) hbufs (.inl ∘ hover)

theorem Device.initial_bufs : Device.initial.bufs := by
  unfold Device.bufs
  decide

/-- What a reset leaves of the host's side (R83): nothing queued, executing or completed, and the four buffers as they are first. -/
theorem State.resetTo_hostSide (s : State) (cut : CutShort) (low : Bool) (mv : Nat) :
    (s.resetTo cut low mv).dev.queue = [] ∧ (s.resetTo cut low mv).dev.fifo = [] ∧ (s.resetTo cut low mv).dev.ex = none ∧
      (s.resetTo cut low mv).dev.buffers = Device.initial.buffers := by
  rw [State.resetTo_eq]
  dsimp only
  split <;> exact ⟨rfl, rfl, rfl, rfl⟩

theorem State.follows_resetTo (c : Prop) (hc : c) (s : State) (cut : CutShort) (low : Bool) (mv : Nat) :
    State.Follows c s (s.resetTo cut low mv) := by
  obtain ⟨hqueue, hfifo, hex, hbuffers⟩ := s.resetTo_hostSide cut low mv
  refine ⟨rfl, fun _ => ?_, fun hl => ?_, fun _ => .inr hc⟩
  · simp [State.creditLaw, Device.load, Device.attached, hqueue, hfifo, hex]
  · rw [State.lawful_iff] at hl ⊢
    obtain ⟨⟨hflash, _⟩, _⟩ := hl
    refine ⟨⟨cutErase_wf _ _ _ (cutProgram_wf _ _ _ hflash), ?_⟩, resetHasTheLaws.1.2⟩
    unfold Device.bufs Device.buffer
    rw [hbuffers]
    exact Device.initial_bufs

/-! ## Window bytes -/

theorem State.windowWrite_writingAt (s : State) (a : Addr) (act : State → State) (h : s.writingAt a) :
    s.windowWrite a act = act s.byteTaken := by
  obtain ⟨hf, hp⟩ := h
  unfold State.windowWrite
  rw [hf]
  exact if_pos hp

theorem State.windowWrite_ignoring (s : State) (a : Addr) (act : State → State) (h : s.port.frame = some .ignoring) :
    s.windowWrite a act = { s with port := { s.port with sent := s.port.sent ++ [0xFF] } } := by
  unfold State.windowWrite
  rw [h]

theorem State.windowWrite_elsewhere (s : State) (a : Addr) (act : State → State) (h : s.port.frame ≠ some .ignoring) (ha : ¬s.writingAt a) :
    s.windowWrite a act = s := by
  unfold State.windowWrite
  split
  · next hf => exact if_neg fun hp => ha ⟨hf, hp⟩
  · next hf => exact absurd hf h
  · rfl

theorem State.follows_windowWrite (c : Prop) (s : State) (a : Addr) (act : State → State)
    (h : s.writingAt a → State.Follows c s.byteTaken (act s.byteTaken)) : State.Follows c s (s.windowWrite a act) := by
  by_cases ha : s.writingAt a
  · rw [s.windowWrite_writingAt a act ha]
    exact (s.follows_outside c _ _ _ _ _ _).trans (h ha)
  by_cases hi : s.port.frame = some .ignoring
  · rw [s.windowWrite_ignoring a act hi]
    exact s.follows_outside c _ _ _ _ _ _
  · rw [s.windowWrite_elsewhere a act hi ha]
    exact .refl c s

theorem Device.credits_eq (d : Device) : d.credits = 8 - d.load := rfl

/-- A posting adds one to the sum, and only where it has a credit (R67). -/
theorem Device.post_load (d : Device) (q : Descriptor) (h : d.load ≤ 8) : (d.post q).load ≤ 8 := by
  have hroom : d.credits ≠ 0 → d.load + 1 ≤ 8 := by
    rw [d.credits_eq]
    omega
  unfold Device.post
  split
  · exact h
  · next hc =>
    split
    · exact le_of_eq_of_le (by simp [Device.load, Device.placeCompletion, Device.attached]; omega) (hroom hc)
    · split
      · unfold Device.accept
        dsimp only
        split <;> exact le_of_eq_of_le (by simp [Device.load, Device.attached]; omega) (hroom hc)
      · exact h

theorem Device.post_bufs (d : Device) (q : Descriptor) (h : d.bufs) : (d.post q).bufs := by
  unfold Device.post
  repeat' split
  · exact h
  · exact h
  · unfold Device.accept
    dsimp only
    split
    · exact Device.setBuffer_bufs _ _ _ h (h _)
    · exact h
  · exact h

theorem Device.post_overrun (d : Device) (q : Descriptor) (h : d.flags.overrun = true) : (d.post q).flags.overrun = true := by
  unfold Device.post
  split
  · rfl
  · split
    · exact h
    · unfold Device.accept
      dsimp only
      repeat' split
      all_goals exact h

theorem State.follows_go (c : Prop) (s : State) (code : Option CommandCode) : State.Follows c s (s.go code) := by
  unfold State.go
  split
  · exact s.follows_windowWrite c _ _ fun _ => State.follows_dev c _ _ (Device.post_load _ _) (Device.post_bufs _ _)
      (.inl ∘ Device.post_overrun _ _)
  · exact .refl c s

theorem Configuration.store_inRange (g : Configuration) (a : Addr) (v : Byte) (h : g.inRange) : (g.store a v).inRange := by
  obtain ⟨hs, hw, ht⟩ := h
  unfold Configuration.store
  dsimp only
  repeat' split
  all_goals exact ⟨by assumption, by assumption, by assumption⟩

theorem State.follows_storeRegister (c : Prop) (s : State) (a : Addr) (v : Byte) : State.Follows c s (s.storeRegister a v) := by
  unfold State.storeRegister
  repeat' split
  · exact s.follows_outside c _ _ _ _ _ _
  · exact .refl c s
  · exact s.follows_dev c _ id (fun h => Device.setBuffer_bufs _ _ _ h (h _)) .inl
  · exact s.follows_outside c _ _ _ _ _ _

theorem State.follows_stepPointer (c : Prop) (s : State) : State.Follows c s s.stepPointer :=
  s.follows_dev c _ id (fun h => Device.setBuffer_bufs _ _ _ h (Buffer.step_wf _ (h _))) .inl

theorem State.follows_receiveByte (c : Prop) (s : State) (v : Byte) : State.Follows c s (s.receiveByte v) :=
  s.follows_dev c _ id (fun h => Device.setBuffer_bufs _ _ _ h (Buffer.step_wf _ (Buffer.receive_wf _ v (h _)))) .inl

theorem State.follows_popHead (c : Prop) (s : State) : State.Follows c s s.popHead := by
  refine s.follows_dev c _ (fun h => ?_) id .inl
  simp only [Device.load, Device.attached, List.length_tail] at h ⊢
  omega

/-- A detached command is counted no more, and a port reset leaves nothing else to count. -/
theorem Device.portReset_load (d : Device) : d.portReset.load = 0 := by
  unfold Device.portReset Device.load Device.attached
  dsimp only
  cases d.endOpenGroup.ex <;> rfl

theorem State.follows_portReset (c : Prop) (hc : c) (s : State) : State.Follows c s s.portReset := by
  have hdev := s.follows_dev c s.dev.portReset (fun _ => s.dev.portReset_load.trans_le (Nat.zero_le 8))
    (fun _ => Device.initial_bufs) fun _ => .inr hc
  exact hdev.trans (State.follows_outside c _ _ _ _ _ _ _)

/-! ## Power (R179 to R186) -/

theorem Device.warn_hostKept (d : Device) : d.HostKept d.warn :=
  ⟨d.warn_load, d.warn_bufs, d.warn_flg _ (Flags.within_refl _)⟩

theorem Device.warnBetween_hostKept (g : Configuration) (d : Device) : d.HostKept (d.warnBetween g) :=
  ⟨d.warnBetween_load g, d.warnBetween_bufs g, d.warnBetween_flg _ g (Flags.within_refl _)⟩

theorem Device.recover_hostKept (d : Device) : d.HostKept d.recover :=
  ⟨d.recover_load, d.recover_bufs, d.recover_flg _ (Flags.within_refl _)⟩

theorem Device.tickGroup_hostKept (d : Device) : d.HostKept d.tickGroup :=
  ⟨d.tickGroup_load, d.tickGroup_bufs, d.tickGroup_flg _ (Flags.within_refl _)⟩

theorem State.abandonedFlash_wf (s : State) (remains : EraseRemains) (h : Store.wf Line.erased s.flash = true) :
    Store.wf Line.erased (s.abandonedFlash remains) = true := by
  unfold State.abandonedFlash
  split
  · exact Flash.eraseBank_wf _ _ _ h
  · exact h

theorem State.follows_enterWarning (c : Prop) (s : State) (entry : WarningEntry) : State.Follows c s (s.enterWarning entry) := by
  have hflash := s.follows_flash c _ (s.abandonedFlash_wf entry.erase)
  have hpower := State.follows_outside c { s with flash := s.abandonedFlash entry.erase } s.port s.rstLow
    { s.power with warning := true, debounce := .idle } s.desc s.select s.mask
  refine (hflash.trans hpower).trans (State.follows_engines c _ _ ?_)
  split
  · exact Device.warnBetween_hostKept _ _
  · exact Device.warn_hostKept _

theorem State.follows_judgePower (c : Prop) (s : State) (entry : WarningEntry) : State.Follows c s (s.judgePower entry) := by
  cases ha : powerAsserted s.cfg s.power with
  | false =>
    rw [State.judgePower_quiet _ _ ha]
    exact s.follows_outside c _ _ _ _ _ _
  | true =>
    cases hw : s.power.warning with
    | true =>
      rw [State.judgePower_again _ _ ha hw]
      exact s.follows_outside c _ _ _ _ _ _
    | false =>
      rw [State.judgePower_enters _ _ ha hw]
      exact s.follows_enterWarning c entry

theorem State.follows_configure (c : Prop) (s : State) (a : Addr) (v : Byte) (entry : WarningEntry) :
    State.Follows c s (s.configure a v entry) := by
  have hcfg := s.follows_cfg c _ (s.cfg.store_inRange a v)
  unfold State.configure
  dsimp only
  split
  · exact hcfg.trans (State.follows_judgePower c _ entry)
  · exact hcfg

theorem State.follows_recovered (c : Prop) (s : State) : State.Follows c s s.recovered :=
  (s.follows_outside c s.port s.rstLow { s.power with warning := false, debounce := .idle } s.desc s.select s.mask).trans
    (State.follows_engines c _ _ (Device.recover_hostKept _))

theorem State.follows_tickDebounce (c : Prop) (s : State) : State.Follows c s s.tickDebounce := by
  unfold State.tickDebounce
  repeat' split
  · exact .refl c s
  · exact s.follows_outside c _ _ _ _ _ _
  · exact s.follows_recovered c
  · exact .refl c s

/-- New levels of the sources: a reset at a supply below the brown-out level, before or after; else they are judged (R181). -/
theorem State.follows_levels (c : Prop) (s : State) (low : Bool) (mv : Nat) (cut : CutShort) (between : Bool)
    (hc : mv < 1600 ∨ s.power.vdd < 1600 → c) : State.Follows c s (s.levels low mv cut between) := by
  by_cases hv : mv < 1600 ∨ s.power.vdd < 1600
  · rw [s.levels_brownOut _ _ _ _ hv]
    exact s.follows_resetTo c (hc hv) cut low mv
  · obtain ⟨hm, hs⟩ := not_or.mp hv
    rw [s.levels_judged _ _ _ _ (Nat.le_of_not_lt hm) (Nat.le_of_not_lt hs)]
    exact (s.follows_outside c _ _ _ _ _ _).trans (State.follows_judgePower c _ _)

/-! ## One command -/

theorem exec_follows (i : Instr) (s t : State) (he : exec i s = .next t) : State.Follows (Instr.clearsOverrun s i) s t := by
  cases i
  all_goals obtain rfl := Host.Outcome.next.inj he
  case read | write | delete | add | list | openGroup | commitGroup | dropGroup | reclaim | format | raiseLock | codeNamesNoCommand =>
    exact s.follows_go _ _
  case frame | frameEnd =>
    split
    · exact s.follows_outside _ _ _ _ _ _ _
    · exact .refl _ s
  case payloadDecay =>
    split
    · exact s.follows_flash _ _ (Flash.setLine_wf _ _ _ _)
    · exact .refl _ s
  case bufferDataRead =>
    split
    · dsimp only
      split
      · exact (s.follows_outside _ _ _ _ _ _ _).trans (State.follows_stepPointer _ _)
      · exact s.follows_outside _ _ _ _ _ _ _
    · exact s.follows_outside _ _ _ _ _ _ _
    · exact .refl _ s
  case pop => exact s.follows_windowWrite _ _ _ fun _ => State.follows_popHead _ _
  case bufferDataWrite v => exact s.follows_windowWrite _ _ _ fun _ => State.follows_receiveByte _ _ v
  case enableMaskWrite => exact s.follows_windowWrite _ _ _ fun _ => State.follows_outside _ _ _ _ _ _ _ _
  case notificationFlagsClear v =>
    refine s.follows_windowWrite _ _ _ fun ha => State.follows_dev _ _ _ id id fun ho => ?_
    cases hv : v.getLsbD 7 with
    | true => exact .inr (.inl ⟨v, rfl, hv, ha⟩)
    | false =>
      refine .inl ?_
      change (s.dev.flags.overrun && !v.getLsbD 7) = true
      rw [hv]
      exact (Bool.and_true _).trans ho
  case portReset v =>
    refine s.follows_windowWrite _ _ _ fun ha => ?_
    split
    · next hv => exact State.follows_portReset _ (.inr (.inl ⟨congrArg _ hv, ha⟩)) _
    · exact .refl _ _
  case configurationWrite a v entry =>
    split
    · exact s.follows_windowWrite _ _ _ fun _ => State.follows_configure _ _ a v entry
    · exact .refl _ s
  case registerWrite a v =>
    split
    · exact .refl _ s
    · exact s.follows_windowWrite _ _ _ fun _ => State.follows_storeRegister _ _ a v
  case takeCommand =>
    exact s.follows_engines _ _ ⟨Device.takeCommand_load _ _, Device.takeCommand_bufs _ _,
      Device.takeCommand_flg _ _ _ (Flags.within_refl _)⟩
  case reclaimTakeUpWork =>
    exact s.follows_engines _ _ ⟨Device.takeWork_load _ _, Device.takeWork_bufs _ _, Device.takeWork_flg _ _ _ (Flags.within_refl _)⟩
  case lineProgramOutcome result =>
    split
    · refine (s.follows_flash _ _ (Flash.setLine_wf _ _ _ _)).trans (State.follows_engines _ _ _ ?_)
      exact ⟨Device.programmed_load _ _ _ _, fun h => Device.programmed_bufs _ _ _ _ h, Device.programmed_flg _ _ _ _ _ (Flags.within_refl _)⟩
    · exact .refl _ s
  case bankEraseOutcome remains =>
    split
    · split
      · exact .refl _ s
      · refine (s.follows_flash _ _ (Flash.eraseBank_wf _ _ remains)).trans (State.follows_engines _ _ _ ?_)
        exact ⟨Device.erased_load _ _ _ _, fun h => Device.erased_bufs _ _ _ _ h, Device.erased_flg _ _ _ _ _ (Flags.within_refl _)⟩
    · exact .refl _ s
  case multiLineReadOutcome =>
    split
    · exact s.follows_engines _ _ ⟨Device.readLines_load _ _ _ _, fun h => Device.readLines_bufs _ _ _ _ h,
        Device.readLines_flg _ _ _ _ _ (Flags.within_refl _)⟩
    · exact .refl _ s
  case timebaseTick =>
    exact (s.follows_engines _ _ (Device.tickGroup_hostKept _)).trans (State.follows_tickDebounce _ _)
  case groupExpiry =>
    repeat' split
    · exact .refl _ s
    · exact s.follows_engines _ _ (Device.tickGroup_hostKept _)
    · exact .refl _ s
  case recovery =>
    split
    · exact s.follows_recovered _
    · exact .refl _ s
  case powerOnReset cut low mv => exact s.follows_resetTo _ (.inr (.inr trivial)) cut low mv
  case pinReset pin cut =>
    cases pin with
    | pulse n =>
      dsimp only
      split
      · next hn => exact s.follows_resetTo _ (.inr (.inr hn)) _ _ _
      · exact .refl _ s
    | low => exact s.follows_outside _ _ _ _ _ _ _
    | rises =>
      dsimp only
      split
      · next hl => exact (s.follows_outside _ _ _ _ _ _ _).trans (State.follows_resetTo _ (.inr (.inr hl)) _ _ _ _)
      · exact .refl _ s
  case powerWarning source cut =>
    cases source with
    | pfw between => exact s.follows_levels _ _ _ _ _ fun h => .inr (.inr (.inl (h.elim id id)))
    | supply mv between =>
      exact s.follows_levels _ _ _ _ _ fun h => .inr (.inr (h.elim (fun hm => .inr ⟨mv, between, rfl, hm⟩) .inl))
  case powerWarningDeasserted supply => exact s.follows_levels _ _ _ _ _ fun h => .inr (.inr h.symm)

/-- A step keeps the two laws: it is `exec` of the front command, or nothing. -/
theorem step_keeps (s t : State) (h : step s = .next t) : (s.creditLaw → t.creditLaw) ∧ (s.lawful → t.lawful) := by
  unfold step at h
  split at h
  · obtain rfl := Host.Outcome.next.inj h
    exact ⟨id, id⟩
  · next i rest _ =>
    have hf := exec_follows i { s with pending := rest } t h
    exact ⟨hf.credits, hf.lawful⟩

/-- Settles O55: every part of a step keeps the canonical form and the ranges. -/
theorem lawfulKept : Obligations.LawfulKept := fun s t hl h => (step_keeps s t h).2 hl

/-- Settles O56: only a posting adds to the sum, and it takes a credit. -/
theorem creditLawKept : Obligations.CreditLawKept := fun s t hl h => (step_keeps s t h).1 hl

/-- Settles O1: `step` as it is defined, and no part of a step touches the queue of commands. -/
theorem stepRunsFrontCommand : Obligations.StepRunsFrontCommand := by
  refine ⟨fun c rest s h => ?_, fun c s t h => (exec_follows c s t h).pending, fun s h => ?_⟩ <;> simp only [step, h]

end Sys2Proof.Machine
end

section
/-! The register window as the host sees it (section 11.6, R65, R72, R80, R191): the bits and bytes of its values, what each address
returns, and what a byte written to it does. -/
namespace Sys2Proof.Machine
open Sys2Proof

/-! ## Bits and bytes -/

theorem byteOfBits_getLsbD (b7 b6 b5 b4 b3 b2 b1 b0 : Bool) (i : Fin 8) :
    (byteOfBits b7 b6 b5 b4 b3 b2 b1 b0).getLsbD i.val = [b0, b1, b2, b3, b4, b5, b6, b7].getD i.val false := by
  revert b7 b6 b5 b4 b3 b2 b1 b0 i
  decide

theorem toNat_append_add {n m : Nat} (a : BitVec n) (b : BitVec m) : (a ++ b).toNat = a.toNat * 2 ^ m + b.toNat := by
  rw [BitVec.toNat_append, ← Nat.shiftLeft_add_eq_or_of_lt b.isLt, Nat.shiftLeft_eq]

theorem toNat_extract_div {n : Nat} (x : BitVec n) (k len : Nat) : (x.extractLsb' k len).toNat = x.toNat / 2 ^ k % 2 ^ len := by
  rw [BitVec.extractLsb'_toNat, Nat.shiftRight_eq_div_pow]

/-- The byte of a value that stands `k` bits above its end, as `bytesOf` forms it. -/
theorem ofNat_div_extract {n : Nat} (x : BitVec n) (k : Nat) : BitVec.ofNat 8 (x.toNat / 2 ^ k) = x.extractLsb' k 8 :=
  BitVec.eq_of_toNat_eq (by rw [toNat_extract_div, BitVec.toNat_ofNat])

theorem ofNat_div_low {n : Nat} (x : BitVec n) : BitVec.ofNat 8 (x.toNat / 256 ^ 0) = x.setWidth 8 := by
  rw [Nat.pow_zero, Nat.div_one, BitVec.ofNat_toNat]

theorem bytesOf_two (v : Nat) : bytesOf 2 v = [BitVec.ofNat 8 (v / 256), BitVec.ofNat 8 v] := by simp [bytesOf]

theorem bytesOf_four (v : Nat) :
    bytesOf 4 v = [BitVec.ofNat 8 (v / 16777216), BitVec.ofNat 8 (v / 65536), BitVec.ofNat 8 (v / 256), BitVec.ofNat 8 v] := by
  simp [bytesOf]

/-! ## Descriptor bytes (R65) -/

theorem replaceByte_two_high (x : BitVec 16) (v : Byte) : BitVec.ofNat 16 (replaceByte 2 x.toNat 0 v) = v ++ x.setWidth 8 := by
  refine BitVec.eq_of_toNat_eq ?_
  simp only [replaceByte, bytesOf_two, natOf, List.set, List.foldl, BitVec.toNat_ofNat, toNat_append_add, BitVec.toNat_setWidth]
  omega

theorem replaceByte_two_low (x : BitVec 16) (v : Byte) : BitVec.ofNat 16 (replaceByte 2 x.toNat 1 v) = x.extractLsb' 8 8 ++ v := by
  refine BitVec.eq_of_toNat_eq ?_
  simp only [replaceByte, bytesOf_two, natOf, List.set, List.foldl, BitVec.toNat_ofNat, toNat_append_add, toNat_extract_div]
  omega

section Argument
variable (x : BitVec 32) (v : Byte)

theorem replaceByte_four_0 : BitVec.ofNat 32 (replaceByte 4 x.toNat 0 v) = v ++ x.setWidth 24 := by
  refine BitVec.eq_of_toNat_eq ?_
  simp only [replaceByte, bytesOf_four, natOf, List.set, List.foldl, BitVec.toNat_ofNat, toNat_append_add, BitVec.toNat_setWidth]
  omega

theorem replaceByte_four_1 : BitVec.ofNat 32 (replaceByte 4 x.toNat 1 v) = x.extractLsb' 24 8 ++ v ++ x.setWidth 16 := by
  refine BitVec.eq_of_toNat_eq ?_
  simp only [replaceByte, bytesOf_four, natOf, List.set, List.foldl, BitVec.toNat_ofNat, toNat_append_add, toNat_extract_div,
    BitVec.toNat_setWidth]
  omega

theorem replaceByte_four_2 : BitVec.ofNat 32 (replaceByte 4 x.toNat 2 v) = x.extractLsb' 16 16 ++ v ++ x.setWidth 8 := by
  refine BitVec.eq_of_toNat_eq ?_
  simp only [replaceByte, bytesOf_four, natOf, List.set, List.foldl, BitVec.toNat_ofNat, toNat_append_add, toNat_extract_div,
    BitVec.toNat_setWidth]
  omega

theorem replaceByte_four_3 : BitVec.ofNat 32 (replaceByte 4 x.toNat 3 v) = x.extractLsb' 8 24 ++ v := by
  refine BitVec.eq_of_toNat_eq ?_
  simp only [replaceByte, bytesOf_four, natOf, List.set, List.foldl, BitVec.toNat_ofNat, toNat_append_add, toNat_extract_div]
  omega

end Argument

theorem Addr.eq_ofNat {a : Addr} {n : Nat} (h : a.toNat = n) : a = BitVec.ofNat 7 n := by
  rw [← h, BitVec.ofNat_toNat, BitVec.setWidth_eq]

/-- A descriptor byte in the terms of the bytes of its field, the most significant first. -/
theorem Descriptor.store_eq (q : Descriptor) (a : Addr) (v : Byte) :
    q.store a v =
      if a = 0x20 then { q with code := v }
      else if a = 0x21 then { q with tag := v }
      else if a = 0x22 then { q with key := v ++ q.key.setWidth 8 }
      else if a = 0x23 then { q with key := q.key.extractLsb' 8 8 ++ v }
      else if a = 0x24 then { q with buffer := v }
      else if a = 0x25 then { q with offset := v }
      else if a = 0x26 then { q with length := v ++ q.length.setWidth 8 }
      else if a = 0x27 then { q with length := q.length.extractLsb' 8 8 ++ v }
      else if a = 0x28 then { q with cls := v }
      else if a = 0x29 then { q with argument := v ++ q.argument.setWidth 24 }
      else if a = 0x2A then { q with argument := q.argument.extractLsb' 24 8 ++ v ++ q.argument.setWidth 16 }
      else if a = 0x2B then { q with argument := q.argument.extractLsb' 16 16 ++ v ++ q.argument.setWidth 8 }
      else if a = 0x2C then { q with argument := q.argument.extractLsb' 8 24 ++ v }
      else q := by
  unfold Descriptor.store
  simp only [replaceByte_two_high, replaceByte_two_low, replaceByte_four_0, replaceByte_four_1, replaceByte_four_2, replaceByte_four_3]
  split
  case h_14 => simp_all [← BitVec.toNat_inj]
  all_goals
    next h =>
    obtain rfl := Addr.eq_ofNat h
    rfl

/-- Settles O11: the byte's action is the descriptor's, and that is the chain of its addresses. -/
theorem descriptorByteStored : Obligations.DescriptorByteStored := by
  intro s v a ha hown h31 h32
  rw [← Descriptor.store_eq]
  change Host.Outcome.next (if Addr.hasOwnRow a = true then s else s.windowWrite a (State.storeRegister a v)) = _
  rw [if_neg (by simp [hown]), s.windowWrite_writingAt a _ ha, State.storeRegister, if_neg h31, if_neg h32]
  rfl

/-! ## The register map (section 11.6) -/

/-- The head registers read from the completion at the head (R80). -/
theorem State.register_head (s : State) {c : Completion} {rest : List Completion} (h : s.dev.fifo = c :: rest) :
    s.register 0x10 = c.tag ∧ s.register 0x11 = BitVec.ofNat 8 c.status.value ∧
      s.register 0x12 = BitVec.ofNat 8 (c.result / 256) ∧ s.register 0x13 = BitVec.ofNat 8 c.result := by
  have hhead : s.dev.head = c.tag :: BitVec.ofNat 8 c.status.value :: bytesOf 2 c.result := by
    unfold Device.head
    rw [h]
    rfl
  rw [bytesOf_two] at hhead
  refine ⟨?_, ?_, ?_, ?_⟩ <;> exact (congrArg (List.getD · _ _) hhead)

theorem Addr.head_cases {a : Addr} (h : 0x10 ≤ a.toNat) (h' : a.toNat ≤ 0x13) : a = 0x10 ∨ a = 0x11 ∨ a = 0x12 ∨ a = 0x13 := by
  bv_omega

/-- The head registers while the FIFO is empty (R80). -/
theorem State.register_noHead (s : State) (h : s.dev.fifo = []) (a : Addr) (hl : 0x10 ≤ a.toNat) (hh : a.toNat ≤ 0x13) :
    s.register a = 0xFF := by
  have hhead : s.dev.head = [0xFF, 0xFF, 0xFF, 0xFF] := by
    unfold Device.head
    rw [h]
  rcases Addr.head_cases hl hh with rfl | rfl | rfl | rfl <;> exact (congrArg (List.getD · _ _) hhead)

/-- The addresses of actions, of the data port and those that section 11.6 does not list read 0x00. -/
theorem State.register_unlisted (s : State) (a : Addr)
    (h : (0x18 ≤ a.toNat ∧ a.toNat < 0x20) ∨ (0x2D ≤ a.toNat ∧ a.toNat < 0x30) ∨ (0x33 ≤ a.toNat ∧ a.toNat < 0x40) ∨
      (0x47 ≤ a.toNat ∧ a.toNat < 0x50) ∨ 0x52 ≤ a.toNat) : s.register a = 0 := by
  have hdescriptor : ¬(0x20 ≤ a.toNat ∧ a.toNat ≤ 0x2C) := by omega
  unfold State.register
  split
  case h_36 => rw [if_neg hdescriptor]
  all_goals
    next hn =>
    rw [hn] at h
    exact absurd h (by decide)

/-- The group status register: the group's state above the number of commit entries. -/
theorem Device.groupStatus_eq (d : Device) :
    d.groupStatus = BitVec.ofNat 8 (d.commits.length +
      16 * (match d.group with
        | none => 0
        | some g => if g.state = .opened then 1 else 2)) := by
  unfold Device.groupStatus
  rw [Nat.add_comm]
  cases d.group with
  | none => rfl
  | some g => cases hs : g.state <;> simp only [hs] <;> rfl

/-- Settles O4: the registers without arithmetic are what the model says; the rest are the bits, the bytes and the codes above. -/
theorem registerMap : Obligations.RegisterMap := by
  intro s
  refine ⟨⟨rfl, rfl, rfl, ?level, ?warning, rfl, rfl, rfl⟩, ⟨rfl, rfl, rfl, rfl, ?outcome, rfl, ?causes, s.dev.groupStatus_eq⟩,
    ⟨s.register_noHead, fun c rest => s.register_head, rfl, rfl, ?command, ?reclaim⟩,
    ⟨rfl, rfl, ofNat_div_extract s.desc.key 8, ofNat_div_low s.desc.key, rfl, rfl, ofNat_div_extract s.desc.length 8, ofNat_div_low s.desc.length, rfl,
      ofNat_div_extract s.desc.argument 24, ofNat_div_extract s.desc.argument 16, ofNat_div_extract s.desc.argument 8,
      ofNat_div_low s.desc.argument, rfl, rfl⟩,
    ⟨rfl, rfl, rfl, rfl, rfl, ?enable, ?threshold, ?flags, rfl⟩, s.register_unlisted⟩
  case level => cases h : s.dev.level <;> simp only [State.register, h] <;> rfl
  case warning => cases h : s.power.warning <;> simp only [State.register, h] <;> rfl
  case outcome => cases h : s.dev.mountOutcome <;> simp only [State.register, h] <;> rfl
  case command => cases h : s.dev.commandPhase <;> simp only [State.register, h] <;> rfl
  case reclaim => cases h : s.dev.reclaimPhase <;> simp only [State.register, h] <;> rfl
  case enable => cases h : s.cfg.suspendEnable <;> simp only [State.register, h] <;> rfl
  case threshold => cases h : s.cfg.supplyThreshold <;> simp only [State.register, h] <;> rfl
  case causes => exact byteOfBits_getLsbD _ _ _ _ _ _ _ _
  case flags => exact byteOfBits_getLsbD _ _ _ _ _ _ _ _

/-! ## Bytes read (R72, R80, R191) -/

theorem exec_bufferDataRead_reading (s : State) (hf : s.port.frame = some .reading) :
    exec .bufferDataRead s =
      .next
        (if s.port.pointer = 0x30 then (s.byteSent s.readByte (s.captured s.port.pointer)).stepPointer
        else s.byteSent s.readByte (s.captured s.port.pointer)) := by
  change execBufferDataRead s = _
  unfold execBufferDataRead
  split
  · rfl
  · next hi => exact absurd (hf.symm.trans hi) nofun
  · next hn _ => exact absurd hf hn

/-- A data byte of a read frame away from the data port and from the two-byte status values sends the register as it stands. -/
theorem exec_bufferDataRead_register (s : State) (hf : s.port.frame = some .reading)
    (ha : s.port.pointer.toNat < 8 ∨ 11 < s.port.pointer.toNat) (hp : s.port.pointer ≠ 0x30) :
    exec .bufferDataRead s = .next (s.byteSent (s.register s.port.pointer) none) := by
  have hcaptured : s.captured s.port.pointer = none := if_neg (by bv_omega)
  have hlow : Addr.isStatusLow s.port.pointer = false := by
    simp only [Addr.isStatusLow, Bool.or_eq_false_iff, decide_eq_false_iff_not]
    constructor <;> bv_omega
  have hread : s.readByte = s.register s.port.pointer := by
    unfold State.readByte
    rw [if_neg hp]
    split
    · refine if_neg fun h => ?_
      obtain ⟨rfl, hl⟩ : _ = s.port.pointer ∧ _ := by simpa using h
      exact absurd hl (by simp [hlow])
    · rfl
  rw [exec_bufferDataRead_reading s hf, if_neg hp, hcaptured, hread]

/-- A data byte of a read frame at the data port sends the selected buffer's byte, and its pointer steps. -/
theorem exec_bufferDataRead_port (s : State) (hf : s.port.frame = some .reading) (hp : s.port.pointer = 0x30) :
    exec .bufferDataRead s = .next (s.byteSent s.dataByte none).stepPointer := by
  have hcaptured : s.captured s.port.pointer = none := if_neg (by rw [hp]; decide)
  have hread : s.readByte = s.dataByte := if_pos hp
  rw [exec_bufferDataRead_reading s hf, if_pos hp, hcaptured, hread]

theorem State.dataByte_eq (s : State) :
    s.dataByte = if (s.dev.buffer s.select).owner = .host then (s.dev.buffer s.select).byte (s.dev.buffer s.select).pointer.toNat else 0xFF := by
  unfold State.dataByte
  cases h : (s.dev.buffer s.select).owner <;> simp [h]

/-- Settles O8: the byte and the step of the pointer are the model's; what is stored where is `Buffer.byte_receive`. -/
theorem dataPortReadAndWritten : Obligations.DataPortReadAndWritten := by
  refine ⟨fun s hf hp b hb => ?_, fun s v ha => ?_⟩
  · subst hb
    rw [exec_bufferDataRead_port s hf hp, s.dataByte_eq]
    rfl
  · refine ⟨((s.dev.buffer s.select).receive v).step, congrArg _ (s.windowWrite_writingAt 0x30 _ ha), ?_, ?_,
      Buffer.byte_receive _ v⟩
    all_goals
      unfold Buffer.step Buffer.receive
      split <;> rfl

/-! ## The completion head (R80) -/

theorem State.register_head_congr {s t : State} (h : t.dev.head = s.dev.head) (a : Addr) (hl : 0x10 ≤ a.toNat) (hh : a.toNat ≤ 0x13) :
    t.register a = s.register a := by
  rcases Addr.head_cases hl hh with rfl | rfl | rfl | rfl <;> exact congrArg (List.getD · _ _) h

theorem Status.value_ne_emptyHead (st : Status) : BitVec.ofNat 8 st.value ≠ (0xFF : Byte) := by
  cases st <;> decide

theorem exec_pop (s : State) (v : Byte) (ha : s.writingAt 0x18) : exec (.pop v) s = .next s.byteTaken.popHead :=
  congrArg _ (s.windowWrite_writingAt 0x18 _ ha)

/-- A completion popped gives its credit back (R67, R80). -/
theorem Device.credits_pop {d : Device} {c : Completion} {rest : List Completion} (h : d.fifo = c :: rest) (hload : d.load ≤ 8) :
    { d with fifo := rest }.credits = d.credits + 1 := by
  simp only [Device.credits_eq, Device.load, Device.attached, h, List.length_cons] at hload ⊢
  omega

/-- Settles O9: the head registers read the head alone, and POP removes it. -/
theorem completionHeadAndPop : Obligations.CompletionHeadAndPop := by
  refine ⟨fun s c rest => s.register_head, fun s hf => ?empty, Status.value_ne_emptyHead, fun s hf ⟨hl, hh⟩ => ?read,
    fun s c k hf => ?behind, fun s v ha => ⟨fun c rest hf => ⟨?pop, ?credit⟩, fun hf => ?nothing⟩, fun d => ?done⟩
  case empty =>
    have h := s.register_noHead hf
    exact ⟨h 0x10 (by decide) (by decide), h 0x11 (by decide) (by decide), h 0x12 (by decide) (by decide), h 0x13 (by decide) (by decide)⟩
  case read => exact exec_bufferDataRead_register s hf (by omega) (by bv_omega)
  case behind =>
    obtain ⟨c₀, rest, hc⟩ := List.exists_cons_of_ne_nil hf
    have hk : (BitVec.ofNat 7 (0x10 + k.val)).toNat = 0x10 + k.val := by
      rw [BitVec.toNat_ofNat]
      omega
    refine State.register_head_congr ?_ _ (by omega) (by omega)
    unfold Device.head
    simp only [hc, List.cons_append]
  case pop =>
    rw [exec_pop s v ha]
    unfold State.popHead
    rw [show s.byteTaken.dev.fifo.tail = rest from congrArg List.tail hf]
    rfl
  case credit => exact Device.credits_pop hf
  case nothing =>
    rw [exec_pop s v ha]
    unfold State.popHead
    rw [show s.byteTaken.dev.fifo.tail = s.dev.fifo from (congrArg List.tail hf).trans hf.symm]
    rfl
  case done =>
    have h := byteOfBits_getLsbD d.flags.overrun d.flags.degraded d.flags.powerOk d.flags.powerWarn d.flags.groupExpired d.flags.mounted
      d.flags.spaceLow (!d.fifo.isEmpty) 0
    change d.flagsByte.getLsbD 0 = !d.fifo.isEmpty at h
    rw [h, Bool.not_eq_false', List.isEmpty_iff]

end Sys2Proof.Machine
end

section
/-! The host's side: what a byte reaches at each frame state (R76, R189, R191), posting through GO (R66 to R70), and what the port reset
and the resets leave of the queue, the FIFO and the buffers (R71, R83, R85, R121, R197). -/
namespace Sys2Proof.Machine
open Sys2Proof

/-! ## What window bytes reach (R76, R189, R191, R194) -/

theorem exec_byteAddress (s : State) {i : Instr} {a : Addr} (h : Instr.byteAddress i = some a) :
    ∃ act, exec i s = .next (s.windowWrite a act) := by
  cases i
  case configurationWrite addr v entry =>
    obtain ⟨hc, ha⟩ := Option.ite_none_right_eq_some.mp h
    cases ha
    exact ⟨_, congrArg _ (if_pos hc)⟩
  case registerWrite addr v =>
    obtain ⟨hc, ha⟩ := Option.ite_none_left_eq_some.mp h
    cases ha
    exact ⟨_, congrArg _ (if_neg hc)⟩
  case pop | portReset | bufferDataWrite | notificationFlagsClear | enableMaskWrite =>
    cases h
    exact ⟨_, rfl⟩
  all_goals cases h

theorem exec_goWrite (s : State) (v : Byte) (code : Option CommandCode) : exec (Instr.goWrite v code) s = .next (s.go code) := by
  cases code with
  | none => rfl
  | some c => cases c <;> rfl

/-- A GO that names the code register's command posts the descriptor (R66). -/
theorem exec_goWrite_named (s : State) (v : Byte) :
    exec (Instr.goWrite v (CommandCode.ofByte s.desc.code)) s =
      .next (s.windowWrite 0x2F fun s => { s with dev := s.dev.post s.desc }) :=
  (exec_goWrite s v _).trans (congrArg _ (if_pos rfl))

theorem exec_goWrite_posts (s : State) (v : Byte) (ha : s.writingAt 0x2F) :
    exec (Instr.goWrite v (CommandCode.ofByte s.desc.code)) s = .next { s.byteTaken with dev := s.dev.post s.desc } :=
  (exec_goWrite_named s v).trans (congrArg _ (s.windowWrite_writingAt 0x2F _ ha))

/-- From `s` to `t` of the blocks behind the window only the queue, the FIFO, the buffers and the flags have changed, and neither the array
nor the power condition. -/
structure State.WindowReach (s t : State) : Prop where
  flash : t.flash = s.flash
  power : t.power = s.power
  pin : t.rstLow = s.rstLow
  dev : t.dev = { s.dev with queue := t.dev.queue, fifo := t.dev.fifo, buffers := t.dev.buffers, flags := t.dev.flags }

theorem State.WindowReach.refl (s : State) : s.WindowReach s := ⟨rfl, rfl, rfl, rfl⟩

theorem State.windowWrite_reach (s : State) (a : Addr) (act : State → State) (h : s.byteTaken.WindowReach (act s.byteTaken)) :
    s.WindowReach (s.windowWrite a act) := by
  rcases s.windowWrite_cases a act with he | ⟨port, he⟩ <;> rw [he]
  · obtain ⟨hflash, hpower, hpin, hdev⟩ := h
    exact ⟨hflash, hpower, hpin, hdev⟩
  · exact ⟨rfl, rfl, rfl, rfl⟩

theorem Device.post_frame (d : Device) (q : Descriptor) :
    d.post q =
      { d with queue := (d.post q).queue, fifo := (d.post q).fifo, buffers := (d.post q).buffers, flags := (d.post q).flags } := by
  unfold Device.post Device.accept
  repeat' split
  all_goals rfl

theorem State.configure_reach (s : State) {a : Addr} (v : Byte) (entry : WarningEntry) (h : a ≠ 0x46) :
    s.WindowReach (s.configure a v entry) := by
  unfold State.configure
  dsimp only
  rw [if_neg h]
  exact ⟨rfl, rfl, rfl, rfl⟩

theorem State.storeRegister_reach (s : State) (a : Addr) (v : Byte) : s.WindowReach (s.storeRegister a v) := by
  unfold State.storeRegister
  repeat' split
  all_goals exact ⟨rfl, rfl, rfl, rfl⟩

theorem exec_frame_reach (s t : State) (i : Instr)
    (hi : (∃ high edges, i = .frame high edges) ∨ (∃ edges, i = .frameEnd edges) ∨ i = .bufferDataRead) (h : exec i s = .next t) :
    s.WindowReach t := by
  rcases hi with ⟨high, edges, rfl⟩ | ⟨edges, rfl⟩ | rfl
  all_goals
    obtain rfl := Host.Outcome.next.inj h
    repeat' split
    all_goals exact ⟨rfl, rfl, rfl, rfl⟩

/-- A window byte other than GO, the port reset and a byte to the supply threshold register. -/
theorem exec_byte_reach (s t : State) (i : Instr) (hi : Instr.byteAddress i ≠ none) (hreset : ∀ v, i ≠ .portReset v)
    (hsupply : ∀ v r, i ≠ .configurationWrite 0x46 v r) (h : exec i s = .next t) : s.WindowReach t := by
  cases i
  case pop | bufferDataWrite | notificationFlagsClear | enableMaskWrite =>
    obtain rfl := Host.Outcome.next.inj h
    exact s.windowWrite_reach _ _ ⟨rfl, rfl, rfl, rfl⟩
  case portReset v => exact absurd rfl (hreset v)
  case configurationWrite a v entry =>
    obtain rfl := Host.Outcome.next.inj h
    have ha : a ≠ 0x46 := fun ha => hsupply v entry (by rw [ha])
    split
    · exact s.windowWrite_reach _ _ (State.configure_reach _ v entry ha)
    · exact .refl s
  case registerWrite a v =>
    obtain rfl := Host.Outcome.next.inj h
    split
    · exact .refl s
    · exact s.windowWrite_reach _ _ (State.storeRegister_reach _ a v)
  all_goals exact absurd rfl hi

/-- Settles O6: a byte acts through `State.windowWrite` alone, and the actions keep the frame of `State.WindowReach`. -/
theorem windowBytesReach : Obligations.WindowBytesReach := by
  refine ⟨⟨fun s i a ha => ?byte, fun s v => ?go, fun s v code hc => ?other⟩, fun i s t h hi hreset hsupply => ?reach⟩
  case byte =>
    obtain ⟨act, he⟩ := exec_byteAddress s ha
    rw [he]
    exact ⟨fun hf => congrArg _ (s.windowWrite_ignoring a act hf), fun ⟨hf, hw⟩ => congrArg _ (s.windowWrite_elsewhere a act hf hw)⟩
  case go =>
    rw [exec_goWrite_named]
    exact ⟨fun hf => congrArg _ (s.windowWrite_ignoring _ _ hf), fun ⟨hf, hw⟩ => congrArg _ (s.windowWrite_elsewhere _ _ hf hw)⟩
  case other => exact (exec_goWrite s v code).trans (congrArg _ (if_neg hc.symm))
  case reach =>
    have hreach : s.WindowReach t := by
      rcases hi with hi | hi | hi | hi | ⟨v, rfl⟩
      · exact exec_frame_reach s t i (.inl hi) h
      · exact exec_frame_reach s t i (.inr (.inl hi)) h
      · exact exec_frame_reach s t i (.inr (.inr hi)) h
      · exact exec_byte_reach s t i hi hreset hsupply h
      · rw [exec_goWrite_named] at h
        obtain rfl := Host.Outcome.next.inj h
        exact s.windowWrite_reach _ _ ⟨rfl, rfl, rfl, Device.post_frame _ _⟩
    exact ⟨hreach.flash, hreach.power, hreach.pin, hreach.dev⟩

/-! ## Posting (R66 to R70) -/

/-- Settles O14: without a credit GO sets OVERRUN; `exec_follows` says at which commands it falls. -/
theorem goWithoutCredit : Obligations.GoWithoutCredit := by
  refine ⟨fun s v ha hc => ?_, fun i s t h hs ht => ?_⟩
  · rw [exec_goWrite_posts s v ha, Device.post, if_pos hc]
  · exact ((exec_follows i s t h).overrun hs).resolve_left (by simp [ht])

theorem CommandCode.namesBuffer_iff (c : CommandCode) : c.namesBuffer = true ↔ c = .read ∨ c = .write ∨ c = .add ∨ c = .list := by
  cases c <;> decide

theorem CommandCode.ofByte_eq_none (b : Byte) : CommandCode.ofByte b = none ↔ b = 0 ∨ 0x0B < b.toNat := by
  have hzero : b = 0 ↔ b.toNat = 0 := by bv_omega
  rw [hzero]
  unfold CommandCode.ofByte
  split
  case h_12 =>
    simp only [imp_false] at *
    simp only [true_iff]
    omega
  all_goals
    next h => simp [h]

section Posting
variable {d : Device} {q : Descriptor}

/-- A posting that a check refuses places a completion (R69). -/
theorem Device.post_refused {st : Status} (hc : d.credits ≠ 0) (h : d.postingRefusal q = some st) :
    d.post q = { d with fifo := d.fifo ++ [{ tag := q.tag, status := st, result := 0 }] } := by
  unfold Device.post
  rw [if_neg hc, h]
  rfl

/-- A posting that no check refuses is accepted (R70). -/
theorem Device.post_accepted {c : CommandCode} (hc : d.credits ≠ 0) (hq : CommandCode.ofByte q.code = some c)
    (h : d.postingRefusal q = none) : d.post q = d.accept c q := by
  unfold Device.post
  rw [if_neg hc, h]
  dsimp only
  rw [hq]

theorem Device.postingRefusal_noCode (hq : CommandCode.ofByte q.code = none) : d.postingRefusal q = some .badCommand := by
  unfold Device.postingRefusal
  rw [hq]

theorem Device.postingRefusal_noBuffer {c : CommandCode} (hq : CommandCode.ofByte q.code = some c) (hb : c.namesBuffer = true)
    (hi : bufferIndex q.buffer = none) : d.postingRefusal q = some .badArgument := by
  simp only [Device.postingRefusal, hq, hb, hi, if_true]

theorem Device.postingRefusal_buffer {c : CommandCode} {i : Fin 4} (hq : CommandCode.ofByte q.code = some c) (hb : c.namesBuffer = true)
    (hi : bufferIndex q.buffer = some i) :
    d.postingRefusal q = if (d.buffer i).owner = .engine then some .bufferBusy else none := by
  simp only [Device.postingRefusal, hq, hb, hi, if_true]

theorem Device.postingRefusal_other {c : CommandCode} (hq : CommandCode.ofByte q.code = some c) (hb : c.namesBuffer = false) :
    d.postingRefusal q = none := by
  simp only [Device.postingRefusal, hq, hb]
  rfl

theorem Device.accept_buffer (d : Device) {c : CommandCode} {i : Fin 4} (hb : c.namesBuffer = true) (hi : bufferIndex q.buffer = some i) :
    d.accept c q = ({ d with queue := d.queue ++ [{ code := c, desc := q }] } : Device).setBuffer i { d.buffer i with owner := .engine } := by
  simp only [Device.accept, hb, hi, if_true]
  rfl

theorem Device.accept_other (d : Device) {c : CommandCode} (hb : c.namesBuffer = false) :
    d.accept c q = { d with queue := d.queue ++ [{ code := c, desc := q }] } := by
  simp only [Device.accept, hb]
  rfl

theorem Device.credits_completion (c : Completion) (hc : d.credits ≠ 0) : { d with fifo := d.fifo ++ [c] }.credits + 1 = d.credits := by
  simp only [Device.credits_eq, Device.load, Device.attached, List.length_append, List.length_singleton] at hc ⊢
  omega

theorem Device.credits_posted (p : Posted) (hc : d.credits ≠ 0) : { d with queue := d.queue ++ [p] }.credits + 1 = d.credits := by
  simp only [Device.credits_eq, Device.load, Device.attached, List.length_append, List.length_singleton] at hc ⊢
  omega

end Posting

theorem bufferIndex_eq_none {field : Byte} (h : 3 < field.toNat) : bufferIndex field = none := dif_neg (by omega)

/-- Settles O15: `Device.post` along its checks. -/
theorem postingCheckedOrAccepted : Obligations.PostingCheckedOrAccepted := by
  intro s v code ha hc hcode
  subst hcode
  rw [exec_goWrite_posts s v ha]
  refine ⟨fun st hst d hd => ?refused, fun c hq d hd => ⟨?credit, fun hn => ?other, fun hn i hi ho => ?buffer⟩,
    CommandCode.ofByte_eq_none _⟩
  case refused =>
    subst hd
    refine ⟨?_, Device.credits_completion _ hc⟩
    have hrefused : s.dev.postingRefusal s.desc = some st := by
      rcases hst with ⟨hq, rfl⟩ | ⟨c, hq, hn, hb⟩
      · exact Device.postingRefusal_noCode hq
      · have hn := c.namesBuffer_iff.mpr hn
        rcases hb with ⟨hb, rfl⟩ | ⟨i, hi, ho, rfl⟩
        · exact Device.postingRefusal_noBuffer hq hn (bufferIndex_eq_none hb)
        · rw [Device.postingRefusal_buffer hq hn (bufferIndex_eq hi), if_pos ho]
    rw [Device.post_refused hc hrefused]
  case credit =>
    subst hd
    exact Device.credits_posted _ hc
  case other =>
    subst hd
    have hn : c.namesBuffer = false := by
      rw [Bool.eq_false_iff, Ne, c.namesBuffer_iff]
      tauto
    rw [Device.post_accepted hc hq (Device.postingRefusal_other hq hn), Device.accept_other _ hn]
  case buffer =>
    subst hd
    have hn := c.namesBuffer_iff.mpr hn
    have hi := bufferIndex_eq hi
    have hrefused := Device.postingRefusal_buffer (d := s.dev) hq hn hi
    rw [if_neg (by simp [ho])] at hrefused
    rw [Device.post_accepted hc hq hrefused, Device.accept_buffer _ hn hi]

/-! ## The port reset (R85, R121, R197) -/

theorem exec_portReset (s : State) (ha : s.writingAt 0x7F) : exec (.portReset 0xC3) s = .next s.byteTaken.portReset :=
  congrArg _ ((s.windowWrite_writingAt 0x7F _ ha).trans (if_pos rfl))

theorem Device.endOpenGroup_committing {d : Device} {g : GroupContext} (hg : d.group = some g) (hs : g.state = .committing) :
    d.endOpenGroup = d := by
  simp only [Device.endOpenGroup, hg, hs]

theorem Device.endOpenGroup_opened {d : Device} {g : GroupContext} (hg : d.group = some g) (hs : g.state = .opened) :
    d.endOpenGroup =
      if d.ex.any (fun x => x.member) = true then { d with group := some { g with endsWithMember := true } } else d.endGroup := by
  simp only [Device.endOpenGroup, Device.memberExecuting, Device.mapGroup, hg, hs, Option.map_some]

/-- Settles O13: the group's end is the model's `endOpenGroup`, and what stands beside it is emptied as written. -/
theorem portResetEmptiesHostSide : Obligations.PortResetEmptiesHostSide := by
  intro s v ha
  refine ⟨fun hv => congrArg _ ((s.windowWrite_writingAt 0x7F _ ha).trans (if_neg hv)), ?_⟩
  rintro rfl
  refine ⟨s.dev.endOpenGroup, ?_, Device.endOpenGroup_noGroup, fun g hg => ⟨Device.endOpenGroup_committing hg, ?_, ?_⟩⟩
  · rw [exec_portReset s ha, ← s.dev.endOpenGroup_ex]
    rfl
  · exact fun hs hm => (Device.endOpenGroup_opened hg hs).trans (if_pos hm)
  · exact fun hs hm => (Device.endOpenGroup_opened hg hs).trans (if_neg (by simp [hm]))

/-! ## The buffer registers and what the resets leave of the buffers (R71) -/

/-- Every reset is `State.resetTo`, from the state with its pins as they are. -/
theorem exec_resets {s : State} {i : Instr} (h : Instr.resets s i) : ∃ r cut low mv, exec i s = .next (State.resetTo r cut low mv) := by
  cases i
  case powerOnReset cut low mv => exact ⟨s, cut, low, mv, rfl⟩
  case pinReset pin cut =>
    cases pin with
    | pulse n => exact ⟨_, _, _, _, congrArg Host.Outcome.next (if_pos h)⟩
    | low => exact h.elim
    | rises => exact ⟨_, _, _, _, congrArg Host.Outcome.next (if_pos h)⟩
  case powerWarning source cut =>
    cases source with
    | pfw between => exact ⟨_, _, _, _, congrArg _ (s.levels_brownOut _ _ _ _ (.inr (h.elim id fun ⟨_, _, hs, _⟩ => nomatch hs)))⟩
    | supply mv between =>
      refine ⟨_, _, _, _, congrArg _ (s.levels_brownOut _ mv _ _ (h.symm.imp_left ?_))⟩
      rintro ⟨_, _, hs, hm⟩
      cases hs
      exact hm
  case powerWarningDeasserted supply => exact ⟨_, _, _, _, congrArg _ (s.levels_brownOut _ _ _ _ h.symm)⟩
  all_goals exact h.elim

theorem Device.buffer_of_initial {d : Device} (h : d.buffers = Device.initial.buffers) (j : Fin 4) :
    (d.buffer j).owner = .host ∧ (d.buffer j).pointer = 0 ∧ ∀ k, (d.buffer j).byte k = 0 := by
  have hinitial : d.buffer j = Buffer.initial := by
    unfold Device.buffer
    rw [h]
    exact Vector.getElem_replicate _
  rw [hinitial]
  exact ⟨rfl, rfl, fun _ => rfl⟩

theorem exec_registerWrite (s : State) {a : Addr} (v : Byte) (ha : s.writingAt a) (hown : Addr.hasOwnRow a = false) :
    exec (.registerWrite a v) s = .next (s.byteTaken.storeRegister a v) :=
  congrArg _ ((if_neg (by simp [hown])).trans (s.windowWrite_writingAt a _ ha))

/-- Settles O12: the two registers are stored and read as `State.storeRegister` and `State.register` say, and every reset leaves the
buffers as they are first. -/
theorem bufferSelectAndPointer : Obligations.BufferSelectAndPointer := by
  refine ⟨fun s v ha => ⟨fun i hi => ?select, fun hv => ?noBuffer⟩, fun s hf hp => ?readSelect, fun s v ha => ?pointer,
    fun s hf hp => ?readPointer, fun s i h => ?resets⟩
  case select =>
    rw [exec_registerWrite s v ha (by decide), State.storeRegister, if_pos rfl, bufferIndex_eq hi]
  case noBuffer =>
    rw [exec_registerWrite s v ha (by decide), State.storeRegister, if_pos rfl, bufferIndex_eq_none hv]
  case readSelect =>
    rw [exec_bufferDataRead_register s hf (by rw [hp]; decide) (by rw [hp]; decide), hp]
    rfl
  case pointer =>
    refine ⟨s.dev.setBuffer s.select { s.dev.buffer s.select with pointer := v }, ?_, rfl, fun j => ?_⟩
    · rw [exec_registerWrite s v ha (by decide)]
      rfl
    · rw [Device.setBuffer_buffer]
      by_cases hj : s.select = j
      · rw [if_pos hj, if_pos hj.symm, hj]
      · rw [if_neg hj, if_neg (Ne.symm hj)]
  case readPointer =>
    rw [exec_bufferDataRead_register s hf (by rw [hp]; decide) (by rw [hp]; decide), hp]
    rfl
  case resets =>
    rcases h with h | ⟨rfl, ha⟩
    · obtain ⟨r, cut, low, mv, he⟩ := exec_resets h
      obtain ⟨_, _, _, hbuffers⟩ := r.resetTo_hostSide cut low mv
      exact ⟨_, he, congrArg State.select (r.resetTo_eq cut low mv), Device.buffer_of_initial hbuffers⟩
    · exact ⟨_, exec_portReset s ha, rfl, Device.buffer_of_initial rfl⟩

/-! ## What the resets leave of the host's side (R83) -/

/-- TAKE_COMMAND with nothing to take is no event of the engines (R74, R85). -/
theorem exec_takeCommand_nothing (s : State) (hr : s.dev.AtRest) (h : s.dev.ex ≠ none ∨ s.dev.queue = [] ∨ s.dev.store = .mounting) :
    exec .takeCommand s = .next s := by
  have htake : s.dev.takeCommand s.ctx = s.dev := by
    unfold Device.takeCommand
    rw [Device.takeHead_none _ _ h]
    refine Device.makeStep_steady _ _ fun x hx t hs => ?_
    have hsteady := hr.steady x hx
    rw [hs] at hsteady
    cases hsteady
  refine congrArg _ (s.engines_eq _ ?_)
  rw [htake]
  exact Device.settle_atRest _ _ hr

theorem State.reset_atRest : State.reset.dev.AtRest :=
  ⟨rfl, rfl, rfl, (fun _ h => nomatch h), (fun _ h => nomatch h), (fun _ h => nomatch h)⟩

/-- What a reset leaves of the Command Engine's work: the store is MOUNTING, and no request at the Flash Controller is a command's. -/
theorem State.resetTo_engines (s : State) (cut : CutShort) (low : Bool) (mv : Nat) :
    (s.resetTo cut low mv).dev.store = .mounting ∧ (s.resetTo cut low mv).dev.fc.erase = none ∧
      (s.resetTo cut low mv).dev.fc.waitCommand = none ∧ (∀ r, (s.resetTo cut low mv).dev.fc.op ≠ some (.command, r)) ∧
      (s.resetTo cut low mv).dev.AtRest := by
  rw [State.resetTo_eq]
  dsimp only
  split
  · exact ⟨rfl, rfl, rfl, (fun _ h => nomatch h), Device.initial_atRest _⟩
  · exact ⟨rfl, rfl, rfl, (fun _ h => nomatch h), State.reset_atRest⟩

theorem Device.AtRest.posted {d : Device} (h : d.AtRest) (queue : List Posted) : ({ d with queue := queue } : Device).AtRest :=
  ⟨h.command, h.reclaim, h.mount, h.steady, h.writer, h.erase⟩

/-- The descriptor registers of an empty descriptor read 0x00. -/
theorem State.register_noDescriptor (s : State) (h : s.desc = {}) (a : Addr) (hl : 0x20 ≤ a.toNat) (hh : a.toNat ≤ 0x2C) :
    s.register a = 0 := by
  have hbytes : ∀ k : Fin 13, s.desc.bytes.getD k.val 0 = 0 := by
    rw [h]
    decide
  unfold State.register
  split
  case h_36 =>
    rw [if_pos ⟨hl, hh⟩]
    exact hbytes ⟨a.toNat - 0x20, by omega⟩
  all_goals
    next hn =>
    rw [hn] at hl hh
    exact absurd (And.intro hl hh) (by decide)

/-- Settles O53: the state after a reset part by part; a command posted while it mounts finds nothing to take it. -/
theorem hostSideAfterReset : Obligations.HostSideAfterReset := by
  intro s i h
  obtain ⟨r, cut, low, mv, he⟩ := exec_resets h
  obtain ⟨hqueue, hfifo, hex, hbuffers⟩ := r.resetTo_hostSide cut low mv
  obtain ⟨hstore, herase, hwait, hop, hrest⟩ := r.resetTo_engines cut low mv
  have heq := r.resetTo_eq cut low mv
  generalize r.resetTo cut low mv = t at *
  have hselect : t.select = 0 := congrArg State.select heq
  have hphase : t.dev.commandPhase = .idle := by
    unfold Device.commandPhase
    rw [hex]
  refine ⟨t, he, hqueue, ?credits, hfifo, t.register_noHead hfifo, Device.buffer_of_initial hbuffers, hselect, ?select,
    t.register_noDescriptor (congrArg State.desc heq), hex, ?phase, ?urgent, hstore, herase, hwait, hop, fun p => ?waits⟩
  case credits => simp [Device.credits_eq, Device.load, Device.attached, hqueue, hfifo, hex]
  case select => exact congrArg (fun i : Fin 4 => BitVec.ofNat 8 i.val) hselect
  case phase => exact congrArg (fun p : CommandPhase => BitVec.ofNat 8 p.number) hphase
  case urgent => simp [Device.urgent, hphase]
  case waits => exact exec_takeCommand_nothing _ (hrest.posted _) (.inr (.inr hstore))

end Sys2Proof.Machine
end

section
/-! The commit line of a command's record (R73, R85, R95, R100, R108, R172): what the record commits, and how its command ends. -/
namespace Sys2Proof.Machine
open Sys2Proof

/-! ## A commit and the operation that ended -/

theorem Device.dropSpentTombstone_opDone (d : Device) (k : Key) : d.opDone.dropSpentTombstone k = (d.dropSpentTombstone k).opDone := by
  unfold Device.dropSpentTombstone
  rw [show d.opDone.entry k = d.entry k from rfl]
  cases d.entry k with
  | none => rfl
  | some e =>
    dsimp only
    split
    · cases e.loc <;> rfl
    · rfl

/-- A commit and the end of the operation commute: neither sees what the other writes. -/
theorem Device.commitEntry_opDone (d : Device) (c : Committed) : d.opDone.commitEntry c = (d.commitEntry c).opDone := by
  have hsupersede (e : DirEntry) : d.opDone.supersede e = (d.supersede e).opDone := by
    unfold Device.supersede
    cases e.state <;> cases e.loc <;> rfl
  have hput (u : Device) (e : DirEntry) : u.opDone.putEntry e = (u.putEntry e).opDone := rfl
  unfold Device.commitEntry
  rw [show d.opDone.entry c.key = d.entry c.key from rfl]
  cases d.entry c.key with
  | none => exact (congrArg (Device.dropSpentTombstone · c.key) (hput d _)).trans (Device.dropSpentTombstone_opDone _ _)
  | some e =>
    dsimp only
    rw [hsupersede, hput, Device.dropSpentTombstone_opDone]

theorem Device.faultBank_eq {d e : Device} {b : BankId}
    (hbank : e.bank b =
      { d.bank b with
        suspect := true
        state := if (d.bank b).state = .active then .full else (d.bank b).state
        dead := (d.bank b).dead + if (d.bank b).state = .active then 125 - (d.bank b).used else 0 })
    (hother : ∀ c, c ≠ b → e.bank c = d.bank c) (hframe : e = { d with banks := e.banks }) : d.faultBank b = e := by
  have hbanks : (d.faultBank b).banks = e.banks := by
    refine Device.banks_ext fun c => ?_
    rw [Device.bank_faultBank]
    by_cases hc : c = b
    · rw [if_pos hc, hc, hbank]
    · rw [if_neg hc, hother c hc]
  rw [Device.faultBank_frame, hbanks, ← hframe]

/-! ## The commit line's outcome -/

theorem RecordSpec.line_commit {record : RecordSpec} {seq i : Nat} (h : i + 1 = record.span) :
    record.line seq i = .commitLine seq (.over record.payload) 0 := by
  rw [← record.line_last seq, ← h, Nat.add_sub_cancel]

/-- A commit line that reads back valid commits its record though its program did not end OK (R108). -/
theorem Device.commandLine_readsValid {c : Ctx} {d : Device} {x : Executing} {w : Writer} {r : Reservation} {spare : Byte}
    (hf : d.formatProgress = none) (hl : r.at_ + 1 = w.record.span) :
    d.commandLine c x w r (.fault (.commitLine r.seq (.over w.record.payload) spare) false) =
      (d.faultBank r.bank).commandCommit x w r := by
  have hvalid : commitLineValid w.record r.seq (.commitLine r.seq (.over w.record.payload) spare) = true := by
    simp [commitLineValid, checkAgrees]
  have hverdict : lineVerdict w r (.fault (.commitLine r.seq (.over w.record.payload) spare) false) = .committed true := by
    simp [lineVerdict, hl, hvalid]
  unfold Device.commandLine
  rw [if_neg (by simp [hf]), hverdict]
  exact congrArg (fun e : Device => e.commandCommit x w r) (if_pos rfl)

/-- The line in progress ends with its command ending beside it: the Flash Controller is free, and the step is over. -/
theorem State.Programming.exec_ends {s : State} {x : Executing} {w : Writer} {r : Reservation} {result : LineRead} {o : ProgramOutcome}
    {read : Line} {u : Device} {status : Status} {n : Nat} (h : s.Programming x w r) (hm : x.member = false) (hc : x.code ≠ .commitGroup)
    (hread : readsAs (w.record.line r.seq r.at_) result = read) (ho : programOutcome Line.erased (w.record.line r.seq r.at_) result = o)
    (hends : s.dev.opDone.commandLine s.ctx x w r o = u.endCommand status n) (hx : u.ex = some x) (hfc : u.fc = s.dev.opDone.fc)
    (hr : u.reclaim = s.dev.reclaim) :
    exec (.lineProgramOutcome result) s =
      .next { s with flash := s.flash.setLine r.bank (r.line + r.at_) read, dev := u.executingEnded x status n } := by
  have hprogrammed : s.dev.opDone.programmed s.ctx .command o = u.executingEnded x status n := by
    rw [Device.programmed_line (d := s.dev.opDone) h.command h.stage h.reserved, hends, Device.endCommand_eq status n hx hc hm]
  refine exec_lineProgram_ends h.alone.op h.erased hread ho hprogrammed ?_
  refine Device.settle_atRest _ _ (Device.executingEnded_atRest ?_ ?_ ?_ ?_ (hr ▸ h.writer)) <;> rw [hfc]
  exacts [h.alone.command, h.alone.reclaim, h.alone.mount, h.alone.erase]

/-- The same for a commit line that verifies. -/
theorem State.Programming.exec_commits {s : State} {x : Executing} {w : Writer} {r : Reservation} {u : Device} {status : Status} {n : Nat}
    (h : s.Programming x w r) (hm : x.member = false) (hc : x.code ≠ .commitGroup) (hl : r.at_ + 1 = w.record.span)
    (hends : s.dev.opDone.commandCommit x w r = u.endCommand status n) (hx : u.ex = some x) (hfc : u.fc = s.dev.opDone.fc)
    (hr : u.reclaim = s.dev.reclaim) :
    exec (.lineProgramOutcome .asIntended) s =
      .next { s with
        flash := s.flash.setLine r.bank (r.line + r.at_) (.commitLine r.seq (.over w.record.payload) 0)
        dev := u.executingEnded x status n } := by
  have hformat : s.dev.opDone.formatProgress = none := h.inProgress.formatProgress
  exact h.exec_ends hm hc (RecordSpec.line_commit hl) (programOutcome_asIntended _ rfl)
    ((Device.commandLine_last hformat hl).trans hends) hx hfc hr

/-- A WRITE or DELETE outside a group commits its record and ends OK (R100). -/
theorem Device.commandCommit_user {d : Device} {x : Executing} (w : Writer) (r : Reservation) (hm : x.member = false)
    (hc : x.code = .write ∨ x.code = .delete) :
    d.commandCommit x w r = (d.commitEntry (committedRecord w r)).endCommand .ok 0 := by
  unfold Device.commandCommit Device.commitUserRecord
  rw [if_neg (by simp [hm])]
  rcases hc with hc | hc <;> rw [hc]

theorem Device.commandCommit_raiseLock {d : Device} {x : Executing} {level : LockLevel} (w : Writer) (r : Reservation)
    (hc : x.code = .raiseLock) (hlevel : LockLevel.ofNumber x.desc.argument.toNat = level) :
    d.commandCommit x w r = ({ d.commitEntry (committedRecord w r) with level := level } : Device).endCommand .ok 0 := by
  unfold Device.commandCommit
  rw [hc, hlevel]

theorem Device.commandCommit_add {d : Device} {x : Executing} (w : Writer) (r : Reservation) (hm : x.member = false)
    (hc : x.code = .add) :
    d.commandCommit x w r = ((d.commitEntry (committedRecord w r)).output w.record.payload).endCommand .ok 8 := by
  unfold Device.commandCommit Device.commitUserRecord
  rw [if_neg (by simp [hm]), hc]

/-! ## The buffer at the end of a command that wrote into it (R73, R79) -/

section Output
variable {d : Device} {x : Executing} {i : Fin 4} {bytes : List Byte} (hx : d.ex = some x) (ha : x.detached = false)
  (hn : x.code.namesBuffer = true) (hi : bufferIndex x.desc.buffer = some i) (status : Status) (n : Nat)
include hx ha hn hi

/-- The buffer is the host's, with the bytes put into it; its pointer and the other buffers are as they were. -/
theorem Device.outputEnded_buffer (j : Fin 4) :
    (((d.output bytes).executingEnded x status n).buffer j).owner = (if j = i then .host else (d.buffer j).owner) ∧
    (((d.output bytes).executingEnded x status n).buffer j).pointer = (d.buffer j).pointer ∧
    ∀ k : Nat, (((d.output bytes).executingEnded x status n).buffer j).byte k =
      if j = i ∧ k < bytes.length then bytes.getD k 0 else (d.buffer j).byte k := by
  rw [((d.output bytes).executingEnded_buffer status n ha hn hi).2, Device.output_buffer bytes hx ha hi]
  by_cases hj : j = i
  · subst hj
    simp only [if_true, true_and]
    exact ⟨rfl, Buffer.byte_fill _ bytes⟩
  · simp only [hj, false_and, if_false]
    exact ⟨trivial, trivial, fun _ => trivial⟩

end Output

/-- Settles O29: the commit is the Directory's, then the command's own part, and the command ends alone at the Flash Controller. -/
theorem recordCommitEndsCommand : Obligations.RecordCommitEndsCommand := by
  refine ⟨fun s x w r d h hm hl hd => ⟨fun hc => ?user, fun hc level hlevel harg => ?raiseLock⟩, fun s x w r h hm hc hl hp => ?add,
    fun s x w r spare d h hm hc hl hspare hbank hother hframe => ?valid⟩
  case user =>
    obtain ⟨dir, banks, hcommit⟩ := s.dev.opDone.commitEntry_frame (committedRecord w r)
    obtain rfl : d = s.dev.opDone.commitEntry (committedRecord w r) := hd
    refine h.exec_commits hm (by rcases hc with hc | hc <;> simp [hc]) hl (Device.commandCommit_user w r hm hc) ?_ ?_ ?_ <;> rw [hcommit]
    exacts [h.command, rfl]
  case raiseLock =>
    obtain ⟨dir, banks, hcommit⟩ := s.dev.opDone.commitEntry_frame (committedRecord w r)
    obtain rfl : d = s.dev.opDone.commitEntry (committedRecord w r) := hd
    have hnumber : LockLevel.ofNumber x.desc.argument.toNat = level := by
      rcases harg with ha | ha <;> rw [hlevel, ha] <;> rfl
    refine h.exec_commits hm (by simp [hc]) hl (Device.commandCommit_raiseLock w r hc hnumber) ?_ ?_ ?_ <;> rw [hcommit]
    exacts [h.command, rfl]
  case add =>
    generalize he : s.dev.commitEntry (committedRecord w r) = e
    obtain ⟨dir, banks, hcommit⟩ := s.dev.commitEntry_frame (committedRecord w r)
    obtain ⟨buffers, hout⟩ := e.opDone.output_frame w.record.payload
    obtain ⟨fifo, bufs, hended⟩ := (e.opDone.output w.record.payload).executingEnded_frame x .ok 8
    have hframe : e = { s.dev with dir := dir, banks := banks } := he.symm.trans hcommit
    have hx : e.opDone.ex = some x := by rw [hframe]; exact h.command
    have hends : s.dev.opDone.commandCommit x w r = (e.opDone.output w.record.payload).endCommand .ok 8 := by
      rw [Device.commandCommit_add w r hm hc, Device.commitEntry_opDone, he]
    refine ⟨(e.opDone.output w.record.payload).executingEnded x .ok 8, e,
      h.exec_commits hm (by simp [hc]) hl hends (by rw [hout]; exact hx) (by rw [hout, hframe]; rfl) (by rw [hout, hframe]; rfl), rfl,
      ?_, fun ha => ?_, fun ha => ?_⟩
    · rw [hended, hout, hframe]
      rfl
    · rw [Device.executingEnded_detached _ _ _ ha, Device.output_detached _ hx ha, hframe]
      exact ⟨rfl, rfl⟩
    · have hn : x.code.namesBuffer = true := by rw [hc]; rfl
      refine ⟨?_, fun i hi j => ?_⟩
      · rw [Device.executingEnded_fifo, ha, hout, hframe]
        rfl
      · have hbuffer := Device.outputEnded_buffer (bytes := w.record.payload) hx ha hn (bufferIndex_eq hi) .ok 8 j
        have hsame : e.opDone.buffer j = s.dev.buffer j := by rw [hframe]; rfl
        rwa [hsame, hp] at hbuffer
  case valid =>
    have hcommitLine := w.record.line_commit (seq := r.seq) hl
    have hread : readsAs (w.record.line r.seq r.at_) (.fieldsGood spare) = .commitLine r.seq (.over w.record.payload) spare := by
      rw [hcommitLine]
      rfl
    have hne : Line.commitLine r.seq (.over w.record.payload) spare ≠ w.record.line r.seq r.at_ := by
      rw [hcommitLine]
      simpa using hspare
    have hfault : s.dev.opDone.faultBank r.bank = d := Device.faultBank_eq hbank hother hframe
    obtain ⟨dir, banks, hcommit⟩ := d.commitEntry_frame (committedRecord w r)
    have hformat : s.dev.opDone.formatProgress = none := h.inProgress.formatProgress
    have hends := Device.commandLine_readsValid (c := s.ctx) (x := x) (spare := spare) hformat hl
    rw [hfault, Device.commandCommit_user w r hm hc] at hends
    refine h.exec_ends hm (by rcases hc with hc | hc <;> simp [hc]) hread (programOutcome_fault hread hne) hends ?_ ?_ ?_ <;>
      rw [hcommit, hframe]
    exacts [h.command, rfl]

end Sys2Proof.Machine
end

section
/-! LIST (R73, R96, R97, R184, section 11.6): the entries it lists, the bytes of each, and its end with and without the warning. -/
namespace Sys2Proof.Machine
open Sys2Proof

/-! ## Entries and their bytes (R96, R97) -/

theorem Device.listed_eq (d : Device) (q : Descriptor) :
    d.listed q =
      (d.dir.filter fun e =>
        Decidable.decide (q.argument.toNat % 65536 ≤ e.key.toNat ∧ 1 ≤ e.key.toNat ∧ e.key.toNat ≤ 0xFEFF ∧ e.state ≠ .tombstone)).take 16 := by
  unfold Device.listed
  refine congrArg (List.take 16) (List.filter_congr fun e _ => ?_)
  simp [isUserKey, Bool.and_assoc]

theorem listEntry_eq (level : LockLevel) (e : DirEntry) :
    listEntry level e =
      [e.key.extractLsb' 8 8, e.key.setWidth 8,
        (match e.cls with
        | .plain => 0x01
        | .once => 0x02
        | .counter => 0x03
        | .hidden => 0x04),
        (if e.state = .live then 0x01 else 0x03)] ++
      (if e.cls = .hidden ∧ level ≠ .opened then [0, 0] else [BitVec.ofNat 8 (e.length / 256), BitVec.ofNat 8 e.length]) ++
      [BitVec.ofNat 8 (e.seq / 16777216), BitVec.ofNat 8 (e.seq / 65536), BitVec.ofNat 8 (e.seq / 256), BitVec.ofNat 8 e.seq,
        0, 0, 0, 0, 0, 0] := by
  have hkey : bytesOf 2 e.key.toNat = [e.key.extractLsb' 8 8, e.key.setWidth 8] := by
    rw [bytesOf_two, ← ofNat_div_extract e.key 8, BitVec.ofNat_toNat]
    rfl
  have hclass : BitVec.ofNat 8 e.cls.number =
      (match e.cls with
      | .plain => 0x01
      | .once => 0x02
      | .counter => 0x03
      | .hidden => 0x04 : Byte) := by
    cases e.cls <;> rfl
  have hlength : bytesOf 2 (if e.cls = .hidden ∧ level ≠ .opened then 0 else e.length) =
      if e.cls = .hidden ∧ level ≠ .opened then [0, 0] else [BitVec.ofNat 8 (e.length / 256), BitVec.ofNat 8 e.length] := by
    split
    · rfl
    · exact bytesOf_two _
  unfold listEntry
  rw [hkey, hclass, hlength, bytesOf_four]
  simp [List.replicate]

/-! ## LIST's end (R96) -/

/-- What a command's output and end make of the buffers and the FIFO follows from these and from the command alone. -/
theorem Device.outputEnded_eq {d e : Device} {x : Executing} (bytes : List Byte) (status : Status) (n : Nat) (hd : d.ex = some x)
    (he : e.ex = some x) (hbuffers : d.buffers = e.buffers) (hfifo : d.fifo = e.fifo) :
    (d.output bytes).executingEnded x status n =
      { d with
        ex := none
        buffers := ((e.output bytes).executingEnded x status n).buffers
        fifo := ((e.output bytes).executingEnded x status n).fifo } := by
  unfold Device.output Device.executingEnded Device.releaseBuffer
  simp only [hd, he]
  cases x.detached <;> cases x.code.namesBuffer <;> cases bufferIndex x.desc.buffer <;>
    simp [Device.placeCompletion, Device.setBuffer, Device.buffer, hbuffers, hfifo]

theorem Device.startList_ends {d : Device} {x : Executing} (hx : d.ex = some x) (hc : x.code = .list) (hm : x.member = false) :
    d.startList x = (d.output ((d.listed x.desc).map (listEntry d.level)).flatten).executingEnded x .ok (d.listed x.desc).length := by
  obtain ⟨buffers, hout⟩ := d.output_frame ((d.listed x.desc).map (listEntry d.level)).flatten
  exact Device.endCommand_eq _ _ (by rw [hout]; exact hx) (by simp [hc]) hm

/-- TAKE_COMMAND of a LIST in its turn. -/
theorem State.Turn.exec_list {s : State} {p : Posted} {rest : List Posted} (h : s.Turn p rest) (hr : s.dev.AtRest) (hc : p.code = .list) :
    exec .takeCommand s =
      .next { s with
        dev := ((s.headTaken p rest).output ((s.dev.listed p.desc).map (listEntry s.dev.level)).flatten).executingEnded
          (s.headExecuting p) .ok (s.dev.listed p.desc).length } := by
  obtain ⟨hxc, hxm⟩ := State.headExecuting_noMember (s := s) rfl hc rfl
  have hstep : (s.headTaken p rest).makeStep { cfg := s.cfg, warning := false } =
      ((s.headTaken p rest).output ((s.dev.listed p.desc).map (listEntry s.dev.level)).flatten).executingEnded
        (s.headExecuting p) .ok (s.dev.listed p.desc).length := by
    rw [Device.makeStep_taken _ _ (x := s.headExecuting p) rfl rfl]
    simp only [Device.startCommand, hxc]
    exact Device.startList_ends rfl hxc hxm
  rw [h.exec_takeCommand, hstep, Device.settle_atRest]
  refine hr.ended (Device.executingEnded_ex ..) ?_ ?_ <;>
    rw [Device.outputEnded_eq (d := s.headTaken p rest) (e := s.headTaken p rest) _ _ _ rfl rfl rfl rfl] <;> rfl

/-- The taken command gone, the device is as before but for the queue, the buffers and the FIFO. -/
theorem State.headTaken_over {s : State} {p : Posted} (rest : List Posted) (hc : p.code ≠ .commitGroup) (hx : s.dev.ex = none)
    (buffers : Vector Buffer 4) (fifo : List Completion) :
    ({ s.headTaken p rest with ex := none, buffers := buffers, fifo := fifo } : Device) =
      { s.dev with queue := rest, buffers := buffers, fifo := fifo } := by
  rw [State.headTaken_other rest hc, ← hx]

/-- LIST's completion is placed behind the others. -/
theorem State.listed_fifo (s : State) (p : Posted) (rest : List Posted) (bytes : List Byte) (n : Nat) :
    (((s.headTaken p rest).output bytes).executingEnded (s.headExecuting p) .ok n).fifo =
      s.dev.fifo ++ [{ tag := p.desc.tag, status := .ok, result := n }] := by
  obtain ⟨buffers, hout⟩ := (s.headTaken p rest).output_frame bytes
  rw [Device.executingEnded_fifo, hout]
  rfl

/-- The entry to WARNING leaves a command that is no member the Directory, the level, the buffers and the FIFO. -/
theorem State.MeetsWarning.hostSide_underWarning {s : State} {p : Posted} {rest : List Posted} {x : Executing} {d : Device}
    (h : s.MeetsWarning p rest) (hx : x = s.headExecuting p) (hd : d = (s.headTaken p rest).underWarning x) (hm : x.member = false) :
    d.dir = s.dev.dir ∧ d.level = s.dev.level ∧ d.buffers = s.dev.buffers ∧ d.fifo = s.dev.fifo := by
  subst hx hd
  obtain ⟨banks, mark, r, hu, _⟩ := h.underWarning_eq hm
  obtain ⟨group, banks', moved, hg⟩ := (s.headTaken p rest).warnNoted.groupWarned_frame
  rw [hu, hg]
  exact ⟨rfl, rfl, rfl, rfl⟩

/-- Settles O19: LIST's step is its output and its end, and neither depends on what the entry to WARNING has changed. -/
theorem listWritesEntries : Obligations.ListWritesEntries := by
  refine ⟨fun s p rest i h hr hc hbuffer entries bytes hentries hbytes => ?_, fun s p rest cut h hc => ?_⟩
  · obtain ⟨hxc, hxm⟩ := State.headExecuting_noMember (s := s) rfl hc rfl
    have hlisted : s.dev.listed p.desc = entries := (s.dev.listed_eq p.desc).trans hentries.symm
    have hmap : ((s.dev.listed p.desc).map (listEntry s.dev.level)).flatten = bytes := by
      rw [hlisted, hbytes]
      exact congrArg List.flatten (List.map_congr_left fun e _ => listEntry_eq _ e)
    have hbuffers := Device.outputEnded_buffer (d := s.headTaken p rest) (bytes := bytes) rfl rfl (by rw [hxc]; rfl)
      (bufferIndex_eq hbuffer) .ok entries.length
    have hfifo := s.listed_fifo p rest bytes entries.length
    have hframe := Device.outputEnded_eq (d := s.headTaken p rest) bytes .ok entries.length rfl rfl rfl rfl
    rw [hfifo] at hframe
    refine ⟨_, h.exec_list hr hc, ?_, ?_⟩ <;> rw [hmap, hlisted]
    · exact hframe.trans (State.headTaken_over rest (by simp [hc]) h.idle _ _)
    · exact ⟨fun j => (hbuffers j).1, fun j => (hbuffers j).2.1, fun j => (hbuffers j).2.2⟩
  · generalize hd : (s.headTaken p rest).underWarning (s.headExecuting p) = d
    obtain ⟨hxc, hxm⟩ := State.headExecuting_noMember (s := s) rfl hc rfl
    obtain ⟨hdir, hlevel, hbuffers, hfifo⟩ := h.hostSide_underWarning rfl hd.symm hxm
    obtain ⟨hex, _⟩ := h.warnBetween_step rfl hd.symm hxm
    have hlisted : d.listed p.desc = s.dev.listed p.desc := by rw [Device.listed, hdir, Device.listed]
    generalize hbytes : ((s.dev.listed p.desc).map (listEntry s.dev.level)).flatten = bytes
    obtain ⟨buffers, hout⟩ := d.output_frame bytes
    have hstep : d.startCommand { cfg := s.cfg, warning := true } (s.headExecuting p)
        { payload := if p.code = .write then s.dev.taken256 p.desc else [], timeout := s.cfg.groupTimeout } =
          (d.output bytes).executingEnded (s.headExecuting p) .ok (s.dev.listed p.desc).length := by
      simp only [Device.startCommand, hxc]
      rw [Device.startList_ends hex hxc hxm, hlevel, show (s.headExecuting p).desc = p.desc from rfl, hlisted, hbytes]
    refine ⟨_, _, h.turn.exec_list h.rest hc, h.exec_ended cut rfl hd.symm hxm hstep (by rw [hout]) (by rw [hout]), ?_, _,
      s.listed_fifo p rest _ _⟩
    rw [hbytes, Device.outputEnded_eq (e := s.headTaken p rest) bytes _ _ hex rfl hbuffers hfifo]

end Sys2Proof.Machine
end

section
/-! How the checks end a command (R74, R75, R82, R122, R182, R184): the general checks at its taking, its own in its step, and both where an
entry to WARNING comes between (log entry 40). -/
namespace Sys2Proof.Machine
open Sys2Proof

/-! ## A refused command's end -/

theorem Device.firstRefusal_reclaimChecks (d : Device) (q : Descriptor) :
    firstRefusal (d.reclaimChecks q) = d.reclaimRefusal q := by
  have hconst : Config.anyBank = 0xFF := rfl
  unfold Device.reclaimChecks Device.reclaimRefusal
  rw [hconst]
  by_cases hany : q.argument.toNat = 0xFF
  · simp [firstRefusal, hany]
  by_cases hbank : q.argument.toNat < 32
  · have hof : bankOf q.argument.toNat = ⟨q.argument.toNat, hbank⟩ := Fin.ext (Nat.mod_eq_of_lt hbank)
    have hnamed : ¬31 < q.argument.toNat := by omega
    simp only [firstRefusal, Device.reclaimable, hof]
    by_cases hfull : (d.bank ⟨q.argument.toNat, hbank⟩).state = .full ∨ (d.bank ⟨q.argument.toNat, hbank⟩).state = .reclaiming
    · rcases hfull with hs | hs <;> simp [hany, hbank, hnamed, hs]
    · simp [hany, hbank, hnamed, not_or.mp hfull]
  · have hnamed : 31 < q.argument.toNat := by omega
    simp [firstRefusal, hany, hbank, hnamed]

/-- The step of a command that its own checks refuse is its end (R82). -/
theorem Device.startCommand_refused {c : Ctx} {d : Device} {x : Executing} {status : Status} (t : Taken)
    (hm : x.code.joinsGroup = true → x.member = d.group.isSome) (hr : d.refusalFor { code := x.code, desc := x.desc } = some status) :
    d.startCommand c x t = d.endCommand status 0 := by
  unfold Device.refusalFor at hr
  unfold Device.startCommand
  cases hc : x.code <;> rw [hc] at hm <;> simp only [hc] at hr ⊢
  case read => rw [Device.startRead, Device.firstRefusal_readChecks, hr]
  case write => rw [Device.startWrite, Device.firstRefusal_writeChecks (hm rfl), hr]
  case delete => rw [Device.startDelete, Device.firstRefusal_deleteChecks (hm rfl), hr]
  case add => rw [Device.startAdd, Device.firstRefusal_addChecks (hm rfl), hr]
  case list => cases hr
  case openGroup => rw [Device.startOpenGroup, Device.firstRefusal_openGroupChecks, hr]
  case commitGroup =>
    obtain ⟨hg, hs⟩ := Option.ite_none_right_eq_some.mp hr
    cases hs
    rw [Device.startCommitGroup, hg]
  case dropGroup =>
    obtain ⟨hg, hs⟩ := Option.ite_none_right_eq_some.mp hr
    cases hs
    exact if_pos (by rw [hg]; rfl)
  case reclaim => rw [Device.startReclaim, Device.firstRefusal_reclaimChecks, hr]
  case format => rw [Device.startFormat, Device.firstRefusal_formatChecks, hr]
  case raiseLock => rw [Device.startRaiseLock, Device.firstRefusal_raiseLockChecks, hr]

/-! ## The general checks (R74) -/

/-- With the Command Engine IDLE a command's end ends no group: none is COMMITTING, and none has its end held. -/
theorem Device.groupEnded_of_groupLaw {d e : Device} (x : Executing) (hg : d.groupLaw) (hx : d.ex = none) (he : e.group = d.group) :
    e.groupEnded x = e := by
  have hcommit : e.commitEnded x = e := by
    unfold Device.commitEnded
    split
    · next g hgroup =>
      refine if_neg fun ⟨_, hs⟩ => ?_
      have hlaw := (hg g (he ▸ hgroup)).1 hs
      rw [hx] at hlaw
      cases hlaw
    · rfl
  rw [Device.groupEnded, hcommit, Device.memberEnded_of_groupLaw hg hx he, ite_self]

/-- A command that the general checks refuse has ended once it is taken. -/
theorem Device.takeHead_refused {c : Ctx} {d : Device} {p : Posted} {rest : List Posted} {status : Status} (hx : d.ex = none)
    (hq : d.queue = p :: rest) (hm : d.store ≠ .mounting) (hg : d.groupLaw) (hr : firstRefusal (d.generalChecks c p.code) = some status) :
    d.takeHead c = d.headEnded p rest status 0 := by
  have hgroup : Device.groupEnded { d with queue := rest, ex := none } (d.taken c p) = { d with queue := rest } :=
    (Device.groupEnded_of_groupLaw (d := d) (e := { d with queue := rest, ex := none }) _ hg hx rfl).trans (by rw [← hx])
  rw [Device.takeHead_head c d hx hq hm, hr]
  exact (Device.endCommand_groupEnded (d := { d with queue := rest, ex := some (d.taken c p) }) status 0 rfl).trans
    (congrArg (fun e : Device => (e.releaseBuffer p.code p.desc.buffer).placeCompletion p.desc.tag status 0) hgroup)

theorem Device.headEnded_atRest {d : Device} (h : d.AtRest) (hx : d.ex = none) (p : Posted) (rest : List Posted) (status : Status)
    (result : Nat) : (d.headEnded p rest status result).AtRest := by
  obtain ⟨fifo, buffers, hend⟩ := d.headEnded_frame p rest status result
  rw [hend]
  exact h.ended hx rfl rfl

/-- TAKE_COMMAND of a command that the general checks refuse. -/
theorem exec_takeCommand_refused {s : State} {p : Posted} {rest : List Posted} {status : Status} (hr : s.dev.AtRest)
    (hx : s.dev.ex = none) (htake : s.dev.takeHead s.ctx = s.dev.headEnded p rest status 0) :
    exec .takeCommand s = .next (s.headEnded p rest status 0) := by
  have hrest := s.dev.headEnded_atRest hr hx p rest status 0
  have hidle : (s.dev.headEnded p rest status 0).ex = none := by
    obtain ⟨fifo, buffers, hend⟩ := s.dev.headEnded_frame p rest status 0
    rw [hend]
    exact hx
  refine congrArg _ (s.engines_eq _ ?_)
  unfold Device.takeCommand
  rw [htake, Device.makeStep_steady _ _ fun x h => absurd (hidle.symm.trans h) nofun]
  exact Device.settle_atRest _ _ hrest

/-! ## The commands' own checks, in NORMAL (R75) -/

/-- The checks see no change of what the taking changes. -/
theorem State.headTaken_refusalFor {s : State} {p : Posted} (rest : List Posted) : (s.headTaken p rest).refusalFor p = s.dev.refusalFor p := by
  by_cases hc : p.code = .commitGroup
  · have hgroup : (s.headTaken p rest).group = s.dev.groupTaken p := rfl
    simp only [Device.refusalFor, hc, hgroup, Device.groupTaken_commitGroup _ hc, Option.map_eq_none_iff]
  · rw [State.headTaken_other rest hc]
    rfl

/-- A command that joins groups is a member exactly where there is one. -/
theorem State.headExecuting_joins (s : State) (p : Posted) (h : p.code.joinsGroup = true) :
    (s.headExecuting p).member = s.dev.group.isSome := by
  show (p.code.joinsGroup && s.dev.group.isSome) = _
  rw [h, Bool.true_and]

theorem State.headTaken_refused {s : State} {p : Posted} {status : Status} (rest : List Posted) (hx : s.dev.ex = none)
    (hg : s.dev.groupLaw) (hr : s.dev.refusalFor p = some status) (c : Ctx) :
    (s.headTaken p rest).makeStep c = s.dev.headEnded p rest status 0 := by
  have hjoins : p.code.joinsGroup = true → (s.headExecuting p).member = (s.headTaken p rest).group.isSome := fun hj => by
    have hc : p.code ≠ .commitGroup := fun hc => by rw [hc] at hj; cases hj
    rw [State.headTaken_other rest hc]
    exact s.headExecuting_joins p hj
  have hrefused : (s.headTaken p rest).refusalFor p = some status := (State.headTaken_refusalFor rest).trans hr
  rw [Device.makeStep_taken c _ (x := s.headExecuting p) rfl rfl,
    Device.startCommand_refused (x := s.headExecuting p) _ hjoins hrefused]
  by_cases hc : p.code = .commitGroup
  · refine State.headTaken_endsGroupless rest status 0 hx ?_
    simp only [Device.refusalFor, hc] at hr
    exact (Option.ite_none_right_eq_some.mp hr).1
  · exact State.headTaken_ends rest status 0 hx hg hc

/-! ## The entry to WARNING with nothing to take, and with a head command that the general checks refuse -/

/-- At the entry a command that waits for the Reclaim Engine ends, or stays as it was. -/
theorem Device.warnCommand_steady {d : Device} (h : ∀ x, d.ex = some x → x.stage.steady = true) :
    d.warnCommand.ex = none ∨ d.warnCommand.ex = d.ex := by
  unfold Device.warnCommand
  split
  · exact .inr rfl
  · next x hx =>
    have hs := h x hx
    split
    · split
      · exact .inl d.commandPowerEnd_ex
      · exact .inr rfl
    · split
      · exact .inr rfl
      · unfold Device.answerReclaim
        split
        · dsimp only
          split
          · exact .inl (Device.endCommand_ex _ _ _)
          · exact .inr rfl
        · exact .inr rfl
    · exact .inl d.commandPowerEnd_ex
    · next hw =>
      rw [hw] at hs
      cases hs
    · exact .inr rfl

/-- After the entry no step is to come where no command had been taken without it. -/
theorem Device.makeStep_warn {d : Device} (c : Ctx) (h : ∀ x, d.ex = some x → x.stage.steady = true) : d.warn.makeStep c = d.warn := by
  refine Device.makeStep_steady c _ fun x hx t ht => ?_
  have hkept : d.warn.ex = d.ex := by
    rw [Device.warn_eq] at hx ⊢
    obtain hn | ⟨ha, _⟩ := d.warn_held
    · exact absurd (((Device.warnCommand_quiet _).idle hn).symm.trans hx) nofun
    · obtain hn | hs := Device.warnCommand_steady (fun y hy => h y (ha.symm.trans hy))
      · exact absurd (hn.symm.trans hx) nofun
      · exact hs.trans ha
  have hs := h x (hkept.symm.trans hx)
  rw [ht] at hs
  cases hs

theorem Device.warnBetween_head {d e : Device} (g : Configuration) (he : d.takeHead { cfg := g, warning := false } = e)
    (h : ∀ x, e.ex = some x → x.stage.steady = true) : d.warnBetween g = e.warn := by
  unfold Device.warnBetween
  rw [he]
  exact Device.makeStep_warn _ h

/-- PFW# goes LOW at the brown-out level or below: the reset (R181). -/
theorem exec_powerWarning_brownOut (s : State) (between : Bool) (cut : CutShort) (h : s.power.vdd < 1600) :
    exec (.powerWarning (.pfw between) cut) s = .next (s.resetTo cut true s.power.vdd) :=
  congrArg _ (s.levels_brownOut _ _ _ _ (.inr h))

/-- PFW# goes LOW under WARNING. -/
theorem exec_powerWarning_again (s : State) (between : Bool) (cut : CutShort) (h : 1600 ≤ s.power.vdd) (hw : s.power.warning = true) :
    exec (.powerWarning (.pfw between) cut) s = .next { s with power := { s.power with pfwLow := true, debounce := .idle } } := by
  rw [exec_powerWarning_pfw s between cut h]
  exact congrArg _ (State.judgePower_again { s with power := { s.power with pfwLow := true } } _ (powerAsserted_pfwLow _ _ rfl) hw)

theorem exec_powerWarning_noHead (s : State) (cut : CutShort) (hr : s.dev.AtRest)
    (h : s.dev.ex ≠ none ∨ s.dev.queue = [] ∨ s.dev.store = .mounting) :
    exec (.powerWarning (.pfw true) cut) s = exec (.powerWarning (.pfw false) cut) s := by
  by_cases hv : s.power.vdd < 1600
  · rw [exec_powerWarning_brownOut s _ cut hv, exec_powerWarning_brownOut s _ cut hv]
  have hv := Nat.le_of_not_lt hv
  cases hw : s.power.warning with
  | true => rw [exec_powerWarning_again s _ cut hv hw, exec_powerWarning_again s _ cut hv hw]
  | false =>
    have hbetween : s.dev.warnBetween s.cfg = s.dev.warn := Device.warnBetween_head s.cfg (Device.takeHead_none _ _ h) hr.steady
    rw [exec_powerWarning_entered (between := true) cut hv hw rfl, exec_powerWarning_entered (between := false) cut hv hw rfl]
    simp only [if_true, Bool.false_eq_true, if_false, hbetween]

/-- The head command's end leaves what a reset and an entry to WARNING take from the device beside the blocks. -/
theorem State.headEnded_resetTo (s : State) (p : Posted) (rest : List Posted) (status : Status) (cut : CutShort) (low : Bool) (mv : Nat) :
    (s.headEnded p rest status 0).resetTo cut low mv = s.resetTo cut low mv := by
  obtain ⟨fifo, buffers, hend⟩ := s.dev.headEnded_frame p rest status 0
  rw [State.resetTo_eq, State.resetTo_eq, State.headEnded, hend]

theorem State.headEnded_pfwLow (s : State) (p : Posted) (rest : List Posted) (status : Status) (cut : CutShort) (d : Device) :
    (s.headEnded p rest status 0).pfwLow cut d = s.pfwLow cut d := by
  obtain ⟨fifo, buffers, hend⟩ := s.dev.headEnded_frame p rest status 0
  unfold State.pfwLow State.abandonedFlash
  rw [State.headEnded, hend]

theorem exec_powerWarning_headRefused {s : State} {p : Posted} {rest : List Posted} {status : Status} (cut : CutShort)
    (hx : s.dev.ex = none) (hw : s.power.warning = false)
    (htake : s.dev.takeHead { cfg := s.cfg, warning := false } = s.dev.headEnded p rest status 0) :
    exec (.powerWarning (.pfw true) cut) s = exec (.powerWarning (.pfw false) cut) (s.headEnded p rest status 0) := by
  obtain ⟨fifo, buffers, hend⟩ := s.dev.headEnded_frame p rest status 0
  have hidle : (s.dev.headEnded p rest status 0).ex = none := by rw [hend]; exact hx
  by_cases hv : s.power.vdd < 1600
  · rw [exec_powerWarning_brownOut s _ cut hv, exec_powerWarning_brownOut (s.headEnded p rest status 0) _ cut hv, State.headEnded_resetTo]
    rfl
  have hv := Nat.le_of_not_lt hv
  have hbetween : s.dev.warnBetween s.cfg = (s.dev.headEnded p rest status 0).warn :=
    Device.warnBetween_head s.cfg htake fun x h => absurd (hidle.symm.trans h) nofun
  have hafter := exec_powerWarning_entered (s := s.headEnded p rest status 0) (between := false) cut hv hw rfl
  rw [hafter, exec_powerWarning_entered (between := true) cut hv hw rfl, State.headEnded_pfwLow]
  simp only [if_true, hbetween]
  rfl

end Sys2Proof.Machine
end

section
/-! The step of a command between whose taking and step the entry to WARNING comes (R122, R182, R184; log entry 40): its own checks, and the
end of one that they let pass. -/
namespace Sys2Proof.Machine
open Sys2Proof

/-! ## The device that the step meets -/

/-- In `m` the step of the taken command `x` is to come under WARNING; wherever it ends the command it leaves `u`, in which the rest of the
entry is done, with the command's end. -/
structure Device.MeetsStep (m u : Device) (x : Executing) : Prop where
  ex : m.ex = some x
  noFormat : x.format = none
  waits : m.fc.waitCommand = none ∧ m.fc.decided = none
  joins : x.code.joinsGroup = true → x.member = m.group.isSome
  ends : ∀ stage status,
    ({ m with ex := some { x with stage := stage } } : Device).endCommand status 0 = u.executingEnded x status 0
  rest : ∀ status, (u.executingEnded x status 0).AtRest

section Step
variable {c : Ctx} {m u : Device} {x : Executing}

theorem Device.MeetsStep.endCommand (h : m.MeetsStep u x) (status : Status) : m.endCommand status 0 = u.executingEnded x status 0 := by
  rw [← h.ends x.stage status, ← h.ex]

theorem Device.MeetsStep.refused (h : m.MeetsStep u x) {status : Status} (t : Taken)
    (hr : m.refusalFor { code := x.code, desc := x.desc } = some status) :
    (m.startCommand c x t).settle c = u.executingEnded x status 0 := by
  rw [Device.startCommand_refused t h.joins hr, h.endCommand]
  exact Device.settle_atRest _ _ (h.rest status)

theorem Device.MeetsStep.powerEnd (h : m.MeetsStep u x) : m.commandPowerEnd.settle c = u.executingEnded x .powerAbort 0 := by
  rw [Device.commandPowerEnd_noFormat (Device.formatProgress_of h.ex h.noFormat), h.endCommand]
  exact Device.settle_atRest _ _ (h.rest .powerAbort)

/-- A command that asks for a read under WARNING ends in the same step: the request is refused (R16, R184). -/
theorem Device.MeetsStep.readRefused (h : m.MeetsStep u x) (hw : c.warning = true) (loc : Location) (r : Request) :
    ((m.setStage (.reading loc)).request .command r).settle c = u.executingEnded x .powerAbort 0 := by
  obtain ⟨hwait, hdecided⟩ := h.waits
  refine Device.settle_refused hw rfl ?_ (h.rest .powerAbort)
  have hstage : m.setStage (.reading loc) = { m with ex := some { x with stage := .reading loc } } := by
    rw [Device.setStage, h.ex]
    rfl
  have hfc : (((m.setStage (.reading loc)).request .command r).fc.unwait .command) = m.fc := by
    rw [hstage]
    simp only [Device.request, FlashController.unwait, ← hwait, ← hdecided]
  rw [hfc, hstage]
  change Device.commandRefused { m with ex := some { x with stage := .reading loc } } = _
  unfold Device.commandRefused
  dsimp only
  refine (Device.commandPowerEnd_noFormat ?_).trans (h.ends _ _)
  exact h.noFormat

/-- The step under WARNING of a command that its own checks let pass and whose work begins with a flash request: it ends, or asks for its
read (R182). -/
theorem Device.startCommand_warned (t : Taken) (hw : c.warning = true) (hm : x.code.joinsGroup = true → x.member = m.group.isSome)
    (hr : m.refusalFor { code := x.code, desc := x.desc } = none)
    (hc : x.code = .write ∨ x.code = .delete ∨ x.code = .add ∨
      (x.code = .read ∧ ∃ e, m.entry x.desc.key = some e ∧ e.loc ≠ none)) :
    m.startCommand c x t = m.commandPowerEnd ∨
      ∃ loc r, m.startCommand c x t = (m.setStage (.reading loc)).request .command r := by
  unfold Device.refusalFor at hr
  unfold Device.startCommand
  rcases hc with hc | hc | hc | ⟨hc, e, he, hl⟩ <;> rw [hc] at hm <;> simp only [hc] at hr ⊢
  · rw [Device.startWrite, Device.firstRefusal_writeChecks (hm rfl), hr]
    exact .inl (Device.commandPlace_warned _ _ hw)
  · rw [Device.startDelete, Device.firstRefusal_deleteChecks (hm rfl), hr]
    exact .inl (Device.commandPlace_warned _ _ hw)
  · rw [Device.startAdd, Device.firstRefusal_addChecks (hm rfl), hr]
    dsimp only
    split
    · exact .inr ⟨_, _, rfl⟩
    · exact .inl (Device.commandPlace_warned _ _ hw)
  · obtain ⟨loc, hloc⟩ := Option.ne_none_iff_exists'.mp hl
    exact .inr ⟨loc, _, Device.startRead_reads hr he hloc⟩

theorem Device.MeetsStep.aborts (h : m.MeetsStep u x) (t : Taken) (hw : c.warning = true)
    (hr : m.refusalFor { code := x.code, desc := x.desc } = none)
    (hc : x.code = .write ∨ x.code = .delete ∨ x.code = .add ∨
      (x.code = .read ∧ ∃ e, m.entry x.desc.key = some e ∧ e.loc ≠ none)) :
    (m.startCommand c x t).settle c = u.executingEnded x .powerAbort 0 := by
  rcases Device.startCommand_warned t hw h.joins hr hc with hs | ⟨loc, r, hs⟩ <;> rw [hs]
  · exact h.powerEnd
  · exact h.readRefused hw loc r

end Step

/-! ## A member command: its group's end waits for it (R122) -/

/-- An abandoned erase that is not the Command Engine's leaves the group, and does not depend on it. -/
theorem Device.abandonErase_group (d : Device) (g : Option GroupContext) (h : ∀ e, d.fc.erase = some e → e.requester ≠ .command) :
    ({ d with group := g } : Device).abandonErase = { d.abandonErase with group := g } := by
  have habandon (e : Device) (w : Writer) : ({ e with group := g } : Device).reclaimAbandon w = { e.reclaimAbandon w with group := g } := by
    unfold Device.reclaimAbandon
    cases w.stage <;> rfl
  have hrefused (e : Device) : ({ e with group := g } : Device).reclaimRefused = { e.reclaimRefused with group := g } := by
    unfold Device.reclaimRefused
    dsimp only
    cases e.reclaim.job
    case bankMap w | lockRepair w =>
      dsimp only
      rw [habandon]
      rfl
    case copy c =>
      dsimp only
      rw [habandon]
      rfl
    all_goals rfl
  unfold Device.abandonErase
  dsimp only
  cases he : d.fc.erase with
  | none => rfl
  | some e =>
    dsimp only
    cases hq : e.requester with
    | command => exact absurd hq (h e he)
    | reclaim => exact hrefused { d with fc := { d.fc with erase := none, decided := none } }
    | mount => rfl

/-- The end of a group depends neither on the Command Engine nor on the mark that binds its end. -/
theorem Device.endGroup_marked {d : Device} {g : GroupContext} (hg : d.group = some g) (ex : Option Executing) :
    ({ d with group := some { g with endsWithMember := true }, ex := ex } : Device).endGroup = { d.endGroup with ex := ex } := by
  rw [Device.endGroup_eq (d := { d with group := some { g with endsWithMember := true }, ex := ex }) rfl, Device.endGroup_eq hg]
  dsimp only
  rw [Device.orphans_banks g.members (d := { d with group := some { g with endsWithMember := true }, ex := ex }) (e := d) rfl]

/-- A member command whose group's end waits for it ends that group first (R122). -/
theorem Device.endCommand_marked {d : Device} {g : GroupContext} {x : Executing} (hg : d.group = some g) (hm : x.member = true)
    (hc : x.code ≠ .commitGroup) (stage : Stage) (status : Status) :
    ({ d with group := some { g with endsWithMember := true }, ex := some { x with stage := stage } } : Device).endCommand status 0 =
      d.endGroup.executingEnded x status 0 := by
  have hended : Device.groupEnded { d with group := some { g with endsWithMember := true }, ex := none } { x with stage := stage } =
      { d.endGroup with ex := none } := by
    have hcommit : Device.commitEnded { d with group := some { g with endsWithMember := true }, ex := none } { x with stage := stage } =
        { d with group := some { g with endsWithMember := true }, ex := none } := if_neg fun h => hc h.1
    rw [Device.groupEnded, if_pos hm, hcommit]
    have hmember : Device.memberEnded { d with group := some { g with endsWithMember := true }, ex := none } =
        Device.endGroup { d with group := some { g with endsWithMember := true }, ex := none } := by
      simp only [Device.memberEnded, if_true]
    exact hmember.trans (Device.endGroup_marked hg none)
  rw [Device.endCommand_groupEnded (x := { x with stage := stage }) status 0 rfl]
  exact congrArg (fun e : Device =>
    if x.detached then e else (e.releaseBuffer x.code x.desc.buffer).placeCompletion x.desc.tag status 0) hended

/-- The checks of a member command read the Directory, the level and the group's members. -/
theorem Device.refusalFor_marked {d e : Device} {g : GroupContext} {p : Posted} (hdir : e.dir = d.dir) (hlevel : e.level = d.level)
    (hd : d.group = some g) (he : e.group = some { g with endsWithMember := true }) (hj : p.code.joinsGroup = true) :
    e.refusalFor p = d.refusalFor p := by
  have hmember (k : Key) : e.member k = d.member k := by rw [Device.member, Device.member, hd, he]; rfl
  have hentry (k : Key) : e.entry k = d.entry k := by rw [Device.entry, Device.entry, hdir]
  have hseen (k : Key) : e.seen k = d.seen k := by rw [Device.seen, Device.seen, hmember, hentry]
  have hfull (k : Key) : e.seventeenth k = d.seventeenth k := by rw [Device.seventeenth, Device.seventeenth, hd, he, hmember]
  have hslots : e.userSlots = d.userSlots := by
    rw [Device.userSlots, Device.userSlots, hd, he, hdir]
    simp only [hentry]
  unfold Device.refusalFor
  cases hc : p.code <;> rw [hc] at hj
  case write => simp only [Device.writeRefusal, hseen, hfull, hlevel, hslots]
  case delete => simp only [Device.deleteRefusal, hseen, hfull, hlevel]
  case add => simp only [Device.addRefusal, hseen, hfull, hlevel, hslots]
  all_goals cases hj

/-- What the abandoned erase of such an entry leaves of the device. -/
theorem State.MeetsWarning.abandonErase_noted {s : State} {p : Posted} {rest : List Posted} (h : s.MeetsWarning p rest) :
    let e := (s.headTaken p rest).warnNoted.abandonErase
    e.ex = some (s.headExecuting p) ∧ e.fc = { s.dev.fc with erase := none, decided := none, fairness := 0 } ∧ e.reclaim.steady ∧
      e.dir = s.dev.dir ∧ e.level = s.dev.level := by
  obtain ⟨banks, mark, r, ha, _, hs⟩ := (s.headTaken p rest).warnNoted.abandonErase_frame h.erase fun _ => h.undecided
  dsimp only
  rw [ha]
  exact ⟨rfl, rfl, hs h.rest.writer, rfl, rfl⟩

section Member
variable {s : State} {p : Posted} {rest : List Posted} (h : s.MeetsWarning p rest) {g : GroupContext} (hg : s.dev.group = some g)
  (hj : p.code.joinsGroup = true)
include h hg hj

theorem State.MeetsWarning.group_member : (s.headTaken p rest).warnNoted.abandonErase.group = some g := by
  have hc : p.code ≠ .commitGroup := fun hc => by rw [hc] at hj; cases hj
  obtain ⟨banks, mark, r, ha, _, _⟩ := (s.headTaken p rest).warnNoted.abandonErase_frame h.erase fun _ => h.undecided
  rw [ha]
  exact (Device.groupTaken_other _ hc).trans hg

/-- The entry that meets a member command marks its group, and does the rest beside it. -/
theorem State.MeetsWarning.warn_member :
    (s.headTaken p rest).warn =
      { (s.headTaken p rest).warnNoted.abandonErase with group := some { g with endsWithMember := true } } := by
  have hc : p.code ≠ .commitGroup := fun hc => by rw [hc] at hj; cases hj
  have hgroup : (s.headTaken p rest).warnNoted.group = some g := (Device.groupTaken_other _ hc).trans hg
  have hmember : (s.headTaken p rest).warnNoted.ex.any (fun x => x.member) = true :=
    (s.headExecuting_joins p hj).trans (by rw [hg]; rfl)
  have hends : (s.headTaken p rest).warnNoted.endOpenGroup =
      { (s.headTaken p rest).warnNoted with group := some { g with endsWithMember := true } } := by
    rw [Device.endOpenGroup_opened hgroup (h.turn.group_opened g hg), if_pos hmember]
  obtain ⟨banks, mark, r, ha, _, _⟩ :=
    (s.headTaken p rest).warnNoted.abandonErase_frame h.erase fun _ => h.undecided
  rw [Device.warn_eq, hends, Device.abandonErase_group (s.headTaken p rest).warnNoted _ h.erase]
  refine Device.warnCommand_checking (x := s.headExecuting p) ?_ rfl
  rw [ha]
  rfl

theorem State.MeetsWarning.underWarning_member :
    (s.headTaken p rest).underWarning (s.headExecuting p) = (s.headTaken p rest).warnNoted.abandonErase.endGroup := by
  have hm : (s.headExecuting p).member = true := (s.headExecuting_joins p hj).trans (by rw [hg]; rfl)
  have hgroup : (s.headTaken p rest).warnNoted.abandonErase.group = some g := h.group_member hg hj
  have hopened := h.turn.group_opened g hg
  unfold Device.underWarning
  dsimp only
  rw [if_pos hm]
  change (s.headTaken p rest).warnNoted.abandonErase.groupWarned = _
  simp only [Device.groupWarned, hgroup, hopened, if_true]

theorem State.MeetsWarning.meetsStep_member :
    (s.headTaken p rest).warn.MeetsStep ((s.headTaken p rest).underWarning (s.headExecuting p)) (s.headExecuting p) ∧
      (s.headTaken p rest).warn.refusalFor p = (s.headTaken p rest).refusalFor p := by
  have hc : p.code ≠ .commitGroup := fun hc => by rw [hc] at hj; cases hj
  have hm : (s.headExecuting p).member = true := (s.headExecuting_joins p hj).trans (by rw [hg]; rfl)
  have hgroup := h.group_member hg hj
  obtain ⟨hex, hfc, hsteady, hdir, hlevel⟩ := h.abandonErase_noted
  rw [h.warn_member hg hj, h.underWarning_member hg hj]
  refine ⟨⟨hex, rfl, ?waits, fun _ => hm, fun stage status => Device.endCommand_marked hgroup hm hc stage status, fun status => ?rest⟩,
    Device.refusalFor_marked hdir hlevel ((Device.groupTaken_other _ hc).trans hg) rfl hj⟩
  case waits =>
    rw [hfc]
    exact ⟨h.rest.command, rfl⟩
  case rest =>
    have hendFc : (s.headTaken p rest).warnNoted.abandonErase.endGroup.fc =
        { s.dev.fc with erase := none, decided := none, fairness := 0 } := by
      rw [Device.endGroup_eq hgroup]
      exact hfc
    have hendSteady : (s.headTaken p rest).warnNoted.abandonErase.endGroup.reclaim.steady := by
      rw [Device.endGroup_eq hgroup]
      exact hsteady
    refine Device.executingEnded_atRest ?_ ?_ ?_ ?_ hendSteady <;> rw [hendFc]
    exacts [h.rest.command, h.rest.reclaim, h.rest.mount]

end Member

/-- A command that is no member, where the entry has left no group. -/
theorem State.MeetsWarning.meetsStep_other {s : State} {p : Posted} {rest : List Posted} (h : s.MeetsWarning p rest)
    (hm : (s.headExecuting p).member = false) (hg : ((s.headTaken p rest).underWarning (s.headExecuting p)).group = none) :
    (s.headTaken p rest).warn.MeetsStep ((s.headTaken p rest).underWarning (s.headExecuting p)) (s.headExecuting p) ∧
      (s.headTaken p rest).warn = (s.headTaken p rest).underWarning (s.headExecuting p) := by
  obtain ⟨hex, _⟩ := h.warnBetween_step rfl rfl hm
  obtain ⟨banks, mark, r, hu, hs⟩ := h.underWarning_eq hm
  have hfc : ((s.headTaken p rest).underWarning (s.headExecuting p)).fc =
      { s.dev.fc with erase := none, decided := none, fairness := 0 } := by rw [hu]
  have hsteady : ((s.headTaken p rest).underWarning (s.headExecuting p)).reclaim.steady := by rw [hu]; exact hs
  have hwarn : (s.headTaken p rest).warn = (s.headTaken p rest).underWarning (s.headExecuting p) := by
    have hended : (s.headTaken p rest).warnNoted.endOpenGroup = (s.headTaken p rest).warnNoted.groupWarned :=
      Device.endOpenGroup_noMember hm
    have hunder : (s.headTaken p rest).underWarning (s.headExecuting p) = (s.headTaken p rest).warnNoted.groupWarned.abandonErase := by
      simp only [Device.underWarning, hm, Bool.false_eq_true, if_false]
      rfl
    rw [Device.warn_eq, hended, ← hunder]
    exact Device.warnCommand_checking hex rfl
  rw [hwarn]
  generalize (s.headTaken p rest).underWarning (s.headExecuting p) = u at *
  refine ⟨⟨hex, rfl, ?waits, fun _ => ?joins, fun stage status => ?ends, fun status => ?rest⟩, rfl⟩
  case waits => rw [hfc]; exact ⟨h.rest.command, rfl⟩
  case joins => rw [hm, hg]; rfl
  case ends =>
    rw [Device.endCommand_noGroup (d := { u with ex := some { s.headExecuting p with stage := stage } }) _ _ rfl hg]
    rfl
  case rest =>
    refine Device.executingEnded_atRest ?_ ?_ ?_ ?_ hsteady <;> rw [hfc]
    exacts [h.rest.command, h.rest.reclaim, h.rest.mount]

end Sys2Proof.Machine
end

section
/-! O16: the checks that end a command at its taking, in its step, and where an entry to WARNING comes between. -/
namespace Sys2Proof.Machine
open Sys2Proof

/-- The general check that refuses (R74, R75): under WARNING, in BLANK and in DEGRADED. -/
theorem Device.firstRefusal_generalChecks {c : Ctx} {d : Device} {code : CommandCode} {status : Status}
    (h : (c.warning = true ∧ status = .powerAbort) ∨
      (c.warning = false ∧ d.store = .blank ∧ code ≠ .format ∧ status = .notFormatted) ∨
      (c.warning = false ∧ d.store = .degraded ∧ status = .readOnly ∧ code.readOnlyRefused = true)) :
    firstRefusal (d.generalChecks c code) = some status := by
  rcases h with ⟨hw, rfl⟩ | ⟨hw, hs, hc, rfl⟩ | ⟨hw, hs, rfl, hc⟩ <;> simp [Device.generalChecks, firstRefusal, *]

/-- The commands that DEGRADED refuses (R75). -/
theorem CommandCode.readOnlyRefused_of {code : CommandCode}
    (h : code = .write ∨ code = .delete ∨ code = .add ∨ code = .openGroup ∨ code = .commitGroup ∨ code = .raiseLock) :
    code.readOnlyRefused = true := by
  rcases h with rfl | rfl | rfl | rfl | rfl | rfl <;> rfl

/-! ## The entry to WARNING between the taking and the step -/

section Between
variable {s : State} {p : Posted} {rest : List Posted} (h : s.MeetsWarning p rest)
include h

/-- In the entry a step is to come, on the device the entry leaves, and wherever the step ends the command it leaves `underWarning`. -/
theorem State.MeetsWarning.warnBetween_meets
    (hmeets : (s.headTaken p rest).warn.MeetsStep ((s.headTaken p rest).underWarning (s.headExecuting p)) (s.headExecuting p)) :
    s.dev.warnBetween s.cfg =
      (s.headTaken p rest).warn.startCommand { cfg := s.cfg, warning := true } (s.headExecuting p)
        { payload := if p.code = .write then s.dev.taken256 p.desc else [], timeout := s.cfg.groupTimeout } := by
  unfold Device.warnBetween
  rw [h.turn.takeHead, Device.makeStep_taken _ _ hmeets.ex rfl]

/-- The group of a command that is no member has ended at the entry, but for a COMMIT_GROUP's, which is COMMITTING. -/
theorem State.MeetsWarning.meetsStep_noMember (hm : (s.headExecuting p).member = false)
    (hg : p.code = .commitGroup → s.dev.group = none) :
    (s.headTaken p rest).warn.MeetsStep ((s.headTaken p rest).underWarning (s.headExecuting p)) (s.headExecuting p) ∧
      (s.headTaken p rest).warn = (s.headTaken p rest).underWarning (s.headExecuting p) := by
  refine h.meetsStep_other hm ?_
  obtain ⟨hother, hcommit⟩ := h.group_underWarning rfl rfl hm
  by_cases hc : p.code = .commitGroup
  · rw [hcommit hc, hg hc]
    rfl
  · exact hother hc

/-- What the step that comes after the entry meets, and that its checks see what `judging` gives: for a command that a check refuses, and for
one that is no COMMIT_GROUP. -/
theorem State.MeetsWarning.meetsStep
    (hc : p.code = .commitGroup → ((s.headTaken p rest).judging (s.headExecuting p)).refusalFor p ≠ none) :
    (s.headTaken p rest).warn.MeetsStep ((s.headTaken p rest).underWarning (s.headExecuting p)) (s.headExecuting p) ∧
      (s.headTaken p rest).warn.refusalFor p = ((s.headTaken p rest).judging (s.headExecuting p)).refusalFor p := by
  cases hm : (s.headExecuting p).member with
  | true =>
    have hjoins : p.code.joinsGroup = true := (Bool.and_eq_true_iff.mp hm).1
    obtain ⟨g, hg⟩ := Option.isSome_iff_exists.mp ((s.headExecuting_joins p hjoins).symm.trans hm)
    rw [Device.judging, if_pos hm]
    exact h.meetsStep_member hg hjoins
  | false =>
    have hjudging : (s.headTaken p rest).judging (s.headExecuting p) = (s.headTaken p rest).underWarning (s.headExecuting p) :=
      if_neg (by rw [hm]; decide)
    rw [hjudging] at hc ⊢
    obtain ⟨hmeets, hwarn⟩ := h.meetsStep_noMember hm fun hcommit => by
      have hr := hc hcommit
      simp only [Device.refusalFor, hcommit, (h.group_underWarning rfl rfl hm).2 hcommit] at hr
      cases hg : s.dev.group with
      | none => rfl
      | some g => simp [hg] at hr
    exact ⟨hmeets, congrArg (Device.refusalFor · p) hwarn⟩

theorem State.MeetsWarning.exec_refused (cut : CutShort) {status : Status}
    (hr : ((s.headTaken p rest).judging (s.headExecuting p)).refusalFor p = some status) :
    exec (.powerWarning (.pfw true) cut) s =
      .next (s.pfwLow cut (((s.headTaken p rest).underWarning (s.headExecuting p)).executingEnded (s.headExecuting p) status 0)) := by
  obtain ⟨hmeets, hsees⟩ := h.meetsStep fun _ => by rw [hr]; nofun
  refine exec_powerWarning_entered cut h.supply h.turn.normal ?_
  rw [if_pos rfl, h.warnBetween_meets hmeets]
  exact hmeets.refused _ (hsees.trans hr)

/-- The Directory that a READ's step meets is the one before its taking. -/
theorem State.MeetsWarning.entry_read (hc : p.code = .read) (k : Key) : (s.headTaken p rest).warn.entry k = s.dev.entry k := by
  obtain ⟨_, hm⟩ := State.headExecuting_noMember (s := s) rfl hc rfl
  obtain ⟨_, hwarn⟩ := h.meetsStep_noMember hm fun hcommit => by rw [hc] at hcommit; cases hcommit
  obtain ⟨hdir, _⟩ := h.hostSide_underWarning rfl rfl hm
  rw [hwarn, Device.entry, hdir, Device.entry]

theorem State.MeetsWarning.exec_aborts (cut : CutShort)
    (hr : ((s.headTaken p rest).judging (s.headExecuting p)).refusalFor p = none)
    (hc : p.code = .write ∨ p.code = .delete ∨ p.code = .add ∨
      (p.code = .read ∧ ∃ e, s.dev.entry p.desc.key = some e ∧ e.loc ≠ none)) :
    exec (.powerWarning (.pfw true) cut) s =
      .next (s.pfwLow cut (((s.headTaken p rest).underWarning (s.headExecuting p)).executingEnded (s.headExecuting p) .powerAbort 0)) := by
  obtain ⟨hmeets, hsees⟩ := h.meetsStep fun hcommit => by simp [hcommit] at hc
  refine exec_powerWarning_entered cut h.supply h.turn.normal ?_
  rw [if_pos rfl, h.warnBetween_meets hmeets]
  refine hmeets.aborts _ rfl (hsees.trans hr) (hc.imp_right (Or.imp_right (Or.imp_right ?_)))
  rintro ⟨hread, e, he, hloc⟩
  exact ⟨hread, e, (h.entry_read hread _).trans he, hloc⟩

end Between

/-- Settles O16: the general checks end a command at its taking, its own checks in its step, and at an entry to WARNING between the two the
step comes on the device that the entry leaves. -/
theorem checksEndCommand : Obligations.ChecksEndCommand := by
  refine ⟨exec_takeCommand_nothing, fun s p rest st hr hg hx hq hm h => ?general, fun s p rest st h hrest hr => ?own,
    exec_powerWarning_noHead, fun s p rest st cut hr hg hx hq hw h => ?warnedGeneral, ?warnedOwn⟩
  case general =>
    refine exec_takeCommand_refused hr hx (Device.takeHead_refused hx hq hm hg (Device.firstRefusal_generalChecks ?_))
    exact h.imp_right (Or.imp_right fun ⟨hw, hs, hst, hc⟩ => ⟨hw, hs, hst, CommandCode.readOnlyRefused_of hc⟩)
  case own => exact h.exec_endsWith hrest (State.headTaken_refused rest h.idle h.groups hr _) h.idle rfl rfl
  case warnedGeneral =>
    have hm : s.dev.store ≠ .mounting := by rcases h with ⟨hs, _⟩ | ⟨hs, _⟩ <;> rw [hs] <;> decide
    refine exec_powerWarning_headRefused cut hx hw (Device.takeHead_refused hx hq hm hg (Device.firstRefusal_generalChecks (.inr ?_)))
    exact h.imp (fun ⟨hs, hc, hst⟩ => ⟨rfl, hs, hc, hst⟩) fun ⟨hs, hc, hst⟩ => ⟨rfl, hs, hst, hc⟩
  case warnedOwn =>
    rintro s p rest cut h x hmeets rfl rfl
    exact ⟨fun st => hmeets.exec_refused cut, hmeets.exec_aborts cut⟩

end Sys2Proof.Machine
end

section
/-! The first request of a command whose checks pass (R88, R89, R92, R95, R99, R104, R111, R115, R172): granted in the step of its
taking. -/
namespace Sys2Proof.Machine
open Sys2Proof

theorem Device.startAdd_reads {d : Device} {x : Executing} {v : KeyView} {loc : Location} (c : Ctx) (hm : x.member = d.group.isSome)
    (hr : d.addRefusal x.desc = none) (hv : d.seen x.desc.key = some v) (hl : v.loc = some loc) :
    d.startAdd c x = (d.setStage (.reading loc)).request .command (.read loc.bank loc.line (spanOf v.length)) := by
  unfold Device.startAdd
  rw [Device.firstRefusal_addChecks hm, hr, Device.keyView_eq_seen _ hm, hv]
  simp only [hl, Option.bind_some, Option.map_some, recordRead]

/-- An ADD of an existing counter asks for the lines of its record, in an open group of the member's (R95, R111). -/
theorem State.headTaken_addReads {s : State} {p : Posted} (rest : List Posted) {v : KeyView} {loc : Location} (c : Ctx)
    (hc : p.code = .add) (hr : s.dev.refusalFor p = none) (hv : s.dev.seen p.desc.key = some v) (hl : v.loc = some loc) :
    (s.headTaken p rest).makeStep c =
      ((s.headTaken p rest).setStage (.reading loc)).request .command (.read loc.bank loc.line (spanOf v.length)) := by
  obtain ⟨code, q⟩ := p
  subst hc
  have hm : (s.headExecuting ⟨.add, q⟩).member = s.dev.group.isSome := Bool.true_and _
  rw [Device.makeStep_taken c _ (x := s.headExecuting ⟨.add, q⟩) rfl rfl, State.headTaken_other rest (by simp)]
  exact Device.startAdd_reads c hm hr hv hl

/-- TAKE_COMMAND with the Flash Controller free: the request of the head command's first step is granted in the same step. -/
theorem State.Ready.exec_requests {s : State} {p : Posted} {rest : List Posted} {e : Device} {x : Executing} {q : Request}
    (h : s.Ready p rest) (he : (s.headTaken p rest).makeStep { cfg := s.cfg, warning := false } = e) (hx : e.ex = some x)
    (hs : x.stage.steady = true) (hf : x.format = none) (hr : e.reclaim = s.dev.reclaim)
    (hfc : e.fc = { s.dev.fc with waitCommand := some q }) :
    exec .takeCommand s = .next { s with dev := { e with fc := s.dev.fc.granted .command q } } := by
  have honly (y : Executing) (hy : e.ex = some y) : y = x := Option.some.inj (hy.symm.trans hx)
  have hsteady : e.Steady := ⟨fun y hy => honly y hy ▸ hs, hr ▸ h.writer⟩
  have hsettle : e.settle { cfg := s.cfg, warning := false } = { e with fc := s.dev.fc.granted .command q } :=
    Device.settle_granted_command rfl (Device.noWake_of_steady _ hsteady) (fun y hy => honly y hy ▸ hf) h.free hfc
  rw [h.toTurn.exec_takeCommand, he, hsettle]

/-- Settles O17: a read at the location of the entry, or the placement in the ACTIVE bank, granted at the free controller. -/
theorem commandRequestsRecord : Obligations.CommandRequestsRecord := by
  refine ⟨fun s p rest loc length h hr hcase => ?reads, fun s p rest record b line h hr hrec hf hq hline => ?places⟩
  case reads =>
    have hc : p.code ≠ .commitGroup := by rcases hcase with ⟨hc, _⟩ | ⟨hc, _⟩ <;> simp [hc]
    have hstep : (s.headTaken p rest).makeStep { cfg := s.cfg, warning := false } =
        ((s.headTaken p rest).setStage (.reading loc)).request .command (.read loc.bank loc.line (spanOf length)) := by
      rcases hcase with ⟨hread, e, he, hl, rfl⟩ | ⟨hadd, v, hv, hl, rfl⟩
      · exact State.headTaken_reads rest _ hread hr he hl
      · exact State.headTaken_addReads rest _ hadd hr hv hl
    rw [h.exec_requests (x := s.dev.executing p (.reading loc)) hstep rfl rfl rfl rfl rfl, State.headTaken_other rest hc]
    rfl
  case places =>
    subst hline
    have hstep := (State.headTaken_places rest { cfg := s.cfg, warning := false } hr hrec).trans
      (Device.commandPlace_fits (d := s.headTaken p rest) rfl hq hf)
    exact h.exec_requests hstep rfl rfl rfl rfl rfl

end Sys2Proof.Machine
end

section
/-! The end of a member command (R120, R121, R122) and the commit of its record (R95, R111, R112, R114, R123). -/
namespace Sys2Proof.Machine
open Sys2Proof

/-! ## A group whose end waited for its member command (R120, R121, R122) -/

theorem Device.memberEnded_stays {d : Device} {g : GroupContext} (hg : d.group = some g) (he : g.endsWithMember = false)
    (hd : g.deadline ≠ some 0) : d.memberEnded = d := by
  simp [Device.memberEnded, hg, he, hd]

/-- Such a group ends without commit; it expires where the deadline alone has ended it (log entry 15). -/
theorem Device.memberEnded_ends {d : Device} {g : GroupContext} (hg : d.group = some g)
    (h : g.endsWithMember = true ∨ g.deadline = some 0) :
    d.memberEnded =
      { d.endGroup with
        flags := { d.flags with
          groupExpired := d.flags.groupExpired || (!g.endsWithMember && Decidable.decide (g.deadline = some 0)) } } := by
  have hflags : d.endGroup.flags = d.flags := by rw [Device.endGroup_eq hg]
  simp only [Device.memberEnded, hg]
  cases he : g.endsWithMember with
  | true =>
    simp only [if_true, Bool.not_true, Bool.false_and, Bool.or_false]
    rw [← hflags]
  | false =>
    have hd : g.deadline = some 0 := h.resolve_left (by simp [he])
    simp [hd, Device.expireGroup, hflags]

/-- The end of the group sees neither the engine nor the buffers nor the controller. -/
theorem Device.memberEnded_beside (d : Device) (ex : Option Executing) (buffers : Vector Buffer 4) (fc : FlashController) :
    ({ d with ex := ex, buffers := buffers, fc := fc } : Device).memberEnded =
      { d.memberEnded with ex := ex, buffers := buffers, fc := fc } := by
  generalize he : ({ d with ex := ex, buffers := buffers, fc := fc } : Device) = e
  have hbanks : e.banks = d.banks := by rw [← he]
  cases hg : d.group with
  | none =>
    rw [Device.memberEnded_noGroup hg, Device.memberEnded_noGroup (by rw [← he]; exact hg), he]
  | some g =>
    have hge : e.group = some g := by rw [← he]; exact hg
    by_cases h : g.endsWithMember = true ∨ g.deadline = some 0
    · rw [Device.memberEnded_ends hg h, Device.memberEnded_ends hge h, Device.endGroup_eq hg, Device.endGroup_eq hge,
        Device.orphans_banks g.members hbanks, ← he]
    · obtain ⟨hends, hdeadline⟩ := not_or.mp h
      have hends : g.endsWithMember = false := Bool.eq_false_iff.mpr hends
      rw [Device.memberEnded_stays hg hends hdeadline, Device.memberEnded_stays hge hends hdeadline, he]

theorem Device.memberEnded_ex (d : Device) : d.memberEnded.ex = d.ex := by
  obtain ⟨group, banks, moved, flags, h, _⟩ := d.memberEnded_frame
  rw [h]

theorem Device.memberEnded_buffers (d : Device) : d.memberEnded.buffers = d.buffers := by
  obtain ⟨group, banks, moved, flags, h, _⟩ := d.memberEnded_frame
  rw [h]

theorem Device.memberEnded_setBuffer (d : Device) (i : Fin 4) (b : Buffer) :
    (d.setBuffer i b).memberEnded = d.memberEnded.setBuffer i b := by
  have h := d.memberEnded_beside d.ex (d.buffers.set i.val b i.isLt) d.fc
  obtain ⟨group, banks, moved, flags, hframe, _⟩ := d.memberEnded_frame
  rw [hframe] at h ⊢
  exact h

/-- The engine's output and the end of the group commute. -/
theorem Device.memberEnded_output (d : Device) (bytes : List Byte) : (d.output bytes).memberEnded = d.memberEnded.output bytes := by
  have hbuffer (i : Fin 4) : d.memberEnded.buffer i = d.buffer i := by rw [Device.buffer, Device.memberEnded_buffers]; rfl
  simp only [Device.output, Device.memberEnded_ex, hbuffer]
  cases d.ex with
  | none => rfl
  | some x =>
    dsimp only
    split
    · rfl
    · cases bufferIndex x.desc.buffer with
      | none => rfl
      | some i => exact d.memberEnded_setBuffer i _

theorem Device.memberEnded_opDone (d : Device) : d.opDone.memberEnded = d.memberEnded.opDone := by
  have h := d.memberEnded_beside d.ex d.buffers { d.fc with op := none }
  obtain ⟨group, banks, moved, flags, hframe, _⟩ := d.memberEnded_frame
  rw [hframe] at h ⊢
  exact h

/-- A member command ends after a group that waited for it. -/
theorem Device.endCommand_member {d : Device} {x : Executing} (status : Status) (result : Nat) (hx : d.ex = some x)
    (hm : x.member = true) (hc : x.code ≠ .commitGroup) :
    d.endCommand status result = d.memberEnded.executingEnded x status result := by
  have hcommit : Device.commitEnded { d with ex := none } x = { d with ex := none } := by
    unfold Device.commitEnded
    split
    · exact if_neg fun h => hc h.1
    · rfl
  have hidle : Device.memberEnded { d with ex := none } = { d.memberEnded with ex := none } := by
    have h := d.memberEnded_beside none d.buffers d.fc
    obtain ⟨group, banks, moved, flags, hframe, _⟩ := d.memberEnded_frame
    rw [hframe] at h ⊢
    exact h
  rw [Device.endCommand_groupEnded status result hx, Device.groupEnded, if_pos hm, hcommit, hidle]
  rfl

/-! ## A member record's commit (R112, R123) -/

theorem Device.commitMember_opDone (d : Device) (c : Committed) (loc : Location) :
    d.opDone.commitMember c loc = (d.commitMember c loc).opDone := by
  unfold Device.commitMember
  rw [show d.opDone.member c.key = d.member c.key from rfl]
  cases d.member c.key with
  | none => rfl
  | some old => cases hs : old.state <;> cases hl : old.loc <;> simp only [hs, hl] <;> rfl

theorem Device.orphanMember_frame (d : Device) (m : MemberEntry) : d.orphanMember m = { d with banks := (d.orphanMember m).banks } := by
  unfold Device.orphanMember
  split <;> rfl

/-- The member entry that a committed record leaves, with a stale increment. -/
def Committed.member (c : Committed) (loc : Location) (stale : Nat) : MemberEntry :=
  { key := c.key, cls := c.cls, state := c.state, length := c.length, seq := c.seq, loc := some loc, staleIncrement := stale }

/-- The stale increment of a key whose member record is superseded, and may have been moved (R112, R123). -/
def MemberEntry.staleAfter (old : MemberEntry) (moved : List (Key × Nat)) : Nat :=
  old.staleIncrement + if old.state = .damaged then 0 else if (old.key, old.seq) ∈ moved then 2 else 1

/-- A key without a member entry takes one at the tail. -/
theorem Device.commitMember_new {d : Device} {g : GroupContext} {c : Committed} (loc : Location) (hg : d.group = some g)
    (hn : d.member c.key = none) :
    d.commitMember c loc =
      { d with group := some { g with members := g.members ++ [c.member loc 0], records := g.records ++ [loc] } } := by
  simp only [Device.commitMember, hn, Device.mapGroup, hg, Option.map_some, Committed.member]

/-- Any other member entry is replaced in its place, and the record it named superseded: its lines are lost as at its group's end. -/
theorem Device.commitMember_again {d : Device} {g : GroupContext} {c : Committed} {old : MemberEntry} (loc : Location)
    (hg : d.group = some g) (ho : d.member c.key = some old) :
    d.commitMember c loc =
      Device.orphanMember
        { d with
          group := some { g with
            members := mapMember c.key (fun _ => c.member loc (old.staleAfter d.reclaim.moved)) g.members
            records := g.records ++ [loc] } } old := by
  simp only [Device.commitMember, ho, Device.mapGroup, hg, Option.map_some, List.contains_iff_mem]
  rfl

/-- A member record's commit reaches the counts of banks, the member list and the records the group needs. -/
theorem Device.commitMember_frame {d : Device} {g : GroupContext} (c : Committed) (loc : Location) (hg : d.group = some g) :
    ∃ members banks, d.commitMember c loc =
      { d with banks := banks, group := some { g with members := members, records := g.records ++ [loc] } } := by
  cases h : d.member c.key with
  | none => exact ⟨_, d.banks, Device.commitMember_new loc hg h⟩
  | some old => exact ⟨_, _, (Device.commitMember_again loc hg h).trans (Device.orphanMember_frame _ old)⟩

/-- A member command's record commits: into the member list, then the end of a group that waited, then the command's. -/
theorem Device.commandCommit_member {d : Device} {x : Executing} {g : GroupContext} (w : Writer) (r : Reservation)
    (hx : d.ex = some x) (hg : d.group = some g) (hm : x.member = true) (hc : x.code = .write ∨ x.code = .delete ∨ x.code = .add) :
    d.commandCommit x w r =
      (if x.code = .add then
        (d.commitMember (committedRecord w r) { bank := r.bank, line := r.line }).memberEnded.output w.record.payload
      else (d.commitMember (committedRecord w r) { bank := r.bank, line := r.line }).memberEnded).executingEnded x .ok
        (if x.code = .add then 8 else 0) := by
  generalize hu : d.commitMember (committedRecord w r) { bank := r.bank, line := r.line } = u
  have huser : d.commitUserRecord x w r = u := by rw [Device.commitUserRecord, if_pos hm, hu]
  obtain ⟨members, banks, hframe⟩ := d.commitMember_frame (committedRecord w r) { bank := r.bank, line := r.line } hg
  have hux : u.ex = some x := by rw [← hu, hframe, hx]
  have hends (v : Device) (n : Nat) (hv : v.ex = some x) : v.endCommand .ok n = v.memberEnded.executingEnded x .ok n :=
    Device.endCommand_member _ _ hv hm (by rcases hc with hc | hc | hc <;> simp [hc])
  unfold Device.commandCommit
  rw [huser]
  rcases hc with hc | hc | hc
  case inr.inr =>
    obtain ⟨buffers, hout⟩ := u.output_frame w.record.payload
    have hox : (u.output w.record.payload).ex = some x := by rw [hout]; exact hux
    simp only [hc, if_true]
    rw [hends _ 8 hox, Device.memberEnded_output]
  all_goals
    simp only [hc, reduceCtorEq, if_false]
    exact hends u 0 hux

theorem Device.outputIf_frame (d : Device) (p : Prop) [Decidable p] (bytes : List Byte) :
    ∃ buffers, (if p then d.output bytes else d) = { d with buffers := buffers } := by
  split
  · exact d.output_frame bytes
  · exact ⟨_, rfl⟩

/-- The line in progress verifies as the last of a member command's record. -/
theorem State.Programming.exec_commitsMember {s : State} {x : Executing} {w : Writer} {r : Reservation} {g : GroupContext}
    (h : s.Programming x w r) (hm : x.member = true) (hc : x.code = .write ∨ x.code = .delete ∨ x.code = .add)
    (hl : r.at_ + 1 = w.record.span) (hg : s.dev.group = some g) {u : Device}
    (hu : (s.dev.commitMember (committedRecord w r) { bank := r.bank, line := r.line }).memberEnded = u) :
    exec (.lineProgramOutcome .asIntended) s =
      .next { s with
        flash := s.flash.setLine r.bank (r.line + r.at_) (.commitLine r.seq (.over w.record.payload) 0)
        dev := (if x.code = .add then u.opDone.output w.record.payload else u.opDone).executingEnded x .ok
          (if x.code = .add then 8 else 0) } := by
  obtain ⟨members, banks, hcommit⟩ := s.dev.commitMember_frame (committedRecord w r) { bank := r.bank, line := r.line } hg
  obtain ⟨group, ubanks, moved, flags, hended, _⟩ :=
    (s.dev.commitMember (committedRecord w r) { bank := r.bank, line := r.line }).memberEnded_frame
  obtain ⟨buffers, hout⟩ := u.opDone.outputIf_frame (x.code = .add) w.record.payload
  have hstep : s.dev.opDone.commandLine s.ctx x w r .ok =
      (if x.code = .add then u.opDone.output w.record.payload else u.opDone).executingEnded x .ok (if x.code = .add then 8 else 0) := by
    rw [Device.commandLine_last h.inProgress.formatProgress hl, Device.commandCommit_member (d := s.dev.opDone) w r h.command hg hm hc,
      Device.commitMember_opDone, Device.memberEnded_opDone, hu]
  have hfc : u.fc = s.dev.fc := by rw [← hu, hended, hcommit]
  have hsteady : u.reclaim.steady := by
    rw [← hu, hended, hcommit]
    exact h.writer
  rw [h.inProgress.exec_asIntended, hstep, Device.settle_atRest, RecordSpec.line_commit hl]
  rw [hout]
  refine Device.executingEnded_atRest ?_ ?_ ?_ ?_ hsteady
  all_goals rw [Device.opDone_fc, hfc]
  exacts [h.alone.command, h.alone.reclaim, h.alone.mount, h.alone.erase]

/-- Settles O31: the record joins the members, a group that waited ends, and the command ends alone at the Flash Controller. -/
theorem memberCommitLeavesDirectory : Obligations.MemberCommitLeavesDirectory := by
  intro s x w r g m h hm hc hl hg _ hrecord
  obtain ⟨members, banks, he⟩ := s.dev.commitMember_frame (committedRecord w r) { bank := r.bank, line := r.line } hg
  have hexec := h.exec_commitsMember hm hc hl hg rfl
  have hnew := s.dev.commitMember_new (c := committedRecord w r) { bank := r.bank, line := r.line } hg
  have hagain (old) := s.dev.commitMember_again (c := committedRecord w r) (old := old) { bank := r.bank, line := r.line } hg
  generalize s.dev.commitMember (committedRecord w r) { bank := r.bank, line := r.line } = e at *
  have hge : e.group = some { g with members := members, records := g.records ++ [{ bank := r.bank, line := r.line }] } := by rw [he]
  obtain ⟨buffers, hout⟩ := e.memberEnded.opDone.outputIf_frame (x.code = .add) w.record.payload
  obtain ⟨fifo, bufs, hd⟩ := ({ e.memberEnded.opDone with buffers := buffers } : Device).executingEnded_frame x .ok
    (if x.code = .add then 8 else 0)
  obtain ⟨group, ubanks, moved, flags, hended, _⟩ := e.memberEnded_frame
  refine ⟨_, e, members, hexec, ?frame, fun hn => ?new, fun old ho => ?again, ?dir, ?commits, Device.executingEnded_ex ..,
    fun hends hdl => ?stays, fun hends => ?ends, ?fifo, fun hadd ha hlen i hi j k => ?bytes⟩
  case frame => rw [he]
  case new =>
    rw [hnew hn] at hge ⊢
    cases hge
    exact ⟨by rw [hrecord]; rfl, rfl⟩
  case again =>
    rw [hagain old ho] at hge ⊢
    rw [Device.orphanMember_frame] at hge
    cases hge
    refine ⟨by rw [hrecord]; rfl, fun b => ?_⟩
    rw [Device.bank_orphanMember, MemberEntry.deadIn]
    simp only [Bool.and_eq_true, decide_eq_true_eq]
    rfl
  case dir => rw [hout, hd, hended, he]; rfl
  case commits => rw [hout, hd, hended, he]; rfl
  case stays =>
    rw [hout, hd, Device.memberEnded_stays hge hends hdl]
    exact ⟨rfl, rfl, by rw [he]; rfl, by rw [he]; rfl⟩
  case ends =>
    rw [hout, hd, Device.memberEnded_ends hge hends, Device.endGroup_eq hge]
    exact ⟨rfl, rfl, by rw [he]; rfl, by rw [he]; rfl⟩
  case fifo =>
    rw [Device.executingEnded_fifo, hout, hended, he]
    rfl
  case bytes =>
    have hn : x.code.namesBuffer = true := by rw [hadd]; rfl
    have hex : e.memberEnded.opDone.ex = some x := by rw [Device.opDone_ex, Device.memberEnded_ex, he]; exact h.command
    have hbuffer := (Device.outputEnded_buffer (bytes := w.record.payload) hex ha hn (bufferIndex_eq hi) .ok 8 j).2.2 k
    have hsame : e.memberEnded.opDone.buffer j = s.dev.buffer j := by
      rw [hended, he]
      rfl
    rw [hsame, hlen] at hbuffer
    simpa only [hadd, if_true] using hbuffer

end Sys2Proof.Machine
end

section
/-! ADD's read comes back (R95, R104, R111, R113): the counter found damaged, its sum out of range, or its sum placed. -/
namespace Sys2Proof.Machine
open Sys2Proof

/-! ## What the read gives -/

theorem Device.readLines_adding {c : Ctx} {d : Device} {x : Executing} {loc : Location} (lines : List Line) (hx : d.ex = some x)
    (hs : x.stage = .reading loc) (hc : x.code = .add) :
    d.readLines c .command lines = d.addDone c x loc (recordPayload loc.line lines) := by
  simp [Device.readLines, Device.commandRead, hx, hs, hc]

theorem Device.addDone_damaged (c : Ctx) (d : Device) (x : Executing) (loc : Location) :
    d.addDone c x loc none = (d.damageCounter x loc).endCommand .classDenied 0 := rfl

/-- Under the warning an intact counter ends the command (R182; log entry 16). -/
theorem Device.addDone_warned {c : Ctx} {d : Device} {x : Executing} (loc : Location) (p : List Byte) (hw : c.warning = true)
    (hf : d.formatProgress = none) : d.addDone c x loc (some p) = d.endCommand .powerAbort 0 := by
  rw [← Device.commandPowerEnd_noFormat hf]
  exact if_pos hw

theorem Device.addDone_tooLarge {c : Ctx} {d : Device} {x : Executing} (loc : Location) {p : List Byte} (hw : c.warning = false)
    (h : 2 ^ 64 ≤ natOf p + x.desc.argument.toNat) : d.addDone c x loc (some p) = d.endCommand .counterLimit 0 :=
  (if_neg (by simp [hw])).trans (if_pos (by omega))

theorem Device.addDone_places {c : Ctx} {d : Device} {x : Executing} (loc : Location) {p : List Byte} (hw : c.warning = false)
    (h : natOf p + x.desc.argument.toNat < 2 ^ 64) :
    d.addDone c x loc (some p) =
      d.commandPlace c (Writer.fresh (counterRecord x.desc.key (natOf p + x.desc.argument.toNat) (d.memberGid x))) :=
  (if_neg (by simp [hw])).trans (if_neg (by omega))

theorem length_bytesOf (n v : Nat) : (bytesOf n v).length = n := by
  induction n with
  | zero => rfl
  | succ n ih => rw [bytesOf, List.length_cons, ih]

/-- A counter's record is a header line, one payload line and a commit line (R22, R95). -/
theorem counterRecord_span (key : Key) (value : Nat) (gid : Option Nat) : (counterRecord key value gid).span = 3 := by
  rw [RecordSpec.span, counterRecord, length_bytesOf]
  rfl

/-- Placement in the ACTIVE bank, as it leaves the engine and the controller (R98, R104 case 1). -/
theorem Device.commandPlace_reserves {c : Ctx} {d : Device} {x : Executing} {b : BankId} {record : RecordSpec} (hx : d.ex = some x)
    (hw : c.warning = false) (hq : d.nextSeq ≤ 0xFFFFFF00) (hf : d.fitsIn b record.span) :
    d.commandPlace c (Writer.fresh record) =
      { d.reserveLines b record.span with
        nextSeq := d.nextSeq + 1
        ex := some { x with
          stage := .writing (writerAt record (.programming { bank := b, line := d.appendAt b, seq := d.nextSeq, at_ := 0 })) }
        fc := { d.fc with waitCommand := some (.program b (d.appendAt b) (record.line d.nextSeq 0)) } } := by
  rw [Device.commandPlace_fits hw hq hf, Device.setStage, Device.request, Device.reserveLines_ex, hx]
  rfl

/-! ## The counter found damaged (R52, R113) -/

theorem Device.damageCounter_entry {d : Device} {x : Executing} (loc : Location) (h : x.member = false ∨ d.member x.desc.key = none) :
    d.damageCounter x loc = d.damageEntry x.desc.key := by
  refine if_neg ?_
  rcases h with h | h <;> simp [h]

/-- A member entry found damaged with no victim held: its span is dead, and the group no longer needs its record. -/
theorem Device.damageCounter_member {d : Device} {x : Executing} {g : GroupContext} {m : MemberEntry} {loc : Location}
    (hm : x.member = true) (hg : d.group = some g) (hentry : d.member x.desc.key = some m) (hl : m.loc = some loc)
    (hs : m.state ≠ .damaged) (hv : d.reclaim.victim = none) :
    d.damageCounter x loc =
      Device.addDead { d with
        group := some { g with
          members := mapMember x.desc.key (fun y => { y with state := .damaged }) g.members
          records := g.records.filter fun l => Decidable.decide (l ≠ loc) } } loc.bank (spanOf m.length) := by
  have hwalk : d.markWalkDamaged loc = d := by
    have hreclaim : ({ d.reclaim with victim := none } : Reclaim) = d.reclaim := by rw [← hv]
    rw [Device.markWalkDamaged, Device.mapVictim, hv, Option.map_none, hreclaim]
  rw [Device.damageCounter, if_pos (by simp [hm, hentry]), Device.damageMember]
  simp only [hentry, hs, if_false, hl, hwalk, Device.mapGroup, hg, Option.map_some]

/-! ## The step -/

/-- A command whose group does not wait for its end leaves the group alone. -/
theorem Device.endCommand_unbound {d : Device} {x : Executing} (status : Status) (result : Nat) (hx : d.ex = some x)
    (hc : x.code ≠ .commitGroup)
    (hg : ∀ g, d.group = some g → x.member = true → g.endsWithMember = false ∧ g.deadline ≠ some 0) :
    d.endCommand status result = d.executingEnded x status result := by
  cases hm : x.member with
  | false => exact Device.endCommand_eq status result hx hc hm
  | true =>
    rw [Device.endCommand_member status result hx hm hc]
    cases h : d.group with
    | none => rw [Device.memberEnded_noGroup h]
    | some g =>
      obtain ⟨hends, hdeadline⟩ := hg g h hm
      rw [Device.memberEnded_stays h hends hdeadline]

/-- ADD's read is in progress alone at the Flash Controller, and gives this payload. -/
structure State.AddReads (s : State) (x : Executing) (loc : Location) (payload : Option (List Byte)) : Prop where
  command : s.dev.ex = some x
  code : x.code = .add
  noFormat : x.format = none
  stage : x.stage = .reading loc
  writer : s.dev.reclaim.steady
  read : ∃ b first count,
    s.dev.fc.Alone .command (.read b first count) ∧ recordPayload loc.line (s.flash.lines b first count) = payload

section AddReads
variable {s : State} {x : Executing} {loc : Location} {payload : Option (List Byte)} (h : s.AddReads x loc payload)
include h

theorem State.AddReads.free : s.dev.opDone.fc.Free := by
  obtain ⟨b, first, count, halone, _⟩ := h.read
  exact halone.free

/-- The read's outcome, up to the end of its step. -/
theorem State.AddReads.exec_settles {d e : Device} (he : s.dev.opDone.addDone s.ctx x loc payload = e) (hd : e.settle s.ctx = d) :
    exec .multiLineReadOutcome s = .next { s with dev := d } := by
  obtain ⟨b, first, count, halone, hp⟩ := h.read
  refine exec_read_ends halone.op ?_ hd
  rw [Device.readLines_adding (d := s.dev.opDone) _ h.command h.stage h.code, hp, he]

/-- The command ends at once, on a device whose group does not wait for it. -/
theorem State.AddReads.exec_ends {u : Device} {status : Status}
    (hu : s.dev.opDone.addDone s.ctx x loc payload = u.endCommand status 0) (hx : u.ex = some x) (hfc : u.fc = s.dev.opDone.fc)
    (hr : u.reclaim = s.dev.reclaim)
    (hg : ∀ g, u.group = some g → x.member = true → g.endsWithMember = false ∧ g.deadline ≠ some 0) :
    exec .multiLineReadOutcome s = .next { s with dev := u.executingEnded x status 0 } := by
  rw [Device.endCommand_unbound status 0 hx (by rw [h.code]; decide) hg] at hu
  refine h.exec_settles hu (Device.settle_atRest _ _ (Device.executingEnded_atRest ?_ ?_ ?_ ?_ (hr ▸ h.writer))) <;> rw [hfc]
  exacts [h.free.command, h.free.reclaim, h.free.mount, h.free.erase]

/-- The sum's placement makes a request, which is granted in the same step. -/
theorem State.AddReads.exec_requests {e : Device} {stage : Stage} {q : Request} (hw : s.power.warning = false)
    (he : s.dev.opDone.addDone s.ctx x loc payload = e) (hx : e.ex = some { x with stage := stage }) (hs : stage.steady = true)
    (hr : e.reclaim = s.dev.reclaim) (hfc : e.fc = { s.dev.opDone.fc with waitCommand := some q }) :
    exec .multiLineReadOutcome s = .next { s with dev := { e with fc := s.dev.fc.regranted .command q } } := by
  have honly (y : Executing) (hy : e.ex = some y) : y = { x with stage := stage } := Option.some.inj (hy.symm.trans hx)
  have hsteady : e.Steady := ⟨fun y hy => honly y hy ▸ hs, hr ▸ h.writer⟩
  exact h.exec_settles he (Device.settle_granted_command hw (Device.noWake_of_steady _ hsteady)
    (fun y hy => honly y hy ▸ h.noFormat) h.free hfc)

/-- The sum's placement waits, and the end of the step does not end the wait. -/
theorem State.AddReads.exec_waits {e : Device} {stage : Stage} (he : e = { s.dev.opDone with ex := some { x with stage := stage } })
    (hplace : s.dev.opDone.addDone s.ctx x loc payload = s.dev.opDone.setStage stage) (hwake : e.wakeCommand s.ctx = e) :
    exec .multiLineReadOutcome s = .next { s with dev := e } := by
  have hstage : s.dev.opDone.setStage stage = e := by
    rw [he, Device.setStage, Device.opDone_ex, h.command]
    rfl
  have hreclaim : e.reclaim = s.dev.reclaim := by rw [he]; rfl
  have hfc : e.fc = s.dev.opDone.fc := by rw [he]
  have hwriter := Device.wakeReclaim_of_noWait s.ctx e (hreclaim ▸ h.writer)
  refine h.exec_settles (hplace.trans hstage) (Device.settle_unchanged ⟨hwriter, hwake⟩ ?_ ?_ ?_ fun y hy => ?erase)
  case erase => cases h.free.erase.symm.trans (hfc ▸ hy)
  all_goals rw [hfc]
  exacts [h.free.command, h.free.reclaim, h.free.mount]

end AddReads

/-- Settles O36: each outcome of the read is one act of the engine, alone at the Flash Controller. -/
theorem addOutcomePlacesSum : Obligations.AddOutcomePlacesSum := by
  intro s x loc b first count payload d hx hc hf hs halone hsteady hp hunbound hd
  obtain rfl : d = s.dev.opDone := hd
  have h : s.AddReads x loc payload := ⟨hx, hc, hf, hs, hsteady, b, first, count, halone, hp.symm⟩
  refine ⟨?damaged, fun p hpay hw => ?warned, fun p hpay hw hsum => ?tooLarge, fun p record hpay hw hsum hq hrecord => ?placed⟩
  case damaged =>
    rintro rfl
    refine ⟨fun e hnomember he hl hstate => ?entry, fun g m hm hg hentry hl hstate hv => ?member⟩
    case entry =>
      have hdone := s.dev.opDone.addDone_damaged s.ctx x loc
      rw [Device.damageCounter_entry (d := s.dev.opDone) loc hnomember] at hdone
      obtain ⟨hentries, hbanks⟩ := Device.damageEntry_at (d := s.dev.opDone) he
      obtain ⟨dir, banks, hu⟩ := s.dev.opDone.damageEntry_frame x.desc.key
      generalize s.dev.opDone.damageEntry x.desc.key = u at *
      refine ⟨u, h.exec_ends hdone ?_ ?_ ?_ ?_, ?_, (hentries _).trans (if_pos rfl), fun k hk => (hentries k).trans (if_neg hk),
        fun c => (hbanks c).trans ?dead⟩
      case dead =>
        simp only [DirEntry.deadIn, hl, Option.any_some, decide_eq_true_eq, spanOf, ne_eq, hstate, not_false_eq_true, true_and]
        rfl
      all_goals rw [hu]
      exacts [hx, rfl, hunbound]
    case member =>
      have hdone := s.dev.opDone.addDone_damaged s.ctx x loc
      rw [Device.damageCounter_member (d := s.dev.opDone) hm hg hentry hl hstate hv] at hdone
      refine ⟨_, h.exec_ends hdone hx rfl rfl fun g' hg' => ?_, rfl, fun c => Device.bank_addDead_rises _ _ c _⟩
      cases hg'
      exact hunbound g hg
  case warned =>
    subst hpay
    exact h.exec_ends (Device.addDone_warned loc p hw (Device.formatProgress_of (d := s.dev.opDone) hx hf)) hx rfl rfl hunbound
  case tooLarge =>
    subst hpay
    exact h.exec_ends (Device.addDone_tooLarge loc hw hsum) hx rfl rfl hunbound
  case placed =>
    subst hpay
    have hdone : s.dev.opDone.addDone s.ctx x loc (some p) = s.dev.opDone.commandPlace s.ctx (Writer.fresh record) := by
      rw [Device.addDone_places loc hw hsum, hrecord]
      rfl
    have hspan : record.span = 3 := by rw [hrecord]; exact counterRecord_span ..
    have hformat := Device.formatProgress_of (d := s.dev.opDone) hx hf
    refine ⟨fun a line hfit hline => ?fits, fun hnowhere => ?nowhere⟩
    case fits =>
      subst hline
      rw [← hspan] at hfit
      have hplace := Device.commandPlace_reserves (c := s.ctx) (d := s.dev.opDone) hx hw hq hfit
      rw [hspan] at hplace
      exact h.exec_requests hw (hdone.trans hplace) rfl rfl rfl rfl
    case nowhere =>
      have hnot : s.dev.opDone.fitsNowhere (Writer.fresh record).record.span :=
        (congrArg s.dev.fitsNowhere hspan).mpr hnowhere
      refine ⟨fun hm => ?waitsOpen, fun a hm hn ha he => ?opens, fun hm hn hstore => ?waitsSpace⟩
      case waitsOpen =>
        exact h.exec_waits rfl (hdone.trans (Device.commandPlace_waitsOpen hw hq hnot hm)) (Device.wakeCommand_waitsOpen _ rfl rfl rfl hm)
      case opens => exact h.exec_requests hw (hdone.trans (Device.commandPlace_opens hx hw hq hnot hm hn ha he)) rfl rfl rfl rfl
      case waitsSpace =>
        exact h.exec_waits rfl (hdone.trans (Device.commandPlace_waitsSpace hw hq hnot hm hn hformat hstore))
          (Device.wakeCommand_waitsSpace _ rfl rfl rfl (Device.placeable_fitsNowhere hnot hn))

end Sys2Proof.Machine
end

section
/-! The law of groups over one step (R115, R117, R120 to R122), and what a tick of the Timebase does to the deadline of a group (R120). -/
namespace Sys2Proof.Machine
open Sys2Proof

/-! ## Window bytes (R191 to R197) -/

/-- The law speaks of the group and the executing command, which the window does not reach. -/
theorem State.WindowReach.groupLaw {s t : State} (h : s.WindowReach t) (hb : s.dev.groupLaw) : t.dev.groupLaw :=
  Device.grp_of_eq hb (by rw [h.dev]) (by rw [h.dev])

theorem State.go_reach (s : State) (code : Option CommandCode) : s.WindowReach (s.go code) := by
  unfold State.go
  split
  · exact s.windowWrite_reach _ _ ⟨rfl, rfl, rfl, Device.post_frame _ _⟩
  · exact .refl s

theorem State.windowWrite_grp (s : State) (a : Addr) (act : State → State) (hb : s.dev.groupLaw)
    (hact : s.byteTaken.dev.groupLaw → (act s.byteTaken).dev.groupLaw) : (s.windowWrite a act).dev.groupLaw := by
  rcases s.windowWrite_cases a act with he | ⟨port, he⟩ <;> rw [he]
  · exact hact hb
  · exact hb

/-- An OPEN group ends or is held for its member command (R121), and a detached command is the same command (R85). -/
theorem Device.portReset_grp (d : Device) (hb : d.groupLaw) : d.portReset.groupLaw :=
  Device.mapEx_grp d.endOpenGroup d.portReset (fun x => { x with detached := true }) (fun _ => ⟨rfl, rfl⟩) rfl rfl
    (Device.endOpenGroup_grp d hb)

/-! ## Power and resets (R122, R179 to R186, R198) -/

/-- An event of the engines that keeps the law is followed by the end of its step, which keeps it too. -/
theorem State.engines_grp {s : State} {f : Device → Device} (hf : (f s.dev).groupLaw) : (s.engines f).dev.groupLaw :=
  Device.settle_grp _ _ hf

/-- Judging the sources is an entry to WARNING, or reaches the Power Monitor alone (R179, R180). -/
theorem State.judgePower_cases (s : State) (entry : WarningEntry) :
    s.judgePower entry = s.enterWarning entry ∨ ∃ power, s.judgePower entry = { s with power := power } := by
  cases ha : powerAsserted s.cfg s.power with
  | false => exact .inr ⟨_, State.judgePower_quiet _ _ ha⟩
  | true =>
    cases hw : s.power.warning with
    | true => exact .inr ⟨_, State.judgePower_again _ _ ha hw⟩
    | false => exact .inl (State.judgePower_enters _ _ ha hw)

/-- A tick of the debounce is the recovery, or reaches the Power Monitor alone (R180). -/
theorem State.tickDebounce_cases (s : State) :
    s.tickDebounce = s.recovered ∨ ∃ power, s.tickDebounce = { s with power := power } := by
  unfold State.tickDebounce
  repeat' split
  · exact .inr ⟨s.power, rfl⟩
  · exact .inr ⟨_, rfl⟩
  · exact .inl rfl
  · exact .inr ⟨s.power, rfl⟩

/-- A reset leaves no group (R20, R83). -/
theorem State.resetTo_grp (s : State) (cut : CutShort) (low : Bool) (mv : Nat) : (s.resetTo cut low mv).dev.groupLaw := by
  refine State.engines_grp (f := id) (Device.grp_of_none ?_)
  change (resetDevice (resetPower low mv).warning).group = none
  unfold resetDevice
  split <;> rfl

theorem State.enterWarning_grp (s : State) (entry : WarningEntry) (hb : s.dev.groupLaw) :
    (s.enterWarning entry).dev.groupLaw := by
  refine State.engines_grp ?_
  split
  · exact Device.warnBetween_grp _ _ hb
  · exact Device.warn_grp _ hb

theorem State.judgePower_grp (s : State) (entry : WarningEntry) (hb : s.dev.groupLaw) :
    (s.judgePower entry).dev.groupLaw := by
  rcases s.judgePower_cases entry with he | ⟨power, he⟩ <;> rw [he]
  · exact s.enterWarning_grp entry hb
  · exact hb

theorem State.levels_grp (s : State) (low : Bool) (mv : Nat) (cut : CutShort) (between : Bool) (hb : s.dev.groupLaw) :
    (s.levels low mv cut between).dev.groupLaw := by
  unfold State.levels
  split
  · exact s.resetTo_grp cut low mv
  · exact State.judgePower_grp _ _ hb

theorem State.configure_grp (s : State) (a : Addr) (v : Byte) (entry : WarningEntry) (hb : s.dev.groupLaw) :
    (s.configure a v entry).dev.groupLaw := by
  unfold State.configure
  dsimp only
  split
  · exact State.judgePower_grp _ _ hb
  · exact hb

theorem State.recovered_grp (s : State) (hb : s.dev.groupLaw) : s.recovered.dev.groupLaw :=
  State.engines_grp (Device.recover_grp _ hb)

theorem State.tickDebounce_grp (s : State) (hb : s.dev.groupLaw) : s.tickDebounce.dev.groupLaw := by
  rcases s.tickDebounce_cases with he | ⟨power, he⟩ <;> rw [he]
  · exact s.recovered_grp hb
  · exact hb

/-! ## One command -/

/-- Every command keeps the law of groups. -/
theorem exec_grp (i : Instr) (s t : State) (hb : s.dev.groupLaw) (he : exec i s = .next t) : t.dev.groupLaw := by
  cases i
  case frame high edges => exact (exec_frame_reach s t _ (.inl ⟨high, edges, rfl⟩) he).groupLaw hb
  case frameEnd edges => exact (exec_frame_reach s t _ (.inr (.inl ⟨edges, rfl⟩)) he).groupLaw hb
  case bufferDataRead => exact (exec_frame_reach s t _ (.inr (.inr rfl)) he).groupLaw hb
  all_goals obtain rfl := Host.Outcome.next.inj he
  case read | write | delete | add | list | openGroup | commitGroup | dropGroup | reclaim | format | raiseLock | codeNamesNoCommand =>
    exact (s.go_reach _).groupLaw hb
  case pop | bufferDataWrite | notificationFlagsClear | enableMaskWrite =>
    exact (s.windowWrite_reach _ _ ⟨rfl, rfl, rfl, rfl⟩).groupLaw hb
  case registerWrite a v =>
    split
    · exact hb
    · exact (s.windowWrite_reach _ _ (State.storeRegister_reach _ a v)).groupLaw hb
  case configurationWrite a v entry =>
    split
    · exact s.windowWrite_grp _ _ hb (State.configure_grp _ a v entry)
    · exact hb
  case portReset v =>
    refine s.windowWrite_grp _ _ hb fun hb => ?_
    split
    · exact Device.portReset_grp _ hb
    · exact hb
  case payloadDecay => split <;> exact hb
  case takeCommand => exact State.engines_grp (Device.takeCommand_grp _ _ hb)
  case reclaimTakeUpWork => exact State.engines_grp (Device.takeWork_grp _ _ hb)
  case lineProgramOutcome result =>
    split
    · exact State.engines_grp (Device.programmed_grp _ _ _ _ hb)
    · exact hb
  case bankEraseOutcome remains =>
    repeat' split
    · exact hb
    · exact State.engines_grp (Device.erased_grp _ _ _ _ hb)
    · exact hb
  case multiLineReadOutcome =>
    split
    · exact State.engines_grp (Device.readLines_grp _ _ _ _ hb)
    · exact hb
  case timebaseTick => exact State.tickDebounce_grp _ (State.engines_grp (Device.tickGroup_grp _ hb))
  case groupExpiry =>
    repeat' split
    · exact hb
    · exact State.engines_grp (Device.tickGroup_grp _ hb)
    · exact hb
  case recovery =>
    split
    · exact s.recovered_grp hb
    · exact hb
  case powerWarning source cut => cases source <;> exact s.levels_grp _ _ _ _ hb
  case powerWarningDeasserted supply => exact s.levels_grp _ _ _ _ hb
  case powerOnReset cut low mv => exact s.resetTo_grp cut low mv
  case pinReset pin cut =>
    cases pin with
    | pulse n =>
      dsimp only
      split
      · exact State.resetTo_grp _ _ _ _
      · exact hb
    | low => exact hb
    | rises =>
      dsimp only
      split
      · exact State.resetTo_grp _ _ _ _
      · exact hb

/-- Settles O57: a step is `exec` of the front command, and every command keeps the law. -/
theorem groupLawKept : Obligations.GroupLawKept := by
  intro s t hb hstep
  unfold step at hstep
  split at hstep
  · obtain rfl := Host.Outcome.next.inj hstep
    exact hb
  · next i rest _ => exact exec_grp i { s with pending := rest } t hb hstep

/-! ## One tick of a group's deadline (R120) -/

section Tick
variable {d : Device} {g : GroupContext} {n : Nat}

/-- A COMMITTING group and one without deadline take no tick. -/
theorem Device.tickGroup_untimed (hg : d.group = some g) (h : g.state = .committing ∨ g.deadline = none) : d.tickGroup = d := by
  unfold Device.tickGroup
  rw [hg]
  dsimp only
  split
  · next hs hd => simp [hs, hd] at h
  · rfl

theorem Device.tickGroup_lowers (hg : d.group = some g) (hs : g.state = .opened) (hd : g.deadline = some n) (hn : 1 < n) :
    d.tickGroup = { d with group := some { g with deadline := some (n - 1) } } := by
  simp only [Device.tickGroup, Device.mapGroup, hg, hs, hd, Option.map_some, if_neg (Nat.not_le_of_lt hn)]

/-- At 0 the group expires, or is held while its member command executes. -/
theorem Device.tickGroup_reachesZero (hg : d.group = some g) (hs : g.state = .opened) (hd : g.deadline = some n) (hn : n ≤ 1) :
    d.tickGroup = ({ d with group := some { g with deadline := some 0 } } : Device).expireOrHold := by
  have hzero : n - 1 = 0 := Nat.sub_eq_zero_of_le hn
  simp only [Device.tickGroup, Device.mapGroup, hg, hs, hd, Option.map_some, if_pos hn, hzero]

theorem Device.tickGroup_holds (hg : d.group = some g) (hs : g.state = .opened) (hd : g.deadline = some n) (hn : n ≤ 1)
    (hm : d.memberExecuting = true) : d.tickGroup = { d with group := some { g with deadline := some 0 } } :=
  (Device.tickGroup_reachesZero hg hs hd hn).trans (if_pos hm)

/-- The end of a group does not see its deadline (R118). -/
theorem Device.endGroup_deadline (hg : d.group = some g) (deadline : Option Nat) :
    ({ d with group := some { g with deadline := deadline } } : Device).endGroup = d.endGroup := by
  have hbanks := Device.orphans_banks g.members
    (d := { d with group := some { g with deadline := deadline } }) (e := d) rfl
  rw [Device.endGroup_eq (d := { d with group := some { g with deadline := deadline } }) rfl, Device.endGroup_eq hg]
  dsimp only
  rw [hbanks]

theorem Device.tickGroup_expires (hg : d.group = some g) (hs : g.state = .opened) (hd : g.deadline = some n) (hn : n ≤ 1)
    (hm : d.memberExecuting = false) :
    d.tickGroup = { d.endGroup with flags := { d.flags with groupExpired := true } } := by
  have hflags : d.endGroup.flags = d.flags := by rw [Device.endGroup_eq hg]
  calc d.tickGroup
    _ = ({ d with group := some { g with deadline := some 0 } } : Device).expireOrHold :=
      Device.tickGroup_reachesZero hg hs hd hn
    _ = ({ d with group := some { g with deadline := some 0 } } : Device).expireGroup :=
      if_neg (Bool.eq_false_iff.mp hm)
    _ = { d.endGroup with flags := { d.flags with groupExpired := true } } := by
      rw [Device.expireGroup, Device.endGroup_deadline hg, hflags]

/-- Nothing waits in a device that has the same engines and controller. -/
theorem Device.AtRest.of_eq {e : Device} (h : d.AtRest) (hx : e.ex = d.ex) (hfc : e.fc = d.fc)
    (hj : e.reclaim.job = d.reclaim.job) : e.AtRest := by
  obtain ⟨hcommand, hreclaim, hmount, hsteady, hwriter, herase⟩ := h
  rw [← hfc] at hcommand hreclaim hmount herase
  rw [← hx] at hsteady
  rw [← hj] at hwriter
  exact ⟨hcommand, hreclaim, hmount, hsteady, hwriter, herase⟩

end Tick

/-! ## The events of the Timebase (R120; log entries 6 and 10) -/

section Events
variable {s : State} {g : GroupContext} {n : Nat}

theorem State.engines_atRest {f : Device → Device} {d : Device} (hf : f s.dev = d) (hd : d.AtRest) :
    s.engines f = { s with dev := d } :=
  State.engines_eq s f (by rw [hf, Device.settle_atRest _ _ hd])

/-- In NORMAL a tick is the group's alone. -/
theorem exec_timebaseTick_normal (hw : s.power.warning = false) :
    exec .timebaseTick s = .next (s.engines Device.tickGroup) :=
  congrArg Host.Outcome.next (if_neg (by simp [hw]))

theorem exec_groupExpiry_expires (hg : s.dev.group = some g) (hs : g.state = .opened) (hd : g.deadline = some n) (hn : n ≤ 1) :
    exec .groupExpiry s = .next (s.engines Device.tickGroup) := by
  refine congrArg Host.Outcome.next ?_
  simp [hg, hs, hd, hn]

theorem exec_groupExpiry_noEvent
    (h : ∀ g, s.dev.group = some g → g.state = .opened → ∀ n, g.deadline = some n → 1 < n) :
    exec .groupExpiry s = .next s := by
  refine congrArg Host.Outcome.next ?_
  split
  · rfl
  · next g hg =>
    refine if_neg ?_
    rintro ⟨hs, hexpires⟩
    cases hd : g.deadline with
    | none => simp [hd] at hexpires
    | some n =>
      have hn : n ≤ 1 := by simpa [hd] using hexpires
      exact absurd (h g hg hs n hd) (Nat.not_lt_of_le hn)

end Events

/-- Settles O52: the five outcomes of `Device.tickGroup`, each at rest, so the end of the step adds nothing. -/
theorem groupDeadlineTicks : Obligations.GroupDeadlineTicks := by
  intro s hr hw
  refine ⟨fun h => ?untimed, fun g n hg hs hd => ⟨fun hn => ?lowers, fun hn i hi => ?zero⟩⟩
  case untimed =>
    rw [exec_timebaseTick_normal hw]
    rcases h with hg | ⟨g, hg, h⟩
    · refine ⟨congrArg _ (State.engines_atRest (Device.tickGroup_noGroup _ hg) hr),
        exec_groupExpiry_noEvent fun g hg' => ?_⟩
      simp [hg] at hg'
    · refine ⟨congrArg _ (State.engines_atRest (Device.tickGroup_untimed hg h) hr),
        exec_groupExpiry_noEvent fun g' hg' hs n hd => ?_⟩
      obtain rfl : g = g' := Option.some.inj (hg.symm.trans hg')
      simp [hs, hd] at h
  case lowers =>
    rw [exec_timebaseTick_normal hw]
    refine ⟨congrArg _ (State.engines_atRest (Device.tickGroup_lowers hg hs hd hn) (hr.of_eq rfl rfl rfl)),
      exec_groupExpiry_noEvent fun g' hg' _ m hm => ?_⟩
    obtain rfl : g = g' := Option.some.inj (hg.symm.trans hg')
    obtain rfl : n = m := Option.some.inj (hd.symm.trans hm)
    exact hn
  case zero =>
    have hexec : exec i s = .next (s.engines Device.tickGroup) := by
      rcases hi with rfl | rfl
      · exact exec_timebaseTick_normal hw
      · exact exec_groupExpiry_expires hg hs hd hn
    rw [hexec]
    refine ⟨fun hm => congrArg _ (State.engines_atRest (Device.tickGroup_holds hg hs hd hn hm) (hr.of_eq rfl rfl rfl)),
      fun hm => congrArg _ (State.engines_atRest (Device.tickGroup_expires hg hs hd hn hm) (hr.of_eq ?_ ?_ ?_))⟩
    all_goals rw [Device.endGroup_eq hg]

end Sys2Proof.Machine
end

section
/-! RECLAIM, RAISE_LOCK and FORMAT in their turn and at an entry to WARNING (R136, R161, R171, R182, R184): the end at once, the request, and
the waits for the Reclaim Engine. -/
namespace Sys2Proof.Machine
open Sys2Proof

/-! ## Steps that no check refuses (R136, R161, R171) -/

theorem Device.reclaimHalted_iff (d : Device) : d.reclaimHalted = true ↔ d.reclaimPhase = .halted := decide_eq_true_iff

/-- RECLAIM is answered 0xFF, aborted under the warning, or its request placed. -/
theorem Device.startCommand_reclaim {d : Device} {x : Executing} (c : Ctx) (t : Taken) (hc : x.code = .reclaim)
    (hr : d.refusalFor { code := x.code, desc := x.desc } = none) :
    d.startCommand c x t =
      if d.reclaimPhase = .halted ∨ d.causes.commit = true then d.endCommand .ok 0xFF
      else if c.warning = true then d.endCommand .powerAbort 0
      else (d.mapReclaim fun r => { r with request := some x.desc.argument.toNat }).setStage .reclaimHeld := by
  rw [hc] at hr
  have hpass : d.reclaimRefusal x.desc = none := hr
  simp only [Device.startCommand, hc]
  unfold Device.startReclaim
  rw [Device.firstRefusal_reclaimChecks, hpass]
  simp only [Bool.or_eq_true, Device.reclaimHalted_iff]
  rfl

/-- RAISE_LOCK waits for the end of a lock repair; under the warning it neither waits nor places its record. -/
theorem Device.startCommand_raiseLock {d : Device} {x : Executing} {c : Ctx} (t : Taken) (hc : x.code = .raiseLock)
    (hr : d.refusalFor { code := x.code, desc := x.desc } = none) :
    (c.warning = false → d.repairing = true → d.startCommand c x t = d.setStage .repairWait) ∧
      (c.warning = true → d.formatProgress = none → d.startCommand c x t = d.endCommand .powerAbort 0) := by
  rw [hc] at hr
  have hpass : d.raiseLockRefusal x.desc = none := hr
  simp only [Device.startCommand, hc]
  unfold Device.startRaiseLock
  rw [Device.firstRefusal_raiseLockChecks, hpass]
  dsimp only
  refine ⟨fun hw hp => ?_, fun hw hf => ?_⟩
  · rw [if_pos hp, if_neg (by simp [hw])]
  · rw [if_pos hw, Device.commandPlace_warned _ _ hw, Device.commandPowerEnd_noFormat hf, ite_self]

theorem Device.startCommand_format {d : Device} {x : Executing} {c : Ctx} (t : Taken) (hc : x.code = .format)
    (hr : d.refusalFor { code := x.code, desc := x.desc } = none) (hw : c.warning = false) :
    d.startCommand c x t = d.formatTaken := by
  rw [hc] at hr
  have hpass : firstRefusal d.formatChecks = none := d.firstRefusal_formatChecks.trans hr
  simp only [Device.startCommand, hc]
  unfold Device.startFormat
  rw [hpass]
  exact if_neg (by simp [hw])

/-! ## The waits that the end of a step does not end (R161, R171) -/

theorem Device.wakeCommand_repairWait {d : Device} {x : Executing} (c : Ctx) (hx : d.ex = some x) (hs : x.stage = .repairWait)
    (hp : d.repairing = true) : d.wakeCommand c = d := by
  unfold Device.wakeCommand
  simp only [hx, hs]
  exact if_pos hp

/-- An engine that holds work is not halted for FORMAT. -/
theorem Device.haltForFormat_busy {d : Device} (hi : d.reclaimPhase ≠ .idle) : d.haltForFormat = d := by
  refine if_neg fun ⟨hj, hv⟩ => hi ?_
  simp only [Device.reclaimPhase, hj, Option.isNone_iff_eq_none.mp hv]

theorem Device.wakeCommand_formatWait {d : Device} {x : Executing} {f : FormatProgress} (c : Ctx) (hx : d.ex = some x)
    (hs : x.stage = .formatWait) (hf : x.format = some f) (hi : d.reclaimPhase ≠ .idle) (hh : d.reclaimPhase ≠ .halted) :
    d.wakeCommand c = d := by
  unfold Device.wakeCommand
  simp only [hx, hs, hf]
  unfold Device.formatWaits
  rw [Device.haltForFormat_busy hi]
  exact if_neg fun h => hh (d.reclaimHalted_iff.mp h)

/-! ## The step of the head command -/

/-- The head command, no COMMIT_GROUP, makes its step on a device that differs from the one before in the queue and the engine. -/
theorem State.headTaken_step {s : State} {p : Posted} (rest : List Posted) (c : Ctx) (hc : p.code ≠ .commitGroup) :
    (s.headTaken p rest).makeStep c =
      ({ s.dev with queue := rest, ex := some (s.headExecuting p) } : Device).startCommand c (s.headExecuting p)
        { payload := if p.code = .write then s.dev.taken256 p.desc else [], timeout := s.cfg.groupTimeout } := by
  rw [State.headTaken_other rest hc]
  exact Device.makeStep_taken c _ rfl rfl

/-- The head command goes over into a wait that the end of its step does not end. -/
theorem State.Turn.exec_waits {s : State} {p : Posted} {rest : List Posted} {e : Device} (h : s.Turn p rest) (hrest : s.dev.AtRest)
    (hstep : (s.headTaken p rest).makeStep { cfg := s.cfg, warning := false } = e) (hfc : e.fc = s.dev.fc)
    (hj : e.reclaim.job = s.dev.reclaim.job) (hwait : e.wakeCommand { cfg := s.cfg, warning := false } = e) :
    exec .takeCommand s = .next { s with dev := e } := by
  have hwriter : e.reclaim.steady := fun w hw => hrest.writer w (hj ▸ hw)
  rw [h.exec_takeCommand, hstep, Device.settle_unchanged ⟨Device.wakeReclaim_of_noWait _ _ hwriter, hwait⟩]
  all_goals rw [hfc]
  exacts [hrest.command, hrest.reclaim, hrest.mount, hrest.erase]

/-- At an entry between the taking and the step of a command that is no member and no COMMIT_GROUP, the command ends with its step: its group
has ended before. -/
theorem State.MeetsWarning.exec_stepEnds {s : State} {p : Posted} {rest : List Posted} {x : Executing} {d : Device} {status : Status}
    {result : Nat} (cut : CutShort) (h : s.MeetsWarning p rest) (hx : x = s.headExecuting p)
    (hd : d = (s.headTaken p rest).underWarning x) (hm : x.member = false) (hc : p.code ≠ .commitGroup)
    (hstep : d.startCommand { cfg := s.cfg, warning := true } x
      { payload := if p.code = .write then s.dev.taken256 p.desc else [], timeout := s.cfg.groupTimeout } =
        d.endCommand status result) :
    exec (.powerWarning (.pfw true) cut) s = .next (s.pfwLow cut (d.executingEnded x status result)) := by
  have hgroup := (h.group_underWarning hx hd hm).1 hc
  exact h.exec_ended cut hx hd hm (hstep.trans (Device.endCommand_noGroup _ _ (h.warnBetween_step hx hd hm).1 hgroup)) rfl rfl

/-- Settles O21: each command's step in its turn; and at the entry the same step on the device the entry leaves, where it ends the command. -/
theorem commandsWaitForReclaim : Obligations.CommandsWaitForReclaim := by
  refine ⟨fun s p rest ht hrest hr => ⟨fun hc => ⟨fun hanswer => ?answered, fun ⟨hhalted, hcommit⟩ => ?held⟩,
      fun hc hp => ?raises, fun hc hi hh => ?formats⟩,
    fun s p rest cut x d h hx hd hr => ⟨fun hc => ?reclaimWarned, fun hc => ?raiseWarned⟩⟩
  case answered =>
    have hne : p.code ≠ .commitGroup := by simp [hc]
    refine ht.exec_endsWith hrest ?_ ht.idle rfl rfl
    rw [← State.headTaken_ends rest .ok 0xFF ht.idle ht.groups hne, State.headTaken_step rest _ hne,
      Device.startCommand_reclaim _ _ hc hr, State.headTaken_other rest hne]
    exact if_pos hanswer
  case held =>
    refine ht.exec_waits hrest ?_ rfl rfl (Device.wakeCommand_of_steady _ _ rfl rfl)
    rw [State.headTaken_step rest _ (by simp [hc]), Device.startCommand_reclaim _ _ hc hr]
    exact if_neg (not_or.mpr ⟨hhalted, Bool.eq_false_iff.mp hcommit⟩)
  case raises =>
    refine ht.exec_waits hrest ?_ rfl rfl (Device.wakeCommand_repairWait _ rfl rfl hp)
    rw [State.headTaken_step rest _ (by simp [hc])]
    exact (Device.startCommand_raiseLock _ hc hr).1 rfl hp
  case formats =>
    refine ht.exec_waits hrest ?_ rfl rfl (Device.wakeCommand_formatWait _ rfl rfl rfl hi hh)
    rw [State.headTaken_step rest _ (by simp [hc])]
    exact Device.startCommand_format _ hc hr rfl
  case reclaimWarned =>
    obtain ⟨hcode, hm⟩ := State.headExecuting_noMember hx hc rfl
    have hne : p.code ≠ .commitGroup := by simp [hc]
    have hstep := Device.startCommand_reclaim (d := d) (x := x) { cfg := s.cfg, warning := true }
      { payload := if p.code = .write then s.dev.taken256 p.desc else [], timeout := s.cfg.groupTimeout } hcode (by rw [hx]; exact hr)
    refine ⟨fun hanswer => h.exec_stepEnds cut hx hd hm hne (hstep.trans (if_pos hanswer)), fun ⟨hhalted, hcommit⟩ =>
      h.exec_stepEnds cut hx hd hm hne (hstep.trans ?_)⟩
    rw [if_neg (not_or.mpr ⟨hhalted, Bool.eq_false_iff.mp hcommit⟩), if_pos rfl]
  case raiseWarned =>
    obtain ⟨hcode, hm⟩ := State.headExecuting_noMember hx hc rfl
    have hnoFormat : d.formatProgress = none :=
      Device.formatProgress_of (h.warnBetween_step hx hd hm).1 (by rw [hx]; rfl)
    exact h.exec_stepEnds cut hx hd hm (by simp [hc])
      ((Device.startCommand_raiseLock _ hcode (by rw [hx]; exact hr)).2 rfl hnoFormat)

end Sys2Proof.Machine
end

section
/-! A second failed attempt of the Reclaim Engine on a bank (R132, R133): the bank is BAD, and its bank map is decided. -/
namespace Sys2Proof.Machine
open Sys2Proof

/-! ## The bank map (R133) -/

/-- The bank map is decided with the engine IDLE: too few usable or too many BAD banks raise BANKS, else its record is placed. -/
theorem Device.decideMap_eq {c : Ctx} {d u : Device} (hu : d.setJob .idle = u) :
    d.decideMap c =
      if u.mapImpossible then u.degrade .banks
      else (u.setJob (.bankMap (writerAt (mapRecord (u.banksIn .bad)) .waitOpen))).reclaimPlace c
        (writerAt (mapRecord (u.banksIn .bad)) .waitOpen) := by
  subst hu
  rfl

theorem Device.mapImpossible_eq_false (d : Device) : d.mapImpossible = false ↔ 8 ≤ d.usable.length ∧ d.badCount ≤ 8 := by
  rw [← Bool.not_eq_true, Device.mapImpossible_iff, not_or, Nat.not_lt, Nat.not_lt]

/-! ## Failed attempts (R132) -/

theorem Device.eraseFailed_again {c : Ctx} {d : Device} (b : BankId) (ha : d.reclaim.attempt = 0) :
    d.eraseFailed c b =
      { d with
        reclaim := { d.reclaim with attempt := 1, job := .erase b }
        fc := { d.fc with waitReclaim := some (.erase b) } } := if_pos ha

theorem Device.eraseFailed_bad {c : Ctx} {d : Device} (b : BankId) (ha : d.reclaim.attempt = 1) :
    d.eraseFailed c b = ((d.emptyInto b .bad).mapReclaim fun r => { r with attempt := 0 }).decideMap c :=
  if_neg (by rw [ha]; decide)

/-- A failed erase of the Reclaim Engine reaches its count of attempts. -/
theorem Device.erased_failed {c : Ctx} {d : Device} {b : BankId} (hj : d.reclaim.job = .erase b) :
    d.erased c .reclaim false = d.eraseFailed c b := by
  simp [Device.erased, Device.reclaimErased, hj, Device.eraseDone]

/-- A header of the erase cycle that faults makes its bank suspect and is a failed attempt. -/
theorem Device.programmed_eraseHeader_fault {c : Ctx} {d : Device} {b : BankId} {count : Nat} (read : Line) (preCheck : Bool)
    (hj : d.reclaim.job = .eraseHeader b count) :
    d.programmed c .reclaim (.fault read preCheck) = (d.markSuspect b).eraseFailed c b := by
  simp [Device.programmed, Device.reclaimProgrammed, hj, Device.eraseHeaderDone]

/-- Settles O42: the erase that fails again leaves the engine IDLE with the bank BAD, and then either a cause or one request. -/
theorem badBankMapped : Obligations.BadBankMapped := by
  refine ⟨fun s b e l bytes d hsteady hn hj ha he hreq hb hs ho hc hr hm hbytes hd => ?second,
    fun s b count bytes data hsteady hn hj ha halone herased hne => ?first⟩
  case second =>
    have hfree : d.fc.Free := by
      rw [hd]
      exact FlashController.free_eraseOver ho hc hr hm
    have hidle : ((s.dev.eraseOver.emptyInto b .bad).mapReclaim fun r => { r with attempt := 0 }).setJob .idle = d := hd.symm
    have hdecides := (Device.erased_failed (c := s.ctx) (d := s.dev.eraseOver) hj).trans
      ((Device.eraseFailed_bad (d := s.dev.eraseOver) b ha).trans (Device.decideMap_eq hidle))
    have hcommand : ∀ x, d.ex = some x → x.stage.steady = true := by
      rw [hd]
      exact hsteady.command
    refine ⟨fun hbad hready => ?banks, fun husable hbad hq record a line hrecord hfit hline => ?placed⟩
    case banks =>
      have hrest : d.Steady := ⟨hcommand, Reclaim.steady_of_noWriter (by rw [hd]; rfl)⟩
      rw [if_pos (d.mapImpossible_iff.mpr hbad), Device.degrade_ready .banks (by rw [hd]; exact hready) hrest.phase] at hdecides
      refine exec_bankErase_ends he hb hreq hs (Flash.bankErased_eraseBank_other _ _ l hbytes) hdecides ?_
      refine (Device.settle_free (d := d.withCause .banks) (hrest.same rfl rfl) hfree).trans ?_
      rw [hd]
      rfl
    case placed =>
      have hmap : mapRecord (d.banksIn .bad) = record := hrecord.symm
      have hseq : d.nextSeq = s.dev.nextSeq := by rw [hd]; rfl
      rw [if_neg (by simp [d.mapImpossible_eq_false.mpr ⟨husable, hbad⟩]), hmap,
        Device.reclaimPlace_new (d := d.setJob (.bankMap (writerAt record .waitOpen))) (w := writerAt record .waitOpen)
          (hseq.trans_le hq) rfl hfit] at hdecides
      subst hline
      rw [← hseq]
      refine exec_bankErase_ends he hb hreq hs (Flash.bankErased_eraseBank_other _ _ l hbytes) hdecides ?_
      exact Device.settle_granted_reclaim hn (Device.noWake_of_steady _ ⟨hcommand, fun w hw => by cases hw; simp⟩) hfree rfl
  case first =>
    refine exec_lineProgram_ends halone.op herased rfl (programOutcome_fault rfl hne.symm)
      ((Device.programmed_eraseHeader_fault (d := s.dev.opDone) _ _ hj).trans
        (Device.eraseFailed_again (d := s.dev.opDone.markSuspect b) b ha)) ?_
    exact Device.settle_granted_reclaim hn (Device.noWake_of_steady _ ⟨hsteady.command, Reclaim.steady_of_noWriter rfl⟩)
      halone.free rfl

end Sys2Proof.Machine
end

section
/-! How FORMAT ends (R133, R165, R166): with its last header verified, in its step or with a bank map still to place; and without a commit
point, where mount runs at once. -/
namespace Sys2Proof.Machine
open Sys2Proof

/-! ## The number of BAD banks (R132) -/

theorem Device.badCount_eq_zero (d : Device) : d.badCount = 0 ↔ ∀ c, (d.bank c).state ≠ .bad := by
  simp only [Device.badCount, List.length_eq_zero_iff, List.eq_nil_iff_forall_not_mem, Device.mem_banksIn, ne_eq]

/-- With one bank's entry replaced by one that is not BAD the others decide. -/
theorem Device.badCount_setBank_eq_zero (d : Device) {b : BankId} {e : BankEntry} (he : e.state ≠ .bad) :
    (d.setBank b e).badCount = 0 ↔ ∀ c, c ≠ b → (d.bank c).state ≠ .bad := by
  rw [Device.badCount_eq_zero]
  refine forall_congr' fun c => ?_
  by_cases hc : c = b
  · simp [hc, he]
  · simp [hc, Device.bank_setBank_other]

/-- With one bank's entry replaced by one in the others' state all banks are in it. -/
theorem Device.state_setBank {d : Device} {b : BankId} {e : BankEntry} {st : BankState} (he : e.state = st)
    (h : ∀ c, c ≠ b → (d.bank c).state = st) (c : BankId) : ((d.setBank b e).bank c).state = st := by
  by_cases hc : c = b
  · rw [hc, Device.bank_setBank_same, he]
  · rw [Device.bank_setBank_other d e hc, h c hc]

/-! ## FORMAT's end (R166) -/

/-- FORMAT ends after its commit point: the store is usable, and the command ends OK. -/
theorem Device.formatFinish_committed {d : Device} {x : Executing} {f : FormatProgress} (hx : d.ex = some x) (hc : x.code = .format)
    (hm : x.member = false) (hf : x.format = some f) (hcommitted : f.committed = true) :
    d.formatFinish = d.formatCommitted.executingEnded x .ok 0 := by
  have hp : d.formatProgress = some f := by simp only [Device.formatProgress, hx, Option.bind_some, hf]
  simp only [Device.formatFinish, hp, hcommitted, if_true]
  exact Device.endCommand_eq _ _ hx (by simp [hc]) hm

/-- Without a commit point the command ends OK and mount begins. -/
theorem Device.formatFinish_uncommitted {d : Device} {x : Executing} {f : FormatProgress} (hx : d.ex = some x) (hc : x.code = .format)
    (hm : x.member = false) (hf : x.format = some f) (hcommitted : f.committed = false) :
    d.formatFinish = (d.executingEnded x .ok 0).beginMount := by
  have hp : d.formatProgress = some f := by simp only [Device.formatProgress, hx, Option.bind_some, hf]
  simp only [Device.formatFinish, hp, hcommitted, Bool.false_eq_true, if_false]
  rw [Device.endCommand_eq _ _ hx (by simp [hc]) hm]

theorem Reclaim.released_halted {r : Reclaim} {cause : HaltCause} (h : r.job = .halted cause) :
    r.released = { r with job := .idle, victim := none } := by
  simp only [Reclaim.released, h]

theorem Causes.any_add (causes : Causes) (c : Cause) : (causes.add c).any = true := by
  cases c <;> simp [Causes.add, Causes.any]

theorem Device.degrade_notReady {d : Device} (c : Cause) (hs : d.store ≠ .ready) :
    d.degrade c = { d with causes := d.causes.add c } := if_neg hs

/-- A cause that arises at FORMAT's end makes the store DEGRADED there, whatever it was before. -/
theorem Device.formatCommitted_degrade {d : Device} (c : Cause) (hp : d.commandPhase ≠ .waitingSpace) :
    (d.degrade c).formatCommitted = ({ d with causes := d.causes.add c } : Device).formatCommitted ∧ (d.degrade c).ex = d.ex := by
  by_cases hs : d.store = .ready
  · rw [Device.degrade_ready c hs hp]
    exact ⟨by simp [Device.formatCommitted, Device.withCause, Causes.any_add], rfl⟩
  · rw [Device.degrade_notReady c hs]
    exact ⟨rfl, rfl⟩

/-! ## The end of the erasing (R164, R165) -/

/-- The last bank's header verified after the commit point: the bank is FREE, and the erasing has ended. -/
theorem Device.formatFreed_last {c : Ctx} {d : Device} {f : FormatProgress} {b : BankId} {count : Nat} (hf : f.committed = true)
    (ht : f.todo = []) : d.formatFreed c f b count = ((d.makeFree b count).unlist b).formatMap c := by
  simp only [Device.formatFreed, hf, if_true, Device.formatNext, ht]

theorem Device.formatMap_eq {c : Ctx} {d u : Device} (hu : d.formatTables = u) :
    d.formatMap c =
      if u.badCount = 0 then u.formatFinish
      else if u.mapImpossible then (u.degrade .banks).formatFinish
      else u.commandPlace c (Writer.fresh (mapRecord (u.banksIn .bad))) := by
  subst hu
  rfl

/-- The erasing ends without a bank map record: there is no BAD bank to list, or cause BANKS arises. -/
theorem Device.formatMap_finishes {c : Ctx} {d u : Device} {x : Executing} {f : FormatProgress} {cause : Bool} {causes : Causes}
    (hu : d.formatTables = u) (hcause : cause = Decidable.decide (u.badCount ≠ 0))
    (h : cause = false ∨ u.mapImpossible = true) (hcauses : causes = { u.causes with banks := u.causes.banks || cause })
    (hx : u.ex = some x) (hc : x.code = .format) (hm : x.member = false) (hf : x.format = some f) (hcommitted : f.committed = true)
    (hp : u.commandPhase ≠ .waitingSpace) :
    d.formatMap c = ({ u with causes := causes } : Device).formatCommitted.executingEnded x .ok 0 := by
  rw [Device.formatMap_eq hu, hcauses]
  by_cases hb : u.badCount = 0
  · have hnone : cause = false := by simp [hcause, hb]
    rw [if_pos hb, Device.formatFinish_committed hx hc hm hf hcommitted, hnone, Bool.or_false]
  · have hbanks : cause = true := by simp [hcause, hb]
    obtain ⟨hends, hex⟩ := Device.formatCommitted_degrade .banks hp
    rw [if_neg hb, if_pos (h.resolve_left (by simp [hbanks])), Device.formatFinish_committed (hex.trans hx) hc hm hf hcommitted, hends,
      hbanks, Bool.or_true]
    rfl

/-- With BAD banks that can be listed the erasing ends in an open for the bank map record, with epoch 1. -/
theorem Device.formatMap_opens {c : Ctx} {d u : Device} {x : Executing} {b : BankId} (hu : d.formatTables = u) (hw : c.warning = false)
    (hx : u.ex = some x) (hb : u.badCount ≠ 0) (hm : u.mapImpossible = false) (hactive : ∀ c, (u.bank c).state ≠ .active)
    (hopen : u.freeToOpen = some b) (hn : 2 ≤ u.freeCount) :
    d.formatMap c =
      { u with
        openMark := some (b, .command)
        nextEpoch := 2
        ex := some { x with stage := .writing (writerAt (mapRecord (u.banksIn .bad)) (.opening b 1)) }
        fc := { u.fc with waitCommand := some (.program b 1 (.openLine 1 0)) } } := by
  have hseq : u.nextSeq = 1 := hu ▸ rfl
  have hepoch : u.nextEpoch = 1 := hu ▸ rfl
  rw [Device.formatMap_eq hu, if_neg hb, if_neg (by simp [hm]), Device.commandPlace_opens hx hw (by rw [hseq]; decide)
    (Device.fitsNowhere_of_noActive _ hactive) (hu ▸ rfl) hn hopen (by rw [hepoch]; decide), hepoch]
  rfl

/-! ## FORMAT without a bank to try (R162, R166) -/

/-- Where every bank is BAD and none is listed for erase there is no anchor. -/
theorem Device.formatAnchor_none {d : Device} (hb : ∀ c, (d.bank c).state = .bad) (he : d.reclaim.eraseList = []) :
    d.formatAnchor = none := by
  have hin (st : BankState) (hst : st ≠ .bad) : d.banksIn st = [] :=
    List.eq_nil_iff_forall_not_mem.mpr fun c hc => hst ((Device.mem_banksIn.mp hc).symm.trans (hb c))
  have hopen : d.freeToOpen = none := pick_eq_none.mpr (hin .free (by simp))
  have hfullest : d.fullestAnchor = none := pick_eq_none.mpr (by simp [hb])
  simp [Device.formatAnchor, hin .blank (by simp), hopen, he, hfullest]

/-- The tables at the start of mount do not depend on the end of a command before it. -/
theorem Device.resetTables_executingEnded (d : Device) (x : Executing) (status : Status) (result : Nat) :
    (d.executingEnded x status result).resetTables = d.resetTables.executingEnded x status result := by
  unfold Device.executingEnded Device.releaseBuffer
  split
  · rfl
  · split
    · split <;> rfl
    · rfl

/-- Mount's first read is granted at a free controller in the same step. -/
theorem Device.settle_beginMount {c : Ctx} {d : Device} {fc : FlashController} (hw : c.warning = false) (hx : d.ex = none)
    (hfree : fc.Free) (hfc : d.fc = fc) :
    d.beginMount.settle c = { d.resetTables with mount := .census [], fc := fc.granted .mount (.read 0 0 3) } := by
  subst hfc
  have hk : d.beginMount.NoWake c :=
    ⟨Device.wakeReclaim_of_noWait c _ Reclaim.steady_initial, Device.wakeCommand_of_idle c _ hx⟩
  have hgrant : ({ d.fc with waitMount := some (.read 0 0 3) } : FlashController).grant .mount (.read 0 0 3) =
      d.fc.granted .mount (.read 0 0 3) := by
    simp [FlashController.grant, FlashController.granted, FlashController.unwait, FlashController.fairnessAfter, ← hfree.mount]
  rw [Device.settle_oneMount c _ (.read 0 0 3) hw hk ⟨hfree.op, hfree.erase, hfree.command, hfree.reclaim, rfl⟩, ← hgrant]
  rfl

/-! ## The end of FORMAT -/

/-- The outcome of FORMAT's header program in NORMAL. -/
theorem Device.programmed_formatHeader_normal {c : Ctx} {d : Device} {x : Executing} {f : FormatProgress} {b : BankId} {again : Bool}
    {count : Nat} (hw : c.warning = false) (hx : d.ex = some x) (hs : x.stage = .formatHeader b again count) (hf : x.format = some f) :
    d.programmed c .command .ok = d.formatFreed c f b count ∧
      ∀ read preCheck, d.programmed c .command (.fault read preCheck) = (d.markSuspect b).formatFailed c f b again := by
  have hn : ¬c.warning = true := by simp [hw]
  refine ⟨(Device.programmed_format _ hx hs hf).trans (if_neg hn), fun read preCheck => ?_⟩
  exact (Device.programmed_format _ hx hs hf).trans (if_neg hn)

/-- A second failed attempt before the commit point, with no bank left to try, ends FORMAT. -/
theorem Device.formatFailed_ends {c : Ctx} {d : Device} {f : FormatProgress} {b : BankId} (hcommitted : f.committed = false)
    (ha : ((d.emptyInto b .bad).unlist b).formatAnchor = none) :
    d.formatFailed c f b true = ((d.emptyInto b .bad).unlist b).formatFinish := by
  simp only [Device.formatFailed, if_true, hcommitted, Bool.false_eq_true, if_false, Device.formatChoose, ha]

/-- Settles O24: after the last header either FORMAT ends in its step or the bank map's open is granted in it; without a bank to try mount's
first read is. -/
theorem formatEnds : Obligations.FormatEnds := by
  refine ⟨fun s x f b again count generation d cause h halone herased hcommitted htodo hjob hcause hd => ?committed,
    fun s x f b count generation bytes d h halone herased hcommitted hbanks hlist hd => ?remounts⟩
  case committed =>
    have htables : ((s.dev.opDone.makeFree b count).unlist b).formatTables = d := hd.symm
    have hprog : s.dev.opDone.programmed s.ctx .command .ok = ((s.dev.opDone.makeFree b count).unlist b).formatMap s.ctx :=
      (Device.programmed_formatHeader_normal (d := s.dev.opDone) h.normal h.command h.at_ h.progress).1.trans
        (Device.formatFreed_last hcommitted htodo)
    have hex : d.ex = some x := by rw [hd]; exact h.command
    have hfc : d.fc = { s.dev.fc with op := none } := by rw [hd]
    have hfree : d.fc.Free := hfc ▸ halone.free
    have hreclaim : d.reclaim.job = s.dev.reclaim.job := by rw [hd]
    have hbad : cause = Decidable.decide (d.badCount ≠ 0) := by
      have hcount : d.badCount = 0 ↔ ∀ c, c ≠ b → (s.dev.bank c).state ≠ .bad := by
        rw [hd]
        exact s.dev.badCount_setBank_eq_zero (by simp)
      exact hcause.trans (decide_eq_decide.mpr (not_congr hcount.symm))
    refine ⟨fun hends causes hcauses => ?ends, fun hmap husable hcount hactive open_ hopen hfreeCount => ?map⟩
    case ends =>
      have hphase : d.commandPhase ≠ .waitingSpace :=
        Device.Steady.phase ⟨fun y hy => by cases hex.symm.trans hy; rw [h.at_]; rfl, fun w hw => h.writer w (hreclaim ▸ hw)⟩
      have hdcauses : d.causes = s.dev.causes := by rw [hd]; rfl
      have hdflags : d.flags = s.dev.flags := by rw [hd]; rfl
      have hreleased : d.reclaim.released = { d.reclaim with job := .idle, victim := none } := by
        rcases hjob with hj | hj <;> exact Reclaim.released_halted (hreclaim.trans hj)
      refine exec_lineProgram_ends halone.op herased rfl (programOutcome_asIntended _ rfl)
        (hprog.trans (Device.formatMap_finishes htables hbad (hends.imp_right (Device.mapImpossible_iff d).mpr) (hdcauses ▸ hcauses)
          hex h.code h.noMember h.progress hcommitted hphase)) ?_
      rw [Device.formatCommitted, hreleased, hdflags]
      exact Device.settle_atRest _ _ (Device.executingEnded_atRest hfree.command hfree.reclaim hfree.mount hfree.erase
        (Reclaim.steady_of_noWriter rfl))
    case map =>
      have hne : d.badCount ≠ 0 := by simpa [hmap] using hbad.symm
      have hpossible := d.mapImpossible_eq_false.mpr ⟨husable, hcount⟩
      refine exec_lineProgram_ends halone.op herased rfl (programOutcome_asIntended _ rfl)
        (hprog.trans (Device.formatMap_opens htables h.normal hex hne hpossible hactive hopen hfreeCount)) ?_
      rw [FlashController.regranted, ← hfc]
      exact Device.settle_granted_format
        (x := { x with stage := .writing (writerAt (mapRecord (d.banksIn .bad)) (.opening open_ 1)) }) h.normal rfl h.progress h.granted
        rfl (fun w hw => h.writer w (hreclaim ▸ hw)) hfree rfl
  case remounts =>
    generalize hu : ((s.dev.opDone.markSuspect b).emptyInto b .bad).unlist b = u
    have hbad : ∀ c, (u.bank c).state = .bad := by
      intro c
      have hentry := Device.state_setBank (d := s.dev.opDone.markSuspect b)
        (e := { (s.dev.opDone.markSuspect b).bank b with state := .bad, used := 0, dead := 0, tagged := 0 }) rfl
        (fun c hc => (congrArg BankEntry.state (Device.bank_setBank_other s.dev.opDone _ hc)).trans (hbanks c hc)) c
      rw [← hu]
      exact hentry
    have hanchor : u.formatAnchor = none := Device.formatAnchor_none hbad (by rw [← hu]; exact hlist)
    have hprog : s.dev.opDone.programmed s.ctx .command (.fault (.raw bytes) false) = (u.executingEnded x .ok 0).beginMount := by
      rw [(Device.programmed_formatHeader_normal (d := s.dev.opDone) h.normal h.command h.at_ h.progress).2,
        Device.formatFailed_ends hcommitted (by rw [hu]; exact hanchor), hu,
        Device.formatFinish_uncommitted (by rw [← hu]; exact h.command) h.code h.noMember h.progress hcommitted]
    have hreset : (u.executingEnded x .ok 0).resetTables = d.resetTables := by
      rw [hd, Device.resetTables_executingEnded, Device.resetTables_executingEnded, ← hu]
      rfl
    have hfc : (u.executingEnded x .ok 0).fc = { s.dev.fc with op := none } := by
      obtain ⟨fifo, buffers, hend⟩ := u.executingEnded_frame x .ok 0
      rw [hend, ← hu]
      rfl
    refine exec_lineProgram_ends halone.op herased rfl (programOutcome_fault rfl (by simp [readsAs])) hprog ?_
    rw [← hreset]
    exact Device.settle_beginMount h.normal (Device.executingEnded_ex _ _ _ _) halone.free hfc

end Sys2Proof.Machine
end

section
/-! Mount's reads and its end (R16, R151, R159, R160): the request that follows a census read, granted or refused in the same step, and
what the hand-off leaves in the registers. -/
namespace Sys2Proof.Machine
open Sys2Proof

/-! ## The end of a step of mount (R13, R16, R160) -/

theorem FlashController.Free.grant_mount {fc : FlashController} (h : fc.Free) (r : Request) :
    ({ fc with waitMount := some r } : FlashController).grant .mount r = fc.granted .mount r := by
  obtain ⟨hop, herase, hcommand, hreclaim, hmount, hdecided⟩ := h
  cases fc
  cases r <;> simp_all [FlashController.grant, FlashController.granted, FlashController.unwait, FlashController.fairnessAfter]

/-- The Mount Unit's request at a free controller is granted in the same step. -/
theorem Device.settle_granted_mount {c : Ctx} {d : Device} {fc : FlashController} {r : Request} (hw : c.warning = false) (hs : d.Steady)
    (hfree : fc.Free) (hfc : d.fc = { fc with waitMount := some r }) : d.settle c = { d with fc := fc.granted .mount r } := by
  have hone : d.fc.OneMount r := by
    rw [hfc]
    exact ⟨hfree.op, hfree.erase, hfree.command, hfree.reclaim, rfl⟩
  rw [Device.settle_oneMount c d r hw (Device.noWake_of_steady c hs) hone, ← hfree.grant_mount, ← hfc]
  rfl

/-- Under the warning the Mount Unit's request is refused, and mount stops (R16, R160). -/
theorem Device.settle_refused_mount {c : Ctx} {d : Device} {fc : FlashController} {r : Request} (hw : c.warning = true) (hs : d.Steady)
    (hfree : fc.Free) (hfc : d.fc = { fc with waitMount := some r }) : d.settle c = { d with mount := .idle, fc := fc } := by
  have hrefused : d.refuseWaiting c = { d with mount := .idle, fc := fc } := by
    have hunwait : d.fc.unwait .mount = fc := by
      rw [hfc, FlashController.unwait, ← hfree.mount]
    have hcommand : d.refuseCommand = d := if_neg (by simp [hfc, hfree.command])
    have hreclaim : d.refuseReclaim = d := if_neg (by simp [hfc, hfree.reclaim])
    rw [Device.refuseWaiting_eq d hw, hcommand, hreclaim, Device.refuseMount, if_pos (by rw [hfc]; rfl), hunwait]
    rfl
  have hk := Device.noWake_of_steady (d := { d with mount := .idle, fc := fc }) c ⟨hs.command, hs.writer⟩
  unfold Device.settle
  rw [hrefused, hk.reclaim, hk.command, Device.refuseWaiting_of_none c _ hfree.command hfree.reclaim hfree.mount, Device.arbitrate,
    if_pos hw]

/-! ## The census reads (R151; log entry 39) -/

theorem bankOf_val (b : BankId) : bankOf b.val = b := Fin.ofNat_val_eq_self b

/-- A bank that is not the last has its census result: the next bank's lines 0 to 2 are requested. -/
theorem Device.censusDone_requests (d : Device) {rows : List CensusRow} (h : rows.length < 32) :
    d.censusDone rows =
      { d with mount := .census rows, fc := { d.fc with waitMount := some (.read (bankOf rows.length) 0 3) } } := by
  unfold Device.censusDone
  exact if_pos h

/-- A bank whose header line reads erased has its journal read next. -/
theorem Device.mountRead_headerErased {d : Device} {f : Flash} {b : BankId} {rows : List CensusRow} {row : CensusRow}
    (hm : d.mount = .census rows)
    (hrow : row = { header := f.line b 0, openLine := f.line b 1, retire := f.line b 2, restErased := false })
    (hh : row.header = Line.erased) :
    d.mountRead (f.lines b 0 3) =
      { d with mount := .censusRest rows row, fc := { d.fc with waitMount := some (.read (bankOf rows.length) 3 125) } } := by
  subst hrow
  have hlines : f.lines b 0 3 = [f.line b 0, f.line b 1, f.line b 2] := rfl
  unfold Device.mountRead
  rw [hm, hlines]
  exact if_pos (by simpa [Line.isErased_iff] using hh)

/-- A read of mount whose outcome requests another: the grant in NORMAL, the refusal under WARNING. -/
theorem exec_mountRead_requests {s : State} {b : BankId} {first count : Nat} {unit : MountUnit} {r : Request} (hs : s.dev.Steady)
    (halone : s.dev.fc.Alone .mount (.read b first count))
    (hread : s.dev.opDone.mountRead (s.flash.lines b first count) =
      { s.dev.opDone with mount := unit, fc := { s.dev.opDone.fc with waitMount := some r } }) :
    (s.power.warning = false →
      exec .multiLineReadOutcome s = .next { s with dev := { s.dev with mount := unit, fc := s.dev.fc.regranted .mount r } }) ∧
    (s.power.warning = true →
      exec .multiLineReadOutcome s = .next { s with dev := { s.dev with mount := .idle, fc := { s.dev.fc with op := none } } }) := by
  have hends {d : Device} := exec_read_ends (d := d) halone.op hread
  exact ⟨fun hw => hends (Device.settle_granted_mount hw ⟨hs.command, hs.writer⟩ halone.free rfl),
    fun hw => hends (Device.settle_refused_mount hw ⟨hs.command, hs.writer⟩ halone.free rfl)⟩

/-! ## The hand-off (R159) -/

/-- What the hand-off leaves: the store state and the outcome by generation and causes, the counters' causes, the RETIRED banks listed. -/
structure Device.HandedOff (d : Device) : Prop where
  store : d.store = if d.generation = none then .blank else if d.causes.any then .degraded else .ready
  outcome : d.mountOutcome = if d.generation = none then .blank else if d.causes.any then .degraded else .ready
  mounted : d.flags.mounted = true
  degraded : d.store = .degraded → d.flags.degraded = true
  unit : d.mount = .idle
  eraseList : d.reclaim.eraseList = d.banksIn .retired
  handed : d.banksHanded = d.reclaim.eraseList.length
  sequence : 0xFFFFFF00 < d.nextSeq → d.causes.sequence = true
  epoch : 0xFFFFFF00 < d.nextEpoch → d.causes.epoch = true

theorem Device.handOff_handedOff (d : Device) : d.handOff.HandedOff where
  store := by simp only [Device.handOff, Option.isNone_iff_eq_none]
  outcome := by simp only [Device.handOff, Option.isNone_iff_eq_none]
  mounted := rfl
  degraded h := Bool.or_eq_true_iff.mpr (.inr (decide_eq_true h))
  unit := rfl
  eraseList := rfl
  handed := rfl
  sequence h := Bool.or_eq_true_iff.mpr (.inr (decide_eq_true h))
  epoch h := Bool.or_eq_true_iff.mpr (.inr (decide_eq_true h))

theorem Device.finishMount_handedOff (d : Device) (rows : List CensusRow) (scans : List ScanBank) :
    (d.finishMount rows scans).HandedOff := Device.handOff_handedOff _

/-- The last journal's read ends mount. -/
theorem exec_lastScan {s : State} {rows : List CensusRow} {b c : BankId} {epoch first count : Nat} {done scans : List ScanBank}
    (hs : s.dev.Steady) (hm : s.dev.mount = .scan rows [(b, epoch)] done) (halone : s.dev.fc.Alone .mount (.read c first count))
    (hscans : scans = done ++ [{ bank := b, epoch := epoch, append := (parseJournal (s.flash.lines c first count)).append
                                 records := (parseJournal (s.flash.lines c first count)).records }]) :
    exec .multiLineReadOutcome s = .next { s with dev := s.dev.opDone.finishMount rows scans } := by
  refine exec_read_ends halone.op ?_ (Device.settle_atRest _ _
    (Device.finishMount_atRest (d := s.dev.opDone) ⟨hs.command, hs.writer⟩ halone.free rows scans))
  rw [hscans]
  exact Device.mountRead_last (d := s.dev.opDone) _ hm

/-- Settles O47: every census read ends in one more request, and the last scan read in the hand-off. -/
theorem mountReadsAndHandsOff : Obligations.MountReadsAndHandsOff := by
  refine ⟨fun s rows row b hs hm halone hrow => ?census, fun s rows b c epoch first count done hs hm halone => ?handsOff⟩
  case census =>
    have hnext (hh : row.header ≠ Line.erased) (hlen : rows.length + 1 < 32) :=
      exec_mountRead_requests hs halone ((Device.mountRead_census s.dev.opDone s.flash b rows row hm hrow hh).trans
        (s.dev.opDone.censusDone_requests (rows := rows ++ [row]) (by simpa using hlen)))
    have hrest (hh : row.header = Line.erased) :=
      exec_mountRead_requests hs halone (Device.mountRead_headerErased (d := s.dev.opDone) hm hrow hh)
    refine ⟨fun next hw hh hlen hn => ?_, fun this hw hh hn => ?_, fun hw hor => ?_⟩
    · have hbank : bankOf (rows ++ [row]).length = next := by rw [List.length_append, List.length_singleton, ← hn, bankOf_val]
      exact hbank ▸ (hnext hh hlen).1 hw
    · have hbank : bankOf rows.length = this := by rw [← hn, bankOf_val]
      exact hbank ▸ (hrest hh).1 hw
    · by_cases hh : row.header = Line.erased
      · exact (hrest hh).2 hw
      · exact (hnext hh (hor.resolve_left hh)).2 hw
  case handsOff =>
    obtain ⟨scans, hexec⟩ : ∃ scans, exec .multiLineReadOutcome s = .next { s with dev := s.dev.opDone.finishMount rows scans } :=
      ⟨_, exec_lastScan hs hm halone rfl⟩
    obtain ⟨hstore, houtcome, hmounted, hdegraded, hunit, hlist, hhanded, hseq, hepoch⟩ := s.dev.opDone.finishMount_handedOff rows scans
    rw [(s.dev.opDone.finishMount_built rows scans).generation] at hstore houtcome
    exact ⟨_, hexec, hstore, houtcome, hmounted, hdegraded, hunit, hlist, hhanded, hseq, hepoch⟩

end Sys2Proof.Machine
end

section
/-! FORMAT with the Reclaim Engine stopped (R161, R162, R163): the anchor bank, and the first erase or header program, granted in the step
of the command. -/
namespace Sys2Proof.Machine
open Sys2Proof

/-! ## The anchor (R162) -/

/-- The order of case 4 of R162: fewer needed records, then the lower erase count. -/
theorem ranks_fewerNeeded (d : Device) :
    Ranks fun a b => Decidable.decide (d.neededIn a < d.neededIn b) ||
      (Decidable.decide (d.neededIn a = d.neededIn b) && Decidable.decide ((d.bank a).wear < (d.bank b).wear)) where
  asymm x y h := by
    simp only [Bool.or_eq_true, Bool.and_eq_true, decide_eq_true_eq, Bool.or_eq_false_iff, Bool.and_eq_false_imp,
      decide_eq_false_iff_not] at *
    omega
  trans x y z h k := by
    simp only [Bool.or_eq_false_iff, Bool.and_eq_false_imp, decide_eq_true_eq, decide_eq_false_iff_not] at *
    omega

/-- The bank that case 4 of R162 takes. -/
theorem Device.fullestAnchor_eq_some {d : Device} {b : BankId} (h : d.fullestAnchor = some b) :
    ((d.bank b).state = .full ∨ (d.bank b).state = .reclaiming) ∧
      ∀ c, (d.bank c).state = .full ∨ (d.bank c).state = .reclaiming → d.neededIn b ≤ d.neededIn c := by
  refine ⟨by simpa using pick_mem _ _ _ h, fun c hc => ?_⟩
  have hbest := pick_best (ranks_fewerNeeded d) h (x := c) (by simpa using hc)
  simp only [Bool.or_eq_false_iff, decide_eq_false_iff_not] at hbest
  exact Nat.le_of_not_lt hbest.1

/-- The cases of R162, the first that applies. -/
theorem Device.formatAnchor_cases {d : Device} {b : BankId} (h : d.formatAnchor = some b) :
    (∀ c cs, d.banksIn .blank = c :: cs → b = c) ∧
    (d.banksIn .blank = [] → ∀ c, d.freeToOpen = some c → b = c) ∧
    (d.banksIn .blank = [] → d.freeToOpen = none → ∀ c cs, d.reclaim.eraseList = c :: cs → b = c) ∧
    (d.banksIn .blank = [] → d.freeToOpen = none → d.reclaim.eraseList = [] → d.fullestAnchor = some b) := by
  unfold Device.formatAnchor at h
  refine ⟨fun c cs hc => ?_, fun hblank c hc => ?_, fun hblank hfree c cs hc => ?_, fun hblank hfree hlist => ?_⟩
  · simpa [hc, eq_comm] using h
  · simpa [hblank, hc, eq_comm] using h
  · simpa [hblank, hfree, hc, eq_comm] using h
  · simpa [hblank, hfree, hlist] using h

/-! ## The first request (R161, R163, R167) -/

/-- FORMAT begins with a bank: its request at the Flash Controller. -/
theorem Device.formatBank_requests {d : Device} {x : Executing} (f : FormatProgress) (b : BankId) (hx : d.ex = some x) :
    ∃ stage r, stage.steady = true ∧
      d.formatBank f b = { d with ex := some { x with stage := stage }, fc := { d.fc with waitCommand := some r } } ∧
      ((d.bank b).state ≠ .blank → stage = .formatErase b false ∧ r = .erase b) ∧
      ((d.bank b).state = .blank → stage = .formatHeader b false (d.nextEraseCount b) ∧
        r = .program b 0 (.bankHeader (d.formatGeneration f) (d.nextEraseCount b) 0)) := by
  unfold Device.formatBank
  by_cases hb : (d.bank b).state = .blank
  · exact ⟨_, _, rfl, (if_pos hb).trans (Device.formatHeaderOf_requests f b false hx), fun hn => absurd hb hn, fun _ => ⟨rfl, rfl⟩⟩
  · exact ⟨_, _, rfl, (if_neg hb).trans (Device.formatEraseOf_requests b false hx), fun _ => ⟨rfl, rfl⟩, fun hy => absurd hy hb⟩

/-- FORMAT's first request at a free controller is granted in the same step, and FORMAT notes it (R167). -/
theorem Device.settle_firstGrant {c : Ctx} {d : Device} {x : Executing} {f : FormatProgress} {fc : FlashController} {r : Request}
    (hw : c.warning = false) (hx : d.ex = some x) (hf : x.format = some f) (hs : d.Steady) (hfree : fc.Free)
    (hfc : d.fc = { fc with waitCommand := some r }) :
    d.settle c = { d with ex := some { x with format := some { f with granted := true } }, fc := fc.granted .command r } := by
  have hone : d.fc.OneCommand r := by
    rw [hfc]
    exact ⟨hfree.op, hfree.erase, rfl, hfree.reclaim, hfree.mount⟩
  rw [Device.settle_oneCommand c d r hw (Device.noWake_of_steady c hs) hone, Device.grantRequest, Device.noteFormatGrant, if_pos rfl]
  simp only [hx, Option.map_some, hf, hfc, hfree.grant_command]

/-- A wait that the end of a step ends: the rest of the step is that of the device that goes on. -/
theorem Device.settle_wakes {c : Ctx} {d e : Device} (hw : c.warning = false) (hr : d.reclaim.steady) (he : d.wakeCommand c = e)
    (hk : e.NoWake c) : d.settle c = e.settle c := by
  rw [Device.settle_arbitrates hw hk]
  unfold Device.settle Device.arbitrate
  rw [Device.refuseWaiting_of_normal c d hw, Device.wakeReclaim_of_noWait c d hr, he, Device.refuseWaiting_of_normal c e hw,
    if_neg (by simp [hw])]

/-! ## The Reclaim Engine stopped (R161) -/

/-- A victim held is work that the engine holds (R147). -/
theorem VictimPoint.phase_holdsWork (v : VictimPoint) : v.phase ≠ .idle ∧ v.phase ≠ .halted := by
  cases v <;> exact ⟨nofun, nofun⟩

theorem Device.reclaimPhase_idle {d : Device} (h : d.reclaimPhase = .idle) : d.reclaim.job = .idle ∧ d.reclaim.victim = none := by
  unfold Device.reclaimPhase at h
  split at h
  case h_1 hj =>
    split at h
    · exact ⟨hj, by assumption⟩
    · exact absurd h (VictimPoint.phase_holdsWork _).1
  all_goals cases h

theorem Device.reclaimPhase_halted {d : Device} (h : d.reclaimPhase = .halted) : ∃ cause, d.reclaim.job = .halted cause := by
  unfold Device.reclaimPhase at h
  split at h
  case h_1 =>
    split at h
    · cases h
    · exact absurd h (VictimPoint.phase_holdsWork _).2
  case h_11 cause hj => exact ⟨cause, hj⟩
  all_goals cases h

/-- An engine IDLE or HALTED is HALTED for FORMAT: an IDLE one with cause FORMAT, a HALTED one as it was. -/
theorem Device.haltForFormat_stopped {d : Device} (h : d.reclaimPhase = .idle ∨ d.reclaimPhase = .halted) :
    d.haltForFormat =
      { d with reclaim := if d.reclaimPhase = .idle then { d.reclaim with job := .halted .format } else d.reclaim } ∧
    d.haltForFormat.reclaimHalted = true := by
  rcases h with h | h
  · obtain ⟨hj, hv⟩ := Device.reclaimPhase_idle h
    have heq : d.haltForFormat = d.setJob (.halted .format) := if_pos ⟨hj, by simp [hv]⟩
    rw [if_pos h, heq]
    exact ⟨rfl, rfl⟩
  · obtain ⟨cause, hj⟩ := Device.reclaimPhase_halted h
    rw [Device.haltForFormat_busy (by simp [h]), if_neg (by simp [h])]
    exact ⟨rfl, d.reclaimHalted_iff.mpr h⟩

/-- With the Reclaim Engine stopped, FORMAT's wait ends at once and FORMAT begins with its anchor. -/
theorem Device.wakeCommand_formatBegins {d u : Device} {x : Executing} {f : FormatProgress} {b : BankId} (c : Ctx) (hx : d.ex = some x)
    (hs : x.stage = .formatWait) (hf : x.format = some f) (hphase : d.reclaimPhase = .idle ∨ d.reclaimPhase = .halted)
    (hu : u = { d with reclaim := if d.reclaimPhase = .idle then { d.reclaim with job := .halted .format } else d.reclaim })
    (ha : u.formatAnchor = some b) : d.wakeCommand c = u.formatBank f b := by
  obtain ⟨hhalt, hhalted⟩ := Device.haltForFormat_stopped hphase
  unfold Device.wakeCommand
  simp only [hx, hs, hf]
  rw [Device.formatWaits, if_pos hhalted, hhalt, ← hu, Device.formatChoose, ha]

/-- Of the Reclaim Engine the anchor depends on the erase list alone (R162). -/
theorem Device.formatAnchor_reclaim (d : Device) {r : Reclaim} (h : r.eraseList = d.reclaim.eraseList) :
    ({ d with reclaim := r } : Device).formatAnchor = d.formatAnchor := by
  have hanchor : ({ d with reclaim := r } : Device).formatAnchor =
      ((d.banksIn .blank).head?.or d.freeToOpen).or (r.eraseList.head?.or d.fullestAnchor) := rfl
  rw [hanchor, h, Device.formatAnchor]

/-- A FORMAT that waits while the Reclaim Engine is stopped begins in the same step: the anchor's request is granted. -/
theorem Device.settle_formatBegins {c : Ctx} {d u : Device} {x : Executing} {f : FormatProgress} {b : BankId} (hw : c.warning = false)
    (hx : d.ex = some x) (hs : x.stage = .formatWait) (hf : x.format = some f)
    (hphase : d.reclaimPhase = .idle ∨ d.reclaimPhase = .halted) (hr : d.reclaim.steady) (hfree : d.fc.Free)
    (hu : u = { d with reclaim := if d.reclaimPhase = .idle then { d.reclaim with job := .halted .format } else d.reclaim })
    (ha : d.formatAnchor = some b) :
    ∃ stage r,
      d.settle c =
        { u with
          ex := some { x with stage := stage, format := some { f with granted := true } }, fc := d.fc.granted .command r } ∧
      ((u.bank b).state ≠ .blank → stage = .formatErase b false ∧ r = .erase b) ∧
      ((u.bank b).state = .blank → stage = .formatHeader b false (u.nextEraseCount b) ∧
        r = .program b 0 (.bankHeader (u.formatGeneration f) (u.nextEraseCount b) 0)) := by
  have hux : u.ex = some x := by rw [hu]; exact hx
  have hufree : u.fc.Free := by rw [hu]; exact hfree
  have hur : u.reclaim.steady := by
    rw [hu]
    dsimp only
    split
    · exact Reclaim.steady_of_noWriter rfl
    · exact hr
  have hanchor : u.formatAnchor = some b := by
    rw [← ha, hu]
    exact d.formatAnchor_reclaim (by split <;> rfl)
  obtain ⟨stage, r, hsteady, hbank, herase, hheader⟩ := Device.formatBank_requests f b hux
  have hwake := Device.wakeCommand_formatBegins c hx hs hf hphase hu hanchor
  rw [hbank] at hwake
  have hst : ({ u with ex := some { x with stage := stage }, fc := { u.fc with waitCommand := some r } } : Device).Steady :=
    ⟨fun y hy => by cases hy; exact hsteady, hur⟩
  refine ⟨stage, r, ?_, herase, hheader⟩
  rw [Device.settle_wakes hw hr hwake (Device.noWake_of_steady c hst),
    Device.settle_firstGrant (x := { x with stage := stage }) hw rfl hf hst hufree rfl, hu]

/-- Settles O22: the command's own step leaves it waiting for a stopped engine, and the end of the step begins with the anchor. -/
theorem formatBegins : Obligations.FormatBegins := by
  refine ⟨fun d b h => ?anchor, fun s p rest b h hc hr hphase ha => ?begins⟩
  case anchor =>
    obtain ⟨hblank, hfree, hlist, hfullest⟩ := Device.formatAnchor_cases h
    exact ⟨hblank, hfree, hlist, fun h1 h2 h3 => Device.fullestAnchor_eq_some (hfullest h1 h2 h3)⟩
  case begins =>
    have hturn := h.toTurn
    have hstep : (s.headTaken p rest).makeStep { cfg := s.cfg, warning := false } = _ :=
      (State.headTaken_step rest _ (by simp [hc])).trans (Device.startCommand_format _ hc hr rfl)
    obtain ⟨stage, r, hsettle, herase, hheader⟩ := Device.settle_formatBegins (c := { cfg := s.cfg, warning := false })
      (d := ({ s.dev with queue := rest, ex := some (s.headExecuting p) } : Device).formatTaken) rfl rfl rfl rfl hphase hturn.writer
      h.free rfl ha
    refine ⟨stage, r, ?_, herase, fun hb count generation hcount hgen => ?_⟩
    · rw [hturn.exec_takeCommand, hstep, hsettle]
      rfl
    · subst hcount hgen
      exact hheader hb

end Sys2Proof.Machine
end

section
/-! The Directory that mount builds (R152, R153, R154): the keys that take an entry, the record that describes each, and the user entries
that are loaded. -/
namespace Sys2Proof.Machine
open Sys2Proof

/-! ## The newest record (R154) -/

theorem Found.newer_iff (a b : Found) :
    a.newer b = true ↔ b.header.seq < a.header.seq ∨
      (b.header.seq = a.header.seq ∧ (b.epoch < a.epoch ∨ (b.epoch = a.epoch ∧ b.loc.line < a.loc.line))) := by
  unfold Found.newer
  simp only [Bool.or_eq_true, Bool.and_eq_true, decide_eq_true_eq, eq_comm (a := a.header.seq), eq_comm (a := a.epoch)]

/-- The element that is better than every other is the one chosen. -/
theorem pick_eq_some_of_best {α : Type} {better : α → α → Bool} (h : Ranks better) {l : List α} {a : α} (ha : a ∈ l)
    (hbest : ∀ x ∈ l, x = a ∨ better a x = true) : pick better l = some a := by
  cases hp : pick better l with
  | none => exact absurd (pick_eq_none.mp hp) (List.ne_nil_of_mem ha)
  | some x =>
    rcases hbest x (pick_mem _ _ _ hp) with rfl | hx
    · rfl
    · rw [pick_best h hp ha] at hx
      cases hx

/-! ## The base sequence (R154) -/

theorem leastSeq_le {l : List Found} {f : Found} (h : f ∈ l) : leastSeq l ≤ f.header.seq := by
  fun_induction leastSeq l with
  | case1 => cases h
  | case2 x => rw [List.mem_singleton.mp h]
  | case3 x rest _ ih =>
    rcases List.mem_cons.mp h with rfl | h
    · exact Nat.min_le_left _ _
    · exact Nat.le_trans (Nat.min_le_right _ _) (ih h)

theorem leastSeq_mem {l : List Found} (h : l ≠ []) : ∃ f ∈ l, f.header.seq = leastSeq l := by
  fun_induction leastSeq l with
  | case1 => exact absurd rfl h
  | case2 x => exact ⟨x, List.mem_singleton_self x, rfl⟩
  | case3 x rest hrest ih =>
    obtain ⟨f, hf, hseq⟩ := ih hrest
    rcases Nat.le_total x.header.seq (leastSeq rest) with hle | hle
    · exact ⟨x, List.mem_cons_self .., (Nat.min_eq_left hle).symm⟩
    · exact ⟨f, List.mem_cons_of_mem x hf, hseq.trans (Nat.min_eq_right hle).symm⟩

/-- A TOMBSTONE of the least sequence puts the base above itself. -/
theorem mountBase_tombstone {l : List Found} {t : Found} (ht : t ∈ l) (hk : t.header.kind = .tombstone)
    (hleast : ∀ f ∈ l, t.header.seq ≤ f.header.seq) : mountBase l = t.header.seq + 1 := by
  obtain ⟨f, hf, hseq⟩ := leastSeq_mem (List.ne_nil_of_mem ht)
  have hmin : t.header.seq = leastSeq l := Nat.le_antisymm (hseq ▸ hleast f hf) (leastSeq_le ht)
  rw [hmin]
  exact if_pos (List.any_eq_true.mpr ⟨t, ht, by simp [hmin, hk]⟩)

/-- Without a TOMBSTONE of the least sequence the base is 1. -/
theorem mountBase_one {l : List Found} (h : ∀ t ∈ l, t.header.kind = .tombstone → ∃ f ∈ l, f.header.seq < t.header.seq) :
    mountBase l = 1 := by
  refine if_neg fun hany => ?_
  obtain ⟨t, ht, hseq, hk⟩ : ∃ t ∈ l, t.header.seq = leastSeq l ∧ t.header.kind = .tombstone := by simpa using hany
  obtain ⟨f, hf, hlt⟩ := h t ht hk
  have := leastSeq_le hf
  omega

/-! ## The keys that take an entry (R44, R154) -/

theorem mem_putKey {k x : Key} {l : List Key} : x ∈ putKey k l ↔ x = k ∨ x ∈ l := by
  refine ⟨putKey_mem k l x, fun h => ?_⟩
  induction l with
  | nil => simpa [putKey] using h
  | cons y l ih =>
    unfold putKey
    split
    · simpa using h
    · split
      · next heq => simpa [heq] using h
      · rw [List.mem_cons] at h ⊢
        exact (or_left_comm.mp h).imp id ih

theorem mem_mountKeys {counting : List Found} {k : Key} :
    k ∈ mountKeys counting ↔ ∃ f ∈ counting, f.header.kind ≠ .commit ∧ f.header.key = k := by
  have h (l : List Found) (acc : List Key) :
      k ∈ l.foldl (fun acc f => putKey f.header.key acc) acc ↔ (∃ f ∈ l, f.header.key = k) ∨ k ∈ acc := by
    induction l generalizing acc with
    | nil => simp
    | cons f l ih => simp [ih, mem_putKey, eq_comm, or_left_comm, or_assoc]
  simp [mountKeys, h, and_assoc]

theorem mem_mountEntries {counting : List Found} {e : DirEntry} :
    e ∈ mountEntries counting ↔ e.key ∈ mountKeys counting ∧ mountKey counting e.key = some e := by
  unfold mountEntries
  rw [List.mem_filterMap]
  constructor
  · rintro ⟨k, hk, he⟩
    rw [mountKey_key counting k e he]
    exact ⟨hk, he⟩
  · exact fun ⟨hk, he⟩ => ⟨_, hk, he⟩

theorem mountEntries_rising (counting : List Found) : (mountEntries counting).Pairwise fun a b => a.key < b.key := by
  unfold mountEntries
  rw [List.pairwise_filterMap]
  refine (mountKeys_rising counting).imp fun {a b} hab x hx y hy => ?_
  rw [mountKey_key counting a x hx, mountKey_key counting b y hy]
  exact hab

/-! ## The entry of a key (R153, R154) -/

/-- The records without a group id, or tagged with the id of an intact COMMIT record. -/
theorem Found.untaggedOrCommitted_eq (counting : List Found) (f : Found) :
    f.untaggedOrCommitted (committedIds counting) =
      Decidable.decide (f.header.gid = none ∨ ∃ h ∈ counting, h.verdict = .intact ∧ h.header.kind = .commit ∧
        f.header.gid = some (natOf (h.payload.take 4))) := by
  rw [Bool.eq_iff_iff, decide_eq_true_eq]
  unfold Found.untaggedOrCommitted
  cases hg : f.header.gid with
  | none => simp
  | some g =>
    have hid (h : Found) : g = natOf (h.payload.take 4) ↔ commitGid h.payload = g := eq_comm
    simp [committedIds, hid, and_assoc]

/-- The entry of a key with a valid record that is newer than every other. -/
theorem mountKey_selected {counting mine : List Found} {k : Key} {sel : Found}
    (hmine : mine = (validFound counting).filter fun f => Decidable.decide (f.header.key = k)) (hsel : sel ∈ mine)
    (hnew : ∀ f ∈ mine, f = sel ∨ sel.newer f = true) : mountKey counting k = mountEntry mine sel := by
  have hpick := pick_eq_some_of_best ranks_newer hsel hnew
  unfold mountKey
  dsimp only
  rw [← hmine, hpick]

/-- A key without a valid record takes at most a DAMAGED entry. -/
theorem mountKey_noValid {counting mine : List Found} {k : Key}
    (hmine : mine = (validFound counting).filter fun f => Decidable.decide (f.header.key = k)) (hnone : mine = []) :
    mountKey counting k = mountDamaged counting k := by
  unfold mountKey
  dsimp only
  rw [← hmine, hnone]
  rfl

/-- The entry that a selected record calls for, none for a spent TOMBSTONE. -/
theorem mountEntry_eq {mine : List Found} {sel : Found} {e : DirEntry}
    (he : e = { key := sel.header.key, cls := sel.header.cls, state := if sel.header.kind = .tombstone then .tombstone else .live
                loc := some sel.loc, length := sel.header.length, seq := sel.header.seq, base := mountBase mine
                stale := (mine.filter fun f => Decidable.decide (mountBase mine ≤ f.header.seq ∧ f.header.seq < sel.header.seq)).length
                copies := (mine.filter fun f => Decidable.decide (f.header.seq = sel.header.seq)).length - 1 }) :
    mountEntry mine sel = if e.state = .tombstone ∧ e.stale = 0 then none else some e := by
  have hstate : (if sel.header.kind = .tombstone then EntryState.tombstone else .live) = .tombstone ↔ sel.header.kind = .tombstone := by
    split <;> simp [*]
  unfold mountEntry
  simp only [he, hstate, Bool.decide_and]

/-! ## The entries loaded (R154) -/

theorem loadedEntries_users (n : Nat) (l : List DirEntry) :
    (loadedEntries n l).filter (fun e => isUserKey e.key) = (l.filter fun e => isUserKey e.key).take n := by
  induction l generalizing n with
  | nil => cases n <;> simp [loadedEntries]
  | cons e l ih => cases n <;> cases hu : isUserKey e.key <;> simp [loadedEntries, hu, ih]

/-- Every system entry is loaded. -/
theorem mem_loadedEntries_system (n : Nat) {l : List DirEntry} {e : DirEntry} (he : e ∈ l) (hu : isUserKey e.key = false) :
    e ∈ loadedEntries n l := by
  induction l generalizing n with
  | nil => cases he
  | cons x l ih =>
    rcases List.mem_cons.mp he with rfl | he
    · cases n <;> simp [loadedEntries, hu]
    · cases n <;> cases hx : isUserKey x.key <;> simp [loadedEntries, hx, ih _ he]

/-- The Directory and the cause DIRECTORY after the entries that the records call for were loaded. -/
structure Device.Loads (d : Device) (entries : List DirEntry) : Prop where
  rising : entries.Pairwise fun a b => a.key < b.key
  dir : d.dir = loadedEntries 376 entries
  cause : d.causes.directory = Decidable.decide (376 < (entries.filter fun e => isUserKey e.key).length)

section
variable {d : Device} {entries : List DirEntry}

theorem Device.Loads.ordered (h : d.Loads entries) : d.ordered := by
  unfold Device.ordered
  rw [h.dir]
  exact h.rising.sublist (loadedEntries_sublist _ _)

theorem Device.Loads.users (h : d.Loads entries) :
    (d.dir.filter fun e => isUserKey e.key) = (entries.filter fun e => isUserKey e.key).take 376 := by
  rw [h.dir, loadedEntries_users]

theorem Device.Loads.entry_none (h : d.Loads entries) {k : Key} (hk : ∀ e ∈ entries, e.key ≠ k) : d.entry k = none := by
  refine List.find?_eq_none.mpr fun e he hek => hk e ?_ (of_decide_eq_true hek)
  rw [h.dir] at he
  exact (loadedEntries_sublist _ _).subset he

/-- A user entry left out lies above every user key loaded. -/
theorem Device.Loads.entry_or (h : d.Loads entries) {k : Key} {e : DirEntry} (he : e ∈ entries) (hk : e.key = k) :
    d.entry k = some e ∨ (d.causes.directory = true ∧ isUserKey k = true ∧ d.entry k = none ∧
      ∀ x ∈ d.dir, isUserKey x.key = true → x.key < k) := by
  subst hk
  have hloaded (hm : e ∈ d.dir) : d.entry e.key = some e := Device.entry_of_mem h.ordered hm
  cases hu : isUserKey e.key with
  | false => exact .inl (hloaded (by rw [h.dir]; exact mem_loadedEntries_system _ he hu))
  | true =>
    refine (mem_take_or (h.rising.filter fun e => isUserKey e.key) (List.mem_filter.mpr ⟨he, hu⟩) 376).imp
      (fun hm => hloaded (List.mem_filter.mp (h.users ▸ hm)).1) fun ⟨hlt, _, habove⟩ => ?_
    have habove : ∀ x ∈ d.dir, isUserKey x.key = true → x.key < e.key :=
      fun x hx hxu => habove x (h.users ▸ List.mem_filter.mpr ⟨hx, hxu⟩)
    refine ⟨h.cause.trans (decide_eq_true hlt), rfl, List.find?_eq_none.mpr fun x hx hxk => ?_, habove⟩
    have hxk : x.key = e.key := of_decide_eq_true hxk
    exact BitVec.lt_irrefl e.key (by simpa only [hxk] using habove x hx (hxk ▸ hu))

theorem Device.Loads.count_le (h : d.Loads entries) : (d.dir.filter fun e => isUserKey e.key).length ≤ 376 := by
  rw [h.users]
  exact List.length_take_le _ _

theorem Device.Loads.count_full (h : d.Loads entries) (hc : d.causes.directory = true) :
    (d.dir.filter fun e => isUserKey e.key).length = 376 := by
  have hlt := of_decide_eq_true (h.cause.symm.trans hc)
  rw [h.users, List.length_take]
  exact Nat.min_eq_left (Nat.le_of_lt hlt)

end

theorem Device.finishMount_loads {d : Device} {rows : List CensusRow} {scans opened : List ScanBank} {counting : List Found}
    (hopened : opened = openedScans rows scans)
    (hcounting : counting = foundIn (opened.filter fun x => !(banksListed (bankMapTaken opened)).contains x.bank))
    (hd : d.causes.directory = false) : (d.finishMount rows scans).Loads (mountEntries counting) := by
  subst hopened hcounting
  exact ⟨mountEntries_rising _, rfl, congrArg (· || _) hd⟩

/-- The DAMAGED entry of a user key, described by its newest damaged record. -/
theorem mountDamaged_eq {counting bad : List Found} {k : Key} (hu : isUserKey k = true)
    (hbad : bad = counting.filter fun f => Decidable.decide (f.header.key = k ∧ f.verdict = .damaged) &&
      f.untaggedOrCommitted (committedIds counting)) :
    mountDamaged counting k = (pick Found.newer bad).map fun f =>
      { key := k, cls := f.header.cls, state := .damaged, loc := some f.loc, length := f.header.length, seq := f.header.seq
        base := f.header.seq, stale := 0, copies := 0 } := by
  rw [mountDamaged, if_pos hu, hbad]
  simp only [Bool.decide_and]

section
variable {d : Device} {counting : List Found} {k : Key}

theorem Device.Loads.entry_unlisted (h : d.Loads (mountEntries counting)) (hk : k ∉ mountKeys counting ∨ mountKey counting k = none) :
    d.entry k = none := by
  refine h.entry_none fun e he hek => ?_
  obtain ⟨hmem, hsome⟩ := mem_mountEntries.mp he
  rw [hek] at hmem hsome
  exact hk.elim (fun hk => hk hmem) fun hk => by simp [hk] at hsome

theorem Device.Loads.entry_called {e : DirEntry} (h : d.Loads (mountEntries counting))
    (hk : ∃ f ∈ counting, f.header.kind ≠ .commit ∧ f.header.key = k) (he : mountKey counting k = some e) :
    d.entry k = some e ∨ (d.causes.directory = true ∧ isUserKey k = true ∧ d.entry k = none ∧
      ∀ x ∈ d.dir, isUserKey x.key = true → x.key < k) := by
  have hkey := mountKey_key counting k e he
  refine h.entry_or (mem_mountEntries.mpr ?_) hkey
  rw [hkey]
  exact ⟨mem_mountKeys.mpr hk, he⟩

end

/-- Settles O48: the entries called for, key by key, and of them the ones loaded. -/
theorem mountBuildsDirectory : Obligations.MountBuildsDirectory := by
  intro s rows b c epoch first count done scans opened counting valid tagged hsteady hm halone hscans hopened hcounting htagged hvalid
    hdirectory
  have hexec := exec_lastScan hsteady hm halone hscans
  have hloads : (s.dev.opDone.finishMount rows scans).Loads (mountEntries counting) :=
    Device.finishMount_loads hopened hcounting hdirectory
  generalize s.dev.opDone.finishMount rows scans = d at hexec hloads
  have htag (f : Found) : tagged f = f.untaggedOrCommitted (committedIds counting) := by
    rw [htagged, Found.untaggedOrCommitted_eq]
  simp only [htag] at hvalid
  have hvalid : valid = validFound counting := hvalid
  subst hvalid
  refine ⟨d, hexec, fun k mine loaded hmine hloaded => ⟨fun hcommits => ?noRecord, fun sel base e hsel hkind hnew hbase he => ?selected,
    fun hnone bad hbad => ?noValid⟩, hloads.count_le, hloads.count_full⟩
  case noRecord =>
    refine hloads.entry_unlisted (.inl fun hk => ?_)
    obtain ⟨f, hf, hkind, hkey⟩ := mem_mountKeys.mp hk
    exact hkind (hcommits f hf hkey)
  case selected =>
    obtain ⟨hselValid, hkey⟩ : sel ∈ validFound counting ∧ sel.header.key = k := by simpa [hmine] using hsel
    have hbase : base = mountBase mine := by
      rcases hbase with ⟨t, ht, htomb, hleast, rfl⟩ | ⟨rfl, hno⟩
      · exact (mountBase_tombstone ht htomb hleast).symm
      · exact (mountBase_one hno).symm
    have hentry : mountKey counting k = if e.state = .tombstone ∧ e.stale = 0 then none else some e := by
      rw [mountKey_selected hmine hsel fun f hf => (hnew f hf).imp id (sel.newer_iff f).mpr]
      exact mountEntry_eq (by rw [he, hkey, hbase])
    split
    · next hspent => exact hloads.entry_unlisted (.inr (hentry.trans (if_pos hspent)))
    · next hstays =>
      rw [hloaded]
      exact hloads.entry_called ⟨sel, (mem_validFound hselValid).1, hkind, hkey⟩ (hentry.trans (if_neg hstays))
  case noValid =>
    have hentry := mountKey_noValid hmine hnone
    simp only [htag] at hbad
    refine ⟨fun hor => hloads.entry_unlisted (.inr (hentry.trans ?_)), fun sel hsel hu hrecord hnew => ?_⟩
    · cases hu : isUserKey k with
      | false => exact if_neg (by simp [hu])
      | true =>
        rw [mountDamaged_eq hu hbad, hor.resolve_left (by simp [hu])]
        rfl
    · obtain ⟨f, hf, hkey, hkind⟩ := hrecord
      rw [hloaded]
      refine hloads.entry_called ⟨f, hf, hkind, hkey⟩ (hentry.trans ?_)
      rw [mountDamaged_eq hu hbad, pick_eq_some_of_best ranks_newer hsel fun f hf => (hnew f hf).imp id (sel.newer_iff f).mpr]
      rfl

end Sys2Proof.Machine
end

section
/-! The law of the power and reset pins over one step (R179, R180, R181, R198): the judging of the sources establishes it, and no other
part of a step reaches what it speaks of, but for the end of the debounce, the resets and the frames. -/
namespace Sys2Proof.Machine
open Sys2Proof

/-- The part of the law that speaks of the sources (R179, R180): the condition is WARNING while one asserts, and the debounce is IDLE
exactly then and in NORMAL. -/
structure Power.Judged (g : Configuration) (p : Power) : Prop where
  warned : powerAsserted g p = true → p.warning = true
  idle_iff : p.debounce = .idle ↔ powerAsserted g p = true ∨ p.warning = false

/-- The part of the law that speaks of the port (R181, R198): a port that is held has no frame. -/
def State.heldWithoutFrame (s : State) : Prop := s.rstLow = true ∨ s.power.vdd < 1600 → s.port.frame = none

theorem State.powerLaw_iff (s : State) : s.powerLaw ↔ s.power.Judged s.cfg ∧ s.heldWithoutFrame :=
  ⟨fun ⟨hw, hd, hh⟩ => ⟨⟨hw, hd⟩, hh⟩, fun ⟨⟨hw, hd⟩, hh⟩ => ⟨hw, hd, hh⟩⟩

theorem State.portHeld_iff (s : State) : s.portHeld = true ↔ s.rstLow = true ∨ s.power.vdd < 1600 :=
  (Bool.or_eq_true _ _).to_iff.trans (or_congr_right decide_eq_true_iff)

/-! ## The sources (R179, R180) -/

section Judged
variable {g : Configuration} {p : Power}

theorem Power.Judged.of_asserted (ha : powerAsserted g p = true) (hw : p.warning = true) (hd : p.debounce = .idle) : p.Judged g :=
  ⟨fun _ => hw, iff_of_true hd (.inl ha)⟩

theorem Power.Judged.of_quiet (ha : powerAsserted g p = false) (hd : p.debounce = .idle ↔ p.warning = false) : p.Judged g :=
  ⟨fun h => absurd (ha.symm.trans h) nofun, hd.trans (by simp [ha])⟩

theorem Power.Judged.idle_of_normal (h : p.Judged g) (hw : p.warning = false) : p.debounce = .idle := h.idle_iff.mpr (.inr hw)

/-- A debounce that runs finds no source asserted (R180). -/
theorem Power.Judged.quiet_of_running (h : p.Judged g) (hd : p.debounce ≠ .idle) : powerAsserted g p = false :=
  Bool.eq_false_iff.mpr fun ha => hd (h.idle_iff.mpr (.inl ha))

end Judged

/-- Judged sources meet the law, whatever the sources were before, if the debounce was IDLE in NORMAL. -/
theorem State.judgePower_judged (s : State) (entry : WarningEntry) (h : s.power.warning = false → s.power.debounce = .idle) :
    (s.judgePower entry).power.Judged (s.judgePower entry).cfg := by
  cases ha : powerAsserted s.cfg s.power with
  | false =>
    rw [State.judgePower_quiet _ _ ha]
    by_cases hrises : s.power.warning = true ∧ s.power.debounce = .idle
    · rw [if_pos hrises]
      exact .of_quiet ha (iff_of_false nofun (by simp [hrises]))
    · rw [if_neg hrises]
      exact .of_quiet ha ⟨fun hd => Bool.eq_false_iff.mpr fun hw => hrises ⟨hw, hd⟩, h⟩
  | true =>
    cases hw : s.power.warning with
    | true =>
      rw [State.judgePower_again _ _ ha hw]
      exact .of_asserted ha hw rfl
    | false =>
      rw [State.judgePower_enters _ _ ha hw]
      exact .of_asserted ha rfl rfl

/-- Judging the sources leaves the port, RST# and the level of the supply. -/
theorem State.judgePower_held (s : State) (entry : WarningEntry) (h : s.heldWithoutFrame) : (s.judgePower entry).heldWithoutFrame := by
  unfold State.judgePower
  repeat' split
  all_goals exact h

theorem State.judgePower_pwr (s : State) (entry : WarningEntry) (hidle : s.power.warning = false → s.power.debounce = .idle)
    (hheld : s.heldWithoutFrame) : (s.judgePower entry).powerLaw :=
  (State.powerLaw_iff _).mpr ⟨s.judgePower_judged entry hidle, s.judgePower_held entry hheld⟩

/-- Sources that meet the law have been judged: judging them once more changes nothing. -/
theorem State.judgePower_self (s : State) (entry : WarningEntry) (h : s.power.Judged s.cfg) : s.judgePower entry = s := by
  obtain ⟨hwarned, hidle⟩ := h
  cases ha : powerAsserted s.cfg s.power with
  | false =>
    have hrunning : ¬(s.power.warning = true ∧ s.power.debounce = .idle) := fun ⟨hw, hd⟩ =>
      (hidle.mp hd).elim (by simp [ha]) (by simp [hw])
    rw [State.judgePower_quiet _ _ ha, if_neg hrunning]
  | true =>
    rw [State.judgePower_again _ _ ha (hwarned ha), ← hidle.mpr (.inl ha)]

/-! ## The debounce and its end (R180) -/

/-- The return to NORMAL keeps the law where the debounce ran: no source asserts then. -/
theorem State.recovered_pwr (s : State) (h : s.powerLaw) (hd : s.power.debounce = .armed) : s.recovered.powerLaw := by
  obtain ⟨hjudged, hheld⟩ := s.powerLaw_iff.mp h
  have hquiet := hjudged.quiet_of_running (by simp [hd])
  exact (State.powerLaw_iff _).mpr ⟨.of_quiet hquiet (iff_of_true rfl rfl), hheld⟩

theorem State.tickDebounce_pwr (s : State) (h : s.powerLaw) : s.tickDebounce.powerLaw := by
  unfold State.tickDebounce
  split
  · next hw =>
    split
    · exact h
    · next hd =>
      obtain ⟨hjudged, hheld⟩ := s.powerLaw_iff.mp h
      have hquiet := hjudged.quiet_of_running (by simp [hd])
      exact (State.powerLaw_iff _).mpr ⟨.of_quiet hquiet (iff_of_false nofun (by simp [hw])), hheld⟩
    · next hd => exact s.recovered_pwr h hd
  · exact h

/-! ## Resets and the levels of the sources (R179, R181, R198) -/

/-- After a reset both sources are judged at 2.4 V, and there is no frame. -/
theorem State.resetTo_pwr (s : State) (cut : CutShort) (low : Bool) (mv : Nat) : (s.resetTo cut low mv).powerLaw := by
  refine (State.powerLaw_iff _).mpr ⟨?_, fun _ => rfl⟩
  cases ha : powerAsserted (s.resetTo cut low mv).cfg (s.resetTo cut low mv).power with
  | false => exact .of_quiet ha (iff_of_true rfl ha)
  | true => exact .of_asserted ha ha rfl

theorem State.levels_pwr (s : State) (low : Bool) (mv : Nat) (cut : CutShort) (between : Bool) (h : s.powerLaw) :
    (s.levels low mv cut between).powerLaw := by
  by_cases hv : mv < 1600 ∨ s.power.vdd < 1600
  · rw [s.levels_brownOut _ _ _ _ hv]
    exact s.resetTo_pwr cut low mv
  · obtain ⟨hm, hs⟩ := not_or.mp hv
    obtain ⟨hjudged, hheld⟩ := s.powerLaw_iff.mp h
    rw [s.levels_judged _ _ _ _ (Nat.le_of_not_lt hm) (Nat.le_of_not_lt hs)]
    exact State.judgePower_pwr _ _ hjudged.idle_of_normal fun hl => hheld (.inl (hl.resolve_right hm))

theorem State.rstHeld_pwr (s : State) (h : s.powerLaw) : s.rstHeld.powerLaw := by
  obtain ⟨hjudged, _⟩ := s.powerLaw_iff.mp h
  exact (State.powerLaw_iff _).mpr ⟨hjudged, fun _ => rfl⟩

/-! ## The port: frames and window bytes (R188 to R197) -/

/-- A data byte leaves the frame as it is; so does an action that keeps the law. -/
theorem State.windowWrite_pwr (s : State) (a : Addr) (act : State → State) (h : s.powerLaw)
    (hact : s.byteTaken.powerLaw → (act s.byteTaken).powerLaw) : (s.windowWrite a act).powerLaw := by
  by_cases ha : s.writingAt a
  · rw [s.windowWrite_writingAt a act ha]
    exact hact h
  by_cases hi : s.port.frame = some .ignoring
  · rw [s.windowWrite_ignoring a act hi]
    exact h
  · rwa [s.windowWrite_elsewhere a act hi ha]

theorem State.go_pwr (s : State) (code : Option CommandCode) (h : s.powerLaw) : (s.go code).powerLaw := by
  unfold State.go
  split
  · exact s.windowWrite_pwr _ _ h id
  · exact h

theorem State.storeRegister_pwr (s : State) (a : Addr) (v : Byte) (h : s.powerLaw) : (s.storeRegister a v).powerLaw := by
  unfold State.storeRegister
  repeat' split
  all_goals exact h

/-- Only the supply threshold register reaches the supply threshold (R194). -/
theorem Configuration.store_supplyThreshold (g : Configuration) {a : Addr} (v : Byte) (h : a ≠ 0x46) :
    (g.store a v).supplyThreshold = g.supplyThreshold := by
  unfold Configuration.store
  dsimp only
  split
  case h_7 ha => exact absurd (Addr.eq_ofNat ha) h
  all_goals repeat' split
  all_goals rfl

/-- The action of a byte away from the supply threshold register is the register's alone. -/
theorem State.configure_other (s : State) {a : Addr} (v : Byte) (entry : WarningEntry) (h : a ≠ 0x46) :
    s.configure a v entry = { s with cfg := s.cfg.store a v } := if_neg h

theorem State.configure_threshold (s : State) (v : Byte) (entry : WarningEntry) :
    s.configure 0x46 v entry = ({ s with cfg := s.cfg.store 0x46 v } : State).judgePower entry := rfl

theorem State.configure_pwr (s : State) (a : Addr) (v : Byte) (entry : WarningEntry) (h : s.powerLaw) :
    (s.configure a v entry).powerLaw := by
  obtain ⟨hjudged, hheld⟩ := s.powerLaw_iff.mp h
  by_cases ha : a = 0x46
  · rw [ha, s.configure_threshold v entry]
    exact State.judgePower_pwr _ entry hjudged.idle_of_normal hheld
  · rw [s.configure_other v entry ha]
    refine (State.powerLaw_iff _).mpr ⟨?_, hheld⟩
    have hsame : powerAsserted (s.cfg.store a v) s.power = powerAsserted s.cfg s.power := by
      rw [powerAsserted, s.cfg.store_supplyThreshold v ha, powerAsserted]
    obtain ⟨hwarned, hidle⟩ := hjudged
    exact ⟨hsame ▸ hwarned, hsame ▸ hidle⟩

/-! ## One command -/

/-- Every command keeps the law of the power and reset pins. -/
theorem exec_pwr (i : Instr) (s t : State) (h : s.powerLaw) (he : exec i s = .next t) : t.powerLaw := by
  cases i
  all_goals obtain rfl := Host.Outcome.next.inj he
  case read | write | delete | add | list | openGroup | commitGroup | dropGroup | reclaim | format | raiseLock | codeNamesNoCommand =>
    exact s.go_pwr _ h
  case pop | bufferDataWrite | notificationFlagsClear | enableMaskWrite => exact s.windowWrite_pwr _ _ h id
  case takeCommand | reclaimTakeUpWork => exact h
  case lineProgramOutcome | multiLineReadOutcome | payloadDecay => split <;> exact h
  case bankEraseOutcome | groupExpiry | bufferDataRead =>
    repeat' split
    all_goals exact h
  case frame high edges =>
    split
    · next hopens =>
      obtain ⟨hjudged, _⟩ := s.powerLaw_iff.mp h
      obtain ⟨_, hfree⟩ : _ ∧ s.portHeld = false := by simpa using hopens
      exact (State.powerLaw_iff _).mpr ⟨hjudged, fun hheld => absurd (s.portHeld_iff.mpr hheld) (by simp [hfree])⟩
    · exact h
  case frameEnd edges =>
    split
    · obtain ⟨hjudged, _⟩ := s.powerLaw_iff.mp h
      exact (State.powerLaw_iff _).mpr ⟨hjudged, fun _ => rfl⟩
    · exact h
  case portReset v =>
    refine s.windowWrite_pwr _ _ h fun hb => ?_
    split <;> exact hb
  case configurationWrite a v entry =>
    split
    · exact s.windowWrite_pwr _ _ h (State.configure_pwr _ a v entry)
    · exact h
  case registerWrite a v =>
    split
    · exact h
    · exact s.windowWrite_pwr _ _ h (State.storeRegister_pwr _ a v)
  case timebaseTick => exact State.tickDebounce_pwr (s.engines Device.tickGroup) h
  case recovery =>
    split
    · next hd => exact s.recovered_pwr h hd.2
    · exact h
  case powerOnReset cut low mv => exact s.resetTo_pwr cut low mv
  case pinReset pin cut =>
    cases pin with
    | pulse n =>
      dsimp only
      split
      · exact s.resetTo_pwr ..
      · exact h
    | low => exact s.rstHeld_pwr h
    | rises =>
      dsimp only
      split
      · exact State.resetTo_pwr ..
      · exact h
  case powerWarning source cut => cases source <;> exact s.levels_pwr _ _ _ _ h
  case powerWarningDeasserted supply => exact s.levels_pwr _ _ _ _ h

/-- Settles O58: a step is `exec` of the front command, and every command keeps the law. -/
theorem powerLawKept : Obligations.PowerLawKept := by
  intro s t h hstep
  unfold step at hstep
  split at hstep
  · obtain rfl := Host.Outcome.next.inj hstep
    exact h
  · next i rest hp => exact exec_pwr i { s with pending := rest } t h hstep

end Sys2Proof.Machine
end

section
/-! Frames (R181, R188, R189, R190, R192, R198): the bits of the status summary byte, the fall of CS# at a port that is free or held, and
its rise. -/
namespace Sys2Proof.Machine
open Sys2Proof

/-! ## The status summary byte (R190, section 11.6) -/

/-- Four flags above a store state's code. -/
theorem byteOfBits_or_code (b7 b6 b5 b4 : Bool) (st : StoreState) :
    (byteOfBits b7 b6 b5 b4 false false false false ||| BitVec.ofNat 8 st.code).getLsbD 7 = b7 ∧
    (byteOfBits b7 b6 b5 b4 false false false false ||| BitVec.ofNat 8 st.code).getLsbD 6 = b6 ∧
    (byteOfBits b7 b6 b5 b4 false false false false ||| BitVec.ofNat 8 st.code).getLsbD 5 = b5 ∧
    (byteOfBits b7 b6 b5 b4 false false false false ||| BitVec.ofNat 8 st.code).getLsbD 4 = b4 ∧
    (byteOfBits b7 b6 b5 b4 false false false false ||| BitVec.ofNat 8 st.code).setWidth 4 = BitVec.ofNat 4 st.code := by
  cases st <;> revert b7 b6 b5 b4 <;> decide

/-! ## CS# falls and rises -/

/-- A held port, and one whose frame is in progress, ignores a fall of CS# (R181, R198; log entry 6). -/
theorem exec_frame_ignored (s : State) (high : Bool) (edges : List SckEdge)
    (h : s.rstLow = true ∨ s.power.vdd < 1600 ∨ s.port.frame ≠ none) : exec (.frame high edges) s = .next s := by
  refine congrArg Host.Outcome.next (if_neg fun hopens => ?_)
  obtain ⟨hframe, hfree⟩ : s.port.frame = none ∧ s.portHeld = false := by simpa using hopens
  rw [← or_assoc, ← s.portHeld_iff] at h
  exact h.elim (by simp [hfree]) (absurd hframe)

/-- A fall of CS# at a free port opens the frame with the header bytes that complete (R188, R189). -/
theorem exec_frame_opens (s : State) (high : Bool) {edges : List SckEdge} {bytes : List Byte} (hb : bytes = wholeBytes (sampled edges))
    (hr : s.rstLow = false) (hv : 1600 ≤ s.power.vdd) (hf : s.port.frame = none) :
    exec (.frame high edges) s = .next { s with port := framePort s high bytes } := by
  have hfree : s.portHeld = false :=
    Bool.eq_false_iff.mpr fun hheld => (s.portHeld_iff.mp hheld).elim (by simp [hr]) (Nat.not_lt_of_le hv)
  subst hb
  exact congrArg Host.Outcome.next (if_pos (by simp [hf, hfree]))

theorem accessState_ignoring {code : Byte} (h : code ≠ 0xA5 ∧ code ≠ 0x5A) : accessState code = .ignoring :=
  (if_neg h.1).trans (if_neg h.2)

/-- The port after two header bytes, the first an access code (R189, R190). -/
theorem framePort_addressed (s : State) (high : Bool) {code : Byte} (address : Byte) (h : code = 0xA5 ∨ code = 0x5A) :
    framePort s high [code, address] =
      { s.port with
        frame := some (if code = 0xA5 then .reading else .writing)
        pointer := address.setWidth 7
        idleHigh := high, capture := none, sent := [s.summary, BitVec.ofNat 8 s.dev.credits] } := by
  rcases h with rfl | rfl <;> rfl

/-- The port after two header bytes, the first no access code: IGNORING (R189, R190). -/
theorem framePort_ignoring (s : State) (high : Bool) {code : Byte} (address : Byte) (h : code ≠ 0xA5 ∧ code ≠ 0x5A) :
    framePort s high [code, address] =
      { s.port with frame := some .ignoring, idleHigh := high, capture := none, sent := [s.summary, 0xFF] } := by
  simp only [framePort, accessState_ignoring h]
  rfl

/-- Settles O2: the port after a fall of CS# is `framePort`, whose cases are the header bytes; a rise ends the frame. -/
theorem framesOpenAndEnd : Obligations.FramesOpenAndEnd := by
  refine ⟨fun s => ?summary, fun s high edges bytes hb => ⟨exec_frame_ignored s high edges, fun hr hv hf => ?opens⟩,
    fun s edges => ⟨fun hf => ?ends, fun hf => ?noFrame⟩⟩
  case summary =>
    obtain ⟨hirq, hdone, hwarning, hwaiting, hstore⟩ := byteOfBits_or_code s.irqAsserted (!s.dev.fifo.isEmpty) s.power.warning
      (s.dev.commandPhase = .waitingSpace) s.dev.store
    exact ⟨hirq, hdone, hwarning, (congrArg (· = true) hwaiting).to_iff.trans decide_eq_true_iff, hstore⟩
  case opens =>
    rw [exec_frame_opens s high hb hr hv hf]
    refine ⟨fun h => ?_, fun code h => ?_, fun code address h => ⟨fun ha => ?_, fun hi => ?_⟩⟩ <;> rw [h]
    · rfl
    · rfl
    · rw [framePort_addressed s high address ha]
    · rw [framePort_ignoring s high address hi]
  case ends => exact congrArg Host.Outcome.next (if_pos (Option.isSome_iff_ne_none.mpr hf))
  case noFrame => exact congrArg Host.Outcome.next (if_neg (by simp [hf]))

end Sys2Proof.Machine
end

section
/-! The configuration registers (R179, R193, R194): what a byte to each address stores, and a supply threshold that reaches the comparator
at once. -/
namespace Sys2Proof.Machine
open Sys2Proof

/-! ## The byte arrives -/

/-- A byte to a configuration register, in a write frame at its address. -/
theorem exec_configurationWrite_acts {s : State} {a : Addr} (v : Byte) (r : WarningEntry) (h : s.writingAt a)
    (hc : Addr.isConfiguration a = true) : exec (.configurationWrite a v r) s = .next (s.byteTaken.configure a v r) :=
  congrArg Host.Outcome.next ((if_pos hc).trans (s.windowWrite_writingAt a _ h))

/-- Away from the supply threshold register its action is the configuration's alone. -/
theorem exec_configurationWrite_stores {s : State} {a : Addr} {v : Byte} {g : Configuration} (r : WarningEntry) (h : s.writingAt a)
    (hc : Addr.isConfiguration a = true) (ha : a ≠ 0x46) (hg : s.cfg.store a v = g) :
    exec (.configurationWrite a v r) s = .next { s.byteTaken with cfg := g } := by
  rw [exec_configurationWrite_acts v r h hc, s.byteTaken.configure_other v r ha]
  exact congrArg (fun g => Host.Outcome.next { s.byteTaken with cfg := g }) hg

/-- The suspend enable is stored from the values 0 and 1 (R194). -/
theorem Configuration.store_suspendEnable (g : Configuration) (v : Byte) :
    g.store 0x45 v =
      if v = 0 then { g with suspendEnable := false } else if v = 1 then { g with suspendEnable := true } else g := by
  change (if v.toNat ≤ 1 then { g with suspendEnable := decide (v.toNat = 1) } else g) = _
  by_cases h0 : v = 0
  · rw [h0]
    rfl
  by_cases h1 : v = 1
  · rw [h1]
    rfl
  · rw [if_neg h0, if_neg h1, if_neg (by bv_omega)]

/-! ## The supply threshold (R179, R194) -/

theorem SupplyThreshold.ofNumber_number (t : SupplyThreshold) : SupplyThreshold.ofNumber t.number = some t := by
  cases t <;> rfl

theorem SupplyThreshold.ofNumber_outOfRange {n : Nat} (h : 3 < n) : SupplyThreshold.ofNumber n = none := by
  unfold SupplyThreshold.ofNumber
  split
  case h_5 => rfl
  all_goals omega

/-- The supply threshold is stored from the numbers of its settings. -/
theorem Configuration.store_threshold (g : Configuration) (v : Byte) :
    g.store 0x46 v = ((SupplyThreshold.ofNumber v.toNat).map fun t => { g with supplyThreshold := t }).getD g := by
  change (match SupplyThreshold.ofNumber v.toNat with
    | some t => { g with supplyThreshold := t }
    | none => g) = _
  cases SupplyThreshold.ofNumber v.toNat <;> rfl

/-- No source asserts in NORMAL: nothing to do. -/
theorem State.judgePower_normal (s : State) (entry : WarningEntry) (h : powerAsserted s.cfg s.power = false)
    (hw : s.power.warning = false) : s.judgePower entry = s := by
  rw [State.judgePower_quiet _ _ h, if_neg (by simp [hw])]

/-- No source asserts any more under WARNING: the debounce begins, if it has not begun (R180). -/
theorem State.judgePower_debounces (s : State) (entry : WarningEntry) (h : powerAsserted s.cfg s.power = false)
    (hw : s.power.warning = true) :
    s.judgePower entry =
      { s with power := { s.power with debounce := if s.power.debounce = .idle then .pending else s.power.debounce } } := by
  rw [State.judgePower_quiet _ _ h]
  by_cases hd : s.power.debounce = .idle
  · rw [if_pos ⟨hw, hd⟩, if_pos hd]
  · rw [if_neg (fun hn => hd hn.2), if_neg hd]

/-- A byte to the supply threshold register: the sources are judged with what it stores. -/
theorem exec_configurationWrite_judges {s : State} {v : Byte} {g : Configuration} (r : WarningEntry) (h : s.writingAt 0x46)
    (hg : s.cfg.store 0x46 v = g) :
    exec (.configurationWrite 0x46 v r) s = .next (({ s.byteTaken with cfg := g } : State).judgePower r) := by
  subst hg
  exact exec_configurationWrite_acts v r h rfl

/-- Settles O10: a byte acts through `Configuration.store`, and a threshold through the judging of the sources too; an entry to WARNING is
then the one at which PFW# goes LOW. -/
theorem configurationRegisters : Obligations.ConfigurationRegisters := by
  refine ⟨fun s v r => ⟨fun h => ?start, fun h => ?gapHigh, fun h n hn => ?gapLow, fun h => ?timeoutHigh, fun h n hn => ?timeoutLow,
    fun h => ?suspend⟩, fun s v r h => ⟨fun hv hp => ?ignored, fun t g hv hg => ?threshold⟩⟩
  case start => exact exec_configurationWrite_stores r h rfl (by decide) rfl
  case gapHigh => exact exec_configurationWrite_stores r h rfl (by decide) rfl
  case gapLow => exact exec_configurationWrite_stores r h rfl (by decide) (hn ▸ rfl)
  case timeoutHigh => exact exec_configurationWrite_stores r h rfl (by decide) rfl
  case timeoutLow => exact exec_configurationWrite_stores r h rfl (by decide) (hn ▸ rfl)
  case suspend => exact exec_configurationWrite_stores r h rfl (by decide) (s.cfg.store_suspendEnable v)
  case ignored =>
    obtain ⟨hjudged, _⟩ := s.powerLaw_iff.mp hp
    have hstored : s.cfg.store 0x46 v = s.cfg := by rw [Configuration.store_threshold, SupplyThreshold.ofNumber_outOfRange hv]; rfl
    rw [exec_configurationWrite_judges r h hstored]
    exact congrArg _ (s.byteTaken.judgePower_self r hjudged)
  case threshold =>
    have hstored : s.cfg.store 0x46 v = g := by rw [Configuration.store_threshold, hv, t.ofNumber_number, hg]; rfl
    rw [exec_configurationWrite_judges r h hstored]
    refine ⟨fun ha hw => ?normal, fun ha hw => ?recovering, fun ha hw => ?stays, fun ha hw => ?enters⟩
    case normal => exact congrArg _ (State.judgePower_normal { s.byteTaken with cfg := g } r ha hw)
    case recovering => exact congrArg _ (State.judgePower_debounces { s.byteTaken with cfg := g } r ha hw)
    case stays => exact congrArg _ (State.judgePower_again { s.byteTaken with cfg := g } r ha hw)
    case enters =>
      refine ⟨_, congrArg _ (State.judgePower_enters { s.byteTaken with cfg := g } r ha hw), rfl, rfl, rfl,
        State.enterWarning_powerWarn _ r, fun hvdd w cut hcut hpfw => ?_⟩
      rw [exec_powerWarning_entered (s := { s with cfg := g }) cut hvdd hw rfl] at hpfw
      obtain rfl := Host.Outcome.next.inj hpfw
      refine ⟨rfl, ?_⟩
      unfold State.pfwLow
      rw [hcut]
      rfl

end Sys2Proof.Machine
end

section
/-! The bits on SDI and SDO (R188, R198): a byte comes back from its bits, and SDO carries the bits of the bytes sent in order. -/
namespace Sys2Proof.Machine
open Sys2Proof

/-! ## Bytes and their bits (R188) -/

/-- Eight sampled bits are the byte that has them, the first as its most significant bit. -/
theorem byteIn_eq_byteOfBits (b7 b6 b5 b4 b3 b2 b1 b0 : Bool) :
    byteIn [b7, b6, b5, b4, b3, b2, b1, b0] = byteOfBits b7 b6 b5 b4 b3 b2 b1 b0 := by
  refine congrArg (BitVec.ofNat 8) ?_
  simp only [List.foldl_cons, List.foldl_nil]
  omega

theorem byteIn_bitsOut (b : Byte) : byteIn (bitsOut b) = b := by
  refine BitVec.eq_of_getLsbD_eq fun i hi => ?_
  have hbits := byteOfBits_getLsbD (b.getLsbD 7) (b.getLsbD 6) (b.getLsbD 5) (b.getLsbD 4) (b.getLsbD 3) (b.getLsbD 2) (b.getLsbD 1)
    (b.getLsbD 0) ⟨i, hi⟩
  rw [← byteIn_eq_byteOfBits] at hbits
  refine hbits.trans ?_
  interval_cases i <;> rfl

theorem wholeBytes_bitsOut (b : Byte) : wholeBytes (bitsOut b) = [b] := congrArg (fun x => [x]) (byteIn_bitsOut b)

/-- Bit `n` of bytes that travel one after another. -/
theorem flatten_bitsOut_getElem? (bytes : List Byte) (n : Nat) (h : n < 8 * bytes.length) :
    (bytes.map bitsOut).flatten[n]? = some ((bytes.getD (n / 8) 0).getLsbD (7 - n % 8)) := by
  induction bytes generalizing n with
  | nil => exact absurd h (Nat.not_lt_zero n)
  | cons b rest ih =>
    have hlength : (bitsOut b).length = 8 := rfl
    rw [List.map_cons, List.flatten_cons]
    by_cases hn : n < 8
    · rw [List.getElem?_append_left (hlength.symm ▸ hn), Nat.div_eq_of_lt hn, Nat.mod_eq_of_lt hn, List.getD_cons_zero]
      simp [bitsOut, hn]
    · obtain ⟨m, rfl⟩ := Nat.exists_eq_add_of_le' (Nat.le_of_not_lt hn)
      rw [List.getElem?_append_right (hlength ▸ Nat.le_add_left 8 m), hlength, Nat.add_sub_cancel,
        Nat.add_div_right m (Nat.succ_pos 7), Nat.add_mod_right, List.getD_cons_succ]
      exact ih m (by simp only [List.length_cons] at h; omega)

/-! ## SDO (R188, R198) -/

theorem State.sdo_highImpedance (s : State) (edges : List SckEdge) (h : s.port.frame = none ∨ s.rstLow = true ∨ s.power.vdd < 1600) :
    s.sdo edges = none := by
  rw [← s.portHeld_iff, ← Option.isNone_iff_eq_none, ← Bool.or_eq_true] at h
  exact if_pos h

/-- In a frame of a port that is not held, SDO carries the newest bit driven, and before the first nothing. -/
theorem State.sdo_inFrame (s : State) (edges : List SckEdge) (hf : s.port.frame ≠ none) (hr : s.rstLow = false)
    (hv : 1600 ≤ s.power.vdd) :
    (bitsDriven s.port.idleHigh edges = 0 → s.sdo edges = none) ∧
    ∀ n, bitsDriven s.port.idleHigh edges = n + 1 → s.sdo edges = ((s.port.sent ++ [s.nextByte]).map bitsOut).flatten[n]? := by
  have hfree : ¬(s.port.frame.isNone || s.portHeld) = true := by
    rw [Bool.or_eq_true, Option.isNone_iff_eq_none, s.portHeld_iff]
    simp [hf, hr, hv]
  unfold State.sdo
  rw [if_neg hfree]
  exact ⟨fun h => by rw [h], fun n h => by rw [h]⟩

/-- Settles O3: SDI by the bits of a byte, SDO by the number of bits driven. -/
theorem bitsOnTheWires : Obligations.BitsOnTheWires := by
  refine ⟨fun b edges h => ?sampledByte, fun sdi edges => rfl, fun s edges bytes falls hbytes hfalls =>
    ⟨s.sdo_highImpedance edges, fun hf hr hv => ⟨fun hmode hnone => ?beforeFirst, fun n hn hlt => ?driven⟩⟩⟩
  case sampledByte => rw [h]; exact wholeBytes_bitsOut b
  all_goals
    obtain ⟨hnothing, hbit⟩ := s.sdo_inFrame edges hf hr hv
    have hcount : bitsDriven s.port.idleHigh edges = falls + if s.port.idleHigh then 0 else 1 := hfalls ▸ rfl
  case beforeFirst => exact hnothing (by rw [hcount, hnone, hmode]; rfl)
  case driven =>
    have hdriven : bitsDriven s.port.idleHigh edges = n + 1 := by
      rw [hcount, ← hn]
      cases s.port.idleHigh <;> rfl
    rw [hbit n hdriven, ← hbytes]
    exact flatten_bitsOut_getElem? bytes n hlt

end Sys2Proof.Machine
end

section
/-! IRQ# (R195, R196, R197): the flags and the mask that it follows, and where each changes. -/
namespace Sys2Proof.Machine
open Sys2Proof

/-- Two words have a bit in common exactly where their conjunction is not zero. -/
theorem and_ne_zero_iff {n : Nat} (a b : BitVec n) :
    a &&& b ≠ 0 ↔ ∃ i : Fin n, a.getLsbD i.val = true ∧ b.getLsbD i.val = true := by
  rw [← not_iff_not, not_not, not_exists]
  refine ⟨fun h i ⟨ha, hb⟩ => ?_, fun h => BitVec.eq_of_getLsbD_eq fun i hi => ?_⟩
  · have hbit : (a &&& b).getLsbD i.val = true := by rw [BitVec.getLsbD_and, ha, hb]; rfl
    rw [h] at hbit
    exact absurd hbit (by simp)
  · rw [BitVec.getLsbD_and]
    simpa using h ⟨i, hi⟩

theorem State.irqAsserted_iff (s : State) : s.irqAsserted = true ↔ s.rstLow = false ∧ s.dev.flagsByte &&& s.mask ≠ 0 := by
  simp [State.irqAsserted]

/-- With no flag enabled IRQ# is released, whatever the flags are. -/
theorem State.irqAsserted_noMask {s : State} (h : s.mask = 0) : s.irqAsserted = false := by
  rw [Bool.eq_false_iff, Ne, s.irqAsserted_iff, h]
  exact fun ⟨_, hne⟩ => hne BitVec.and_zero

/-- Settles O5: IRQ# by the common bits of the flags register and the mask; every reset leaves the mask 0x00. -/
theorem interruptFollowsEnabledFlags : Obligations.InterruptFollowsEnabledFlags := by
  refine ⟨fun s => ?follows, fun s v => ⟨fun ha => ?mask, fun ha => ?flags, fun ha => ?portReset⟩, fun s i h => ?resets⟩
  case follows => exact s.irqAsserted_iff.trans (and_congr_right fun _ => and_ne_zero_iff _ _)
  case mask => exact congrArg _ (s.windowWrite_writingAt 0x51 _ ha)
  case flags => exact congrArg _ (s.windowWrite_writingAt 0x50 _ ha)
  case portReset =>
    refine ⟨_, congrArg Host.Outcome.next (s.windowWrite_writingAt 0x7F _ ha), ?_⟩
    split <;> rfl
  case resets =>
    obtain ⟨r, cut, low, mv, he⟩ := exec_resets h
    exact ⟨_, he, r.resetTo_mask cut low mv, State.irqAsserted_noMask (r.resetTo_mask cut low mv)⟩

end Sys2Proof.Machine
end

section
/-! Read frames (R189, R191, R192, R198): the byte that goes out at the pointer, and the commands that leave the port of a read frame
alone. -/
namespace Sys2Proof.Machine
open Sys2Proof

/-! ## The byte sent (R191, R192) -/

theorem Addr.isStatusLow_iff (a : Addr) : Addr.isStatusLow a = true ↔ a = 0x09 ∨ a = 0x0B := by
  simp [Addr.isStatusLow]

/-- A captured half of a two-byte status value is sent at its own address. -/
theorem State.readByte_captured {s : State} {v : Byte} (hp : s.port.pointer ≠ 0x30) (hc : s.port.capture = some (s.port.pointer, v))
    (hl : Addr.isStatusLow s.port.pointer = true) : s.readByte = v := by
  unfold State.readByte
  rw [if_neg hp, hc]
  exact if_pos (by simp [hl])

/-- Without a captured half for the pointer the register goes out as it stands. -/
theorem State.readByte_register {s : State} (hp : s.port.pointer ≠ 0x30)
    (h : (∀ v, s.port.capture ≠ some (s.port.pointer, v)) ∨ ¬Addr.isStatusLow s.port.pointer = true) :
    s.readByte = s.register s.port.pointer := by
  unfold State.readByte
  rw [if_neg hp]
  split
  · next a v hc =>
    refine if_neg fun hheld => ?_
    obtain ⟨rfl, hl⟩ : a = s.port.pointer ∧ Addr.isStatusLow a = true := by simpa using hheld
    exact h.elim (fun hnone => hnone v hc) (fun hnot => hnot hl)
  · rfl

/-- A data byte of a read frame, away from the data port. -/
theorem exec_bufferDataRead_sends {s : State} {b : Byte} (hf : s.port.frame = some .reading) (hp : s.port.pointer ≠ 0x30)
    (hb : s.readByte = b) : exec .bufferDataRead s = .next (s.byteSent b (s.captured s.port.pointer)) := by
  rw [exec_bufferDataRead_reading s hf, if_neg hp, hb]

theorem exec_bufferDataRead_ignoring (s : State) (hf : s.port.frame = some .ignoring) :
    exec .bufferDataRead s = .next { s with port := { s.port with sent := s.port.sent ++ [0xFF] } } := by
  change execBufferDataRead s = _
  unfold execBufferDataRead
  rw [hf]

theorem exec_bufferDataRead_elsewhere (s : State) (hf : s.port.frame ≠ some .reading ∧ s.port.frame ≠ some .ignoring) :
    exec .bufferDataRead s = .next s := by
  change execBufferDataRead s = _
  unfold execBufferDataRead
  split
  · next hr => exact absurd hr hf.1
  · next hi => exact absurd hi hf.2
  · rfl

/-! ## What leaves the port of a read frame alone (R192) -/

section Reading
variable {s : State} (hf : s.port.frame = some .reading)
include hf

theorem State.windowWrite_reading (a : Addr) (act : State → State) : s.windowWrite a act = s :=
  s.windowWrite_elsewhere a act (by simp [hf]) fun hw => absurd (hf.symm.trans hw.1) nofun

theorem State.go_reading (code : Option CommandCode) : s.go code = s := by
  unfold State.go
  split
  · exact State.windowWrite_reading hf _ _
  · rfl

end Reading

/-- Judging the sources leaves the port as it is. -/
theorem State.judgePower_port (s : State) (entry : WarningEntry) : (s.judgePower entry).port = s.port := by
  unfold State.judgePower
  repeat' split
  all_goals rfl

theorem State.tickDebounce_port (s : State) : s.tickDebounce.port = s.port := by
  rcases s.tickDebounce_cases with he | ⟨power, he⟩ <;> rw [he]
  rfl

/-- New levels of the sources that are no reset leave the port as it is. -/
theorem exec_powerWarning_port {s t : State} {source : WarningSource} {cut : CutShort} (h : ¬Instr.resets s (.powerWarning source cut))
    (he : exec (.powerWarning source cut) s = .next t) : t.port = s.port := by
  have hv := Instr.vdd_of_not_resets h
  cases source with
  | pfw between =>
    rw [exec_powerWarning_pfw s between cut hv] at he
    obtain rfl := Host.Outcome.next.inj he
    exact State.judgePower_port _ _
  | supply mv between =>
    rw [exec_powerWarning_supply s mv between cut hv (Instr.supply_of_not_resets h)] at he
    obtain rfl := Host.Outcome.next.inj he
    exact State.judgePower_port _ _

theorem exec_powerWarningDeasserted_port {s t : State} {supply : SupplyAfter} (h : ¬Instr.resets s (.powerWarningDeasserted supply))
    (he : exec (.powerWarningDeasserted supply) s = .next t) : t.port = s.port := by
  obtain ⟨hv, hm⟩ := not_or.mp h
  rw [exec_powerWarningDeasserted s _ _ (Nat.le_of_not_lt hv) (Nat.le_of_not_lt hm)] at he
  obtain rfl := Host.Outcome.next.inj he
  exact State.judgePower_port _ _

/-- A pulse on RST# that is too short or comes while RST# is LOW, and a rise without a fall, change nothing (R198; log entry 6). -/
theorem exec_pinReset_noReset {s : State} {pin : ResetPin} {cut : CutShort} (h : ¬Instr.resets s (.pinReset pin cut)) (hpin : pin ≠ .low) :
    exec (.pinReset pin cut) s = .next s := by
  cases pin with
  | pulse n => exact congrArg Host.Outcome.next (if_neg h)
  | low => exact absurd rfl hpin
  | rises => exact congrArg Host.Outcome.next (if_neg h)

/-- In a read frame the port changes at a data byte, at the frame's end, at the fall of RST# and at a reset, and at no other command. -/
theorem exec_reading_port (i : Instr) (s t : State) (hf : s.port.frame = some .reading) (hread : i ≠ .bufferDataRead)
    (hend : ∀ edges, i ≠ .frameEnd edges) (hreset : ¬Instr.resets s i) (hlow : ∀ cut, i ≠ .pinReset .low cut)
    (he : exec i s = .next t) : t.port = s.port := by
  cases i
  case bufferDataRead => exact absurd rfl hread
  case frameEnd edges => exact absurd rfl (hend edges)
  case powerOnReset => exact absurd trivial hreset
  case powerWarning => exact exec_powerWarning_port hreset he
  case powerWarningDeasserted => exact exec_powerWarningDeasserted_port hreset he
  case frame high edges =>
    rw [exec_frame_ignored s high edges (.inr (.inr (by simp [hf])))] at he
    obtain rfl := Host.Outcome.next.inj he
    rfl
  case pinReset pin cut =>
    rw [exec_pinReset_noReset hreset fun hp => hlow cut (by rw [hp])] at he
    obtain rfl := Host.Outcome.next.inj he
    rfl
  all_goals obtain rfl := Host.Outcome.next.inj he
  case read | write | delete | add | list | openGroup | commitGroup | dropGroup | reclaim | format | raiseLock | codeNamesNoCommand =>
    exact congrArg State.port (State.go_reading hf _)
  case pop | portReset | bufferDataWrite | notificationFlagsClear | enableMaskWrite =>
    exact congrArg State.port (State.windowWrite_reading hf _ _)
  case configurationWrite a v entry =>
    split
    · exact congrArg State.port (State.windowWrite_reading hf _ _)
    · rfl
  case registerWrite a v =>
    split
    · rfl
    · exact congrArg State.port (State.windowWrite_reading hf _ _)
  case takeCommand | reclaimTakeUpWork => rfl
  case timebaseTick => exact State.tickDebounce_port _
  case groupExpiry | recovery | lineProgramOutcome | bankEraseOutcome | multiLineReadOutcome | payloadDecay =>
    repeat' split
    all_goals rfl

/-- Settles O7: the byte is `State.readByte`, which is the captured half or the register. -/
theorem readByteSendsRegister : Obligations.ReadByteSendsRegister := by
  refine ⟨fun s => ⟨fun hf hp capture hcapture => ⟨fun v hc hl => ?captured, fun h => ?register⟩, exec_bufferDataRead_ignoring s,
    exec_bufferDataRead_elsewhere s⟩, exec_reading_port⟩
  all_goals subst hcapture
  case captured => exact exec_bufferDataRead_sends hf hp (State.readByte_captured hp hc ((Addr.isStatusLow_iff _).mpr hl))
  case register =>
    refine exec_bufferDataRead_sends hf hp (State.readByte_register hp (h.imp_right fun hne => ?_))
    rw [Addr.isStatusLow_iff]
    exact not_or.mpr hne

end Sys2Proof.Machine
end
